-- ==== Sys2Proof/Word.lean ====
section
/-! DEFINITION. The bit vectors the machine is built from: bytes, 32-bit register words and tab-word parcels, 64-bit words. -/
namespace Sys2Proof

/-- One byte. -/
abbrev Byte := BitVec 8

/-- A 32-bit register word, tab-word parcel or FP32 code. -/
abbrev Word := BitVec 32

/-- A 64-bit word: an S register, a 64-bit register. -/
abbrev Dword := BitVec 64

/-- Bits [lo + w - 1 : lo] of a word, as a number. -/
def bits {n : Nat} (x : BitVec n) (lo w : Nat) : Nat := (x.toNat >>> lo) % 2 ^ w

/-- Bit `i` of a word. -/
def bitAt {n : Nat} (x : BitVec n) (i : Nat) : Bool := x.getLsbD i

/-- The number a `w`-bit two's-complement code stands for. -/
def signedOf (w : Nat) (n : Nat) : Int :=
  if n % 2 ^ w < 2 ^ (w - 1) then (n % 2 ^ w : Int) else (n % 2 ^ w : Int) - 2 ^ w

/-- The `k` bytes of a number, low byte first (R9: multi-byte fields are little-endian). -/
def toBytes : Nat → Nat → List Byte
  | 0, _ => []
  | k + 1, n => BitVec.ofNat 8 n :: toBytes k (n / 256)

/-- The number that bytes spell, low byte first (R9). -/
def ofBytes : List Byte → Nat
  | [] => 0
  | b :: bs => b.toNat + 256 * ofBytes bs

end Sys2Proof
end

