-- ==== Sys2Proof/Config.lean ====
section
/-! DEFINITION. What the spec leaves open: the free values (constants with no body, so that no proof can rest on what
they are) and the functions of standards that the spec only names. -/
namespace Sys2Proof

/-- FREE VALUE (log 8): a number the spec leaves undefined; the argument counts the free values drawn so far. -/
opaque Config.freeNat : Nat → Nat

/-- FREE VALUE (log 7): a byte of a memory that nothing has written since it was last made unpredictable: the
memory's kind and epoch, and the address. -/
opaque Config.freeByte : Nat → Nat → Byte

/-- FREE VALUE (log 7): a value word of an accumulator cell, or of a fretboard, that nothing has written. -/
opaque Config.freeWord : Nat → Nat → Word

/-- SHA-384, which R444, R451 and R462 name (log 11), left uninterpreted; a digest has 48 bytes. -/
opaque Config.sha384Bits : List Byte → BitVec 384
def Config.sha384 (b : List Byte) : List Byte := toBytes 48 (Config.sha384Bits b).toNat

/-- ECDSA verification on brainpoolP384r1 (R445, log 11): public key, digest, signature. -/
opaque Config.ecdsaVerify : List Byte → List Byte → List Byte → Bool

/-- The signature (SIG_R then SIG_S, 96 bytes) that the device key makes of a digest (R450, R452, log 11). -/
opaque Config.deviceSignBits : List Byte → BitVec 768
def Config.deviceSign (b : List Byte) : List Byte := toBytes 96 (Config.deviceSignBits b).toNat

/-- The signature (96 bytes) that Milnik's key makes of a digest (R462, R463, log 11). -/
opaque Config.milnikSignBits : List Byte → BitVec 768
def Config.milnikSign (b : List Byte) : List Byte := toBytes 96 (Config.milnikSignBits b).toNat

/-- The device certificate chain of the flash certificate area (R450, log 11). -/
opaque Config.deviceChain : List Byte

/-- Milnik's certificate chain (R463, R465, log 11). -/
opaque Config.milnikChain : List Byte

/-- The key slots of the fuses (R445, log 5): SHA-384 of a signing key's PUB_X and PUB_Y. -/
opaque Config.keyHashBits : Nat → BitVec 384
def Config.keyHash (k : Nat) : List Byte := toBytes 48 (Config.keyHashBits k).toNat

/-- Measurement 0, of the boot ROM, fixed at manufacture (R451, log 11). -/
opaque Config.bootRomBits : BitVec 384
def Config.bootRomDigest : List Byte := toBytes 48 Config.bootRomBits.toNat

/-- Measurement 2, of the fuse map (R451, log 11): MIN_SVN and the revocations; key slots and seal state are the part's. -/
opaque Config.fuseMapBits : Nat → Nat → BitVec 384
def Config.fuseMapDigest (minSvn revoked : Nat) : List Byte := toBytes 48 (Config.fuseMapBits minSvn revoked).toNat

/-- Measurement 3, of Milnik's public key (R451, log 11). -/
opaque Config.milnikKeyBits : BitVec 384
def Config.milnikKeyDigest : List Byte := toBytes 48 Config.milnikKeyBits.toNat

/-- The silicon's stepping (R36, log 5): STEP_MAJOR in bits 7 to 4, STEP_MINOR in bits 3 to 0. -/
opaque Config.stepping : Byte

/-- Tautal's vendor ID (R358, log 5), which the spec does not give. -/
opaque Config.vendorId : BitVec 16

/-- The internal queue numbers of raw snapshots (R406), and the numbers of tracker resources in graphs (R405), which the spec
does not give (log 19): a number for each kind of queue and its index. -/
opaque Config.queueNo : Nat → Nat → Nat

/-- The vendor and type of IDE_KM (2), and of an index that names no protocol (5), in a DOE Discovery response (R364, log 21). -/
opaque Config.doeProtocol : Nat → Word

/-- CDAT's latency and bandwidth entries of the bench windows of a die (R364, log 21): R24 and chapter 6 give no figures for them. -/
opaque Config.cdatPerformance : Nat → List Byte

end Sys2Proof
end

