-- ==== Sys2Proof/Machine/Num.lean ====
section
/-! DEFINITION. Exact numbers and rounding: every arithmetic rule of chapter 4 is an exact value rounded once (R101 to
R122, R132). A finite value is a sign, a magnitude and a power of two; every format decodes to such a value and is
encoded from one with a single rounding. -/
namespace Sys2Proof.Machine

/-- An exact value: NaN, an infinity, or sign × m × 2^e (zero keeps its sign). -/
inductive FV where
  | nan
  | inf (neg : Bool)
  | fin (neg : Bool) (m : Nat) (e : Int)
  deriving DecidableEq, Repr

/-- A rounding: nearest-even, or keyed stochastic with the random value h of the element (R118, R119). -/
inductive Rnd where
  | rne
  | sr (h : Word)
  deriving DecidableEq, Repr

/-- What a floating-point element format reserves for special values (R102). -/
inductive Specials where
  | ieee      -- infinities and NaNs in the top exponent
  | nanTop    -- E4M3: only the all-ones code is a NaN
  | none      -- FP6, FP4
  deriving DecidableEq, Repr

/-- A floating-point element format (R102): exponent bits, mantissa bits, bias, special codes. -/
structure FFmt where
  eb : Nat
  mb : Nat
  bias : Nat
  sp : Specials
  deriving DecidableEq, Repr

def fp32 : FFmt := ⟨8, 23, 127, .ieee⟩
def bf16 : FFmt := ⟨8, 7, 127, .ieee⟩
def fp16 : FFmt := ⟨5, 10, 15, .ieee⟩
def e4m3 : FFmt := ⟨4, 3, 7, .nanTop⟩
def e5m2 : FFmt := ⟨5, 2, 15, .ieee⟩
def e3m2 : FFmt := ⟨3, 2, 3, .none⟩
def e2m3 : FFmt := ⟨2, 3, 1, .none⟩
def e2m1 : FFmt := ⟨2, 1, 1, .none⟩

/-- Element bits of a floating-point format. -/
def FFmt.width (f : FFmt) : Nat := 1 + f.eb + f.mb

/-- The code of the largest finite magnitude (R102). -/
def FFmt.maxCode (f : FFmt) : Nat :=
  match f.sp with
  | .ieee => (2 ^ f.eb - 1) * 2 ^ f.mb - 1
  | .nanTop => 2 ^ (f.eb + f.mb) - 2
  | .none => 2 ^ (f.eb + f.mb) - 1

/-- The canonical NaN (R116). -/
def FFmt.nanCode (f : FFmt) : Nat :=
  match f.sp with
  | .ieee => (2 ^ f.eb - 1) * 2 ^ f.mb + 2 ^ (f.mb - 1)
  | .nanTop => 2 ^ (f.eb + f.mb) - 1
  | .none => 0

/-- The code of +∞, where the format has one. -/
def FFmt.infCode (f : FFmt) : Nat := (2 ^ f.eb - 1) * 2 ^ f.mb

/-- The exact value of a code (R102). -/
def decodeF (f : FFmt) (code : Nat) : FV :=
  let neg := code / 2 ^ (f.eb + f.mb) % 2 = 1
  let ex := code / 2 ^ f.mb % 2 ^ f.eb
  let fr := code % 2 ^ f.mb
  let special :=
    match f.sp with
    | .ieee => if ex = 2 ^ f.eb - 1 then (if fr = 0 then some (FV.inf neg) else some .nan) else none
    | .nanTop => if ex = 2 ^ f.eb - 1 ∧ fr = 2 ^ f.mb - 1 then some .nan else none
    | .none => none
  match special with
  | some v => v
  | none =>
    if ex = 0 then .fin neg fr (1 - (f.bias : Int) - f.mb)
    else .fin neg (fr + 2 ^ f.mb) ((ex : Int) - f.bias - f.mb)

/-- m × 2^e in units of 2^g, rounded to a whole number (R108 nearest-even, R119 stochastic). -/
def roundUnits (r : Rnd) (m : Nat) (e g : Int) : Nat :=
  if g ≤ e then m * 2 ^ (e - g).toNat
  else
    let d := (g - e).toNat
    let q := m / 2 ^ d
    let rem := m % 2 ^ d
    match r with
    | .rne =>
      if 2 ^ d < 2 * rem ∨ (2 * rem = 2 ^ d ∧ q % 2 = 1) then q + 1 else q
    | .sr h => if 2 ^ 32 ≤ rem * 2 ^ 32 / 2 ^ d + h.toNat then q + 1 else q

/-- The grid exponent of a format at a magnitude m × 2^e, subnormal range included. -/
def gridExp (f : FFmt) (m : Nat) (e : Int) : Int :=
  max ((Nat.log2 m : Int) + e) (1 - (f.bias : Int)) - f.mb

/-- Encodes an exact value with one rounding (R108, R115). `sat`: an overflow saturates (MX elements, R107), else it
gives an infinity, or ±448 in E4M3. -/
def encodeF (f : FFmt) (r : Rnd) (sat : Bool) (v : FV) : Nat :=
  let sgn (neg : Bool) : Nat := if neg then 2 ^ (f.eb + f.mb) else 0
  match v with
  | .nan => f.nanCode
  | .inf neg =>
    match f.sp with
    | .ieee => f.infCode + sgn neg
    | _ => f.nanCode
  | .fin neg m e =>
    if m = 0 then sgn neg
    else
      let g := gridExp f m e
      let q := roundUnits r m e g
      let code := ((g + f.mb + f.bias - 1).toNat) * 2 ^ f.mb + q
      if code ≤ f.maxCode then code + sgn neg
      else if sat then f.maxCode + sgn neg
      else
        match f.sp with
        | .ieee => f.infCode + sgn neg
        | _ => f.maxCode + sgn neg

/-- The exact signed number m × 2^e as an integer of units 2^g, for g ≤ e. -/
def signedUnits (neg : Bool) (m : Nat) (e g : Int) : Int :=
  let u : Int := (m * 2 ^ (e - g).toNat : Nat)
  if neg then -u else u

/-- The exact sum (R109, R120): NaN and infinities as IEEE 754; a zero sum of opposite signs is +0. -/
def addFV : FV → FV → FV
  | .nan, _ => .nan
  | _, .nan => .nan
  | .inf a, .inf b => if a = b then .inf a else .nan
  | .inf a, .fin .. => .inf a
  | .fin .., .inf b => .inf b
  | .fin a m e, .fin b n f =>
    if m = 0 ∧ n = 0 then .fin (a && b) 0 0
    else
      let g := min e f
      let s := signedUnits a m e g + signedUnits b n f g
      .fin (s < 0) s.natAbs g

/-- The exact product, with 0 × ∞ = NaN (R120; a stroke gates its zero operands before this, R84). -/
def mulFV : FV → FV → FV
  | .nan, _ => .nan
  | _, .nan => .nan
  | .inf a, .inf b => .inf (a != b)
  | .inf a, .fin b m _ => if m = 0 then .nan else .inf (a != b)
  | .fin a m _, .inf b => if m = 0 then .nan else .inf (a != b)
  | .fin a m e, .fin b n f => .fin (a != b) (m * n) (e + f)

def negFV : FV → FV
  | .nan => .nan
  | .inf a => .inf (!a)
  | .fin a m e => .fin (!a) m e

/-- v × 2^k, exactly. -/
def scaleFV (k : Int) : FV → FV
  | .fin a m e => .fin a m (e + k)
  | v => v

/-- Whether an exact value is a zero. -/
def FV.isZero : FV → Bool
  | .fin _ m _ => m = 0
  | _ => false

/-- The FP32 value of a code, and the code of a value rounded to nearest-even. -/
def f32 (w : Word) : FV := decodeF fp32 w.toNat
def toF32 (v : FV) : Word := BitVec.ofNat 32 (encodeF fp32 .rne false v)

/-- R120: the vector engine's FP32 operations, each the exact result rounded once. -/
def fadd (a b : Word) : Word := toF32 (addFV (f32 a) (f32 b))
def fneg (a : Word) : Word := a ^^^ 0x80000000#32
def fsub (a b : Word) : Word := toF32 (addFV (f32 a) (negFV (f32 b)))
def fmul (a b : Word) : Word := toF32 (mulFV (f32 a) (f32 b))
def ffma (a b c : Word) : Word := toF32 (addFV (mulFV (f32 a) (f32 b)) (f32 c))

/-- a < b as IEEE 754 compares exact values; false with a NaN, and −0 = +0. -/
def ltFV : FV → FV → Bool
  | .nan, _ => false
  | _, .nan => false
  | .inf a, .inf b => a && !b
  | .inf a, .fin .. => a
  | .fin .., .inf b => !b
  | .fin a m e, .fin b n f => let g := min e f; signedUnits a m e g < signedUnits b n f g

def eqFV : FV → FV → Bool
  | .nan, _ => false
  | _, .nan => false
  | .inf a, .inf b => a = b
  | .inf _, .fin .. => false
  | .fin .., .inf _ => false
  | .fin a m e, .fin b n f => let g := min e f; signedUnits a m e g = signedUnits b n f g

/-- The canonical FP32 NaN (R116) and 1.0. -/
def nan32 : Word := 0x7FC00000#32
def one32 : Word := 0x3F800000#32

/-- The sign of an exact value. -/
def FV.neg : FV → Bool
  | .nan => false
  | .inf a => a
  | .fin a _ _ => a

/-- R120: minimum and maximum give NaN for a NaN input and order −0 below +0. -/
def leMinMax (x y : FV) : Bool := ltFV x y || (eqFV x y && (x.neg || !y.neg))
def fmin (a b : Word) : Word :=
  if f32 a = .nan ∨ f32 b = .nan then nan32 else if leMinMax (f32 a) (f32 b) then a else b
def fmax (a b : Word) : Word :=
  if f32 a = .nan ∨ f32 b = .nan then nan32 else if leMinMax (f32 a) (f32 b) then b else a
def fcmplt (a b : Word) : Word := if ltFV (f32 a) (f32 b) then one32 else 0#32
def fcmpeq (a b : Word) : Word := if eqFV (f32 a) (f32 b) then one32 else 0#32

/-- R121: the fixed tree over lanes; the lower lanes stand on the left. -/
def treeLevel (op : Word → Word → Word) : List Word → List Word
  | a :: b :: t => op a b :: treeLevel op t
  | t => t
def treeFold (op : Word → Word → Word) : Nat → List Word → Word
  | 0, l => l.headD 0#32
  | n + 1, l => treeFold op n (treeLevel op l)
/-- The tree over 64 lanes. -/
def tree64 (op : Word → Word → Word) (l : List Word) : Word := treeFold op 6 l

/-- 1/x, exactly enough to round once: a quotient of 2^(l+80) with a sticky bit (R122). -/
def rcpFV : FV → FV
  | .nan => .nan
  | .inf a => .fin a 0 0
  | .fin a m e =>
    if m = 0 then .inf a
    else
      let k := Nat.log2 m + 80
      let q := 2 ^ k / m
      .fin a (2 * q + (if 2 ^ k % m = 0 then 0 else 1)) (-e - k - 1)

/-- The integer square root, bit by bit from bit `n - 1` down. -/
def isqrtBits (x : Nat) : Nat → Nat → Nat
  | 0, r => r
  | n + 1, r => if (r + 2 ^ n) * (r + 2 ^ n) ≤ x then isqrtBits x n (r + 2 ^ n) else isqrtBits x n r

/-- 1/√x, exactly enough to round once (R122): with an even exponent, the root of 2^(2k)/m with a sticky bit. -/
def rsqFV : FV → FV
  | .nan => .nan
  | .inf a => if a then .nan else .fin false 0 0
  | .fin a m e =>
    if m = 0 then .inf a
    else if a then .nan
    else
      let (m', e') := if e % 2 = 0 then (m, e) else (2 * m, e - 1)
      let k := Nat.log2 m' + 80
      let t := 2 ^ (2 * k) / m'
      let q := isqrtBits t (k + 1) 0
      let exact := q * q * m' = 2 ^ (2 * k)
      .fin false (2 * q + (if exact then 0 else 1)) (-(e' / 2) - k - 1)

/-- The Taylor sum of e^y in fixed point with `p` fraction bits: terms from `n` down, y in units of 2^-p. -/
def expTaylor (p : Nat) (y : Int) : Nat → Int → Int
  | 0, acc => acc
  | n + 1, acc => expTaylor p y n ((2 : Int) ^ p + (y * acc) / ((n + 1) * (2 : Int) ^ p))

/-- `n` squarings in fixed point with `p` fraction bits. -/
def sqTimes (p : Nat) : Nat → Int → Int
  | 0, x => x
  | n + 1, x => sqTimes p n (x * x / (2 : Int) ^ p)

/-- e^x (R122, log 12): x is divided by 2^10, summed by Taylor in 640 fraction bits and squared ten times. The
error lies below 2^-400 of the result, and e^x of a nonzero FP32 value is never within that of a rounding boundary. -/
def expFV : FV → FV
  | .nan => .nan
  | .inf a => if a then .fin false 0 0 else .inf false
  | .fin a m e =>
    if m = 0 then .fin false 1 0
    else if (7 : Int) < (Nat.log2 m : Int) + e then (if a then .fin false 1 (-400) else .inf false)
    else if (Nat.log2 m : Int) + e < -60 then
      .fin false ((2 ^ 70 : Nat) + (if a then 0 else 2) - 1) (-70)
    else
      let p := 640
      let y : Int := signedUnits a m e (-200) * 2 ^ (p - 200) / 2 ^ 10
      let s := sqTimes p 10 (expTaylor p y 90 ((2 : Int) ^ p))
      .fin false s.toNat (-(p : Int))

/-- R122: the row engine's functions, correctly rounded to nearest-even. -/
def frcp (a : Word) : Word := toF32 (rcpFV (f32 a))
def frsq (a : Word) : Word := toF32 (rsqFV (f32 a))
def fexp (a : Word) : Word := toF32 (expFV (f32 a))

/-- An exact value rounded to an integer and saturated to `lo`, ..., `hi` (R115; NaN gives 0). -/
def toIntSat (r : Rnd) (lo hi : Int) : FV → Int
  | .nan => 0
  | .inf a => if a then lo else hi
  | .fin a m e =>
    let q : Int := roundUnits r m e 0
    max lo (min hi (if a then -q else q))

/-- R118: the random value h of an element. -/
def srHash (key : Dword) (row col : Word) : Word :=
  let x0 := key ^^^ ((row.zeroExtend 64 <<< 32) ||| col.zeroExtend 64)
  let x1 := (x0 ^^^ (x0 >>> 30)) * 0xBF58476D1CE4E5B9#64
  let x2 := (x1 ^^^ (x1 >>> 27)) * 0x94D049BB133111EB#64
  let x3 := x2 ^^^ (x2 >>> 31)
  (x3 >>> 32).truncate 32

/-- R232: CRC-32C, reflected, one byte. -/
def crc32cByte (c : Word) (b : Byte) : Word :=
  let step (x : Word) : Word := if x.getLsbD 0 then (x >>> 1) ^^^ 0x82F63B78#32 else x >>> 1
  let x := c ^^^ b.zeroExtend 32
  step (step (step (step (step (step (step (step x)))))))

def crc32c (bs : List Byte) : Word := bs.foldl crc32cByte 0xFFFFFFFF#32 ^^^ 0xFFFFFFFF#32

/-- R290: CRC-64 of a link flit, not reflected, initial value 0. -/
def crc64Byte (c : Dword) (b : Byte) : Dword :=
  let step (x : Dword) : Dword := if x.getLsbD 63 then (x <<< 1) ^^^ 0x42F0E1EBA9EA3693#64 else x <<< 1
  let x := c ^^^ (b.zeroExtend 64 <<< 56)
  step (step (step (step (step (step (step (step x)))))))

def crc64 (bs : List Byte) : Dword := bs.foldl crc64Byte 0#64

end Sys2Proof.Machine
end

