-- ==== Sys2Proof/Machine/Formats.lean ====
section
/-! DEFINITION. The formats of chapter 4: format codes (R101), element widths and values (R102 to R106), MX encoding
(R107), the accumulator cell (R108 to R112), conversions (R114 to R119), fret integers (R123 to R131) and rank-ordered
sums (R132). -/
namespace Sys2Proof.Machine

/-- R101: the element format of a format code, with its bits. -/
inductive Elem where
  | fl (f : FFmt)          -- a floating-point element alone
  | mx (f : FFmt)          -- a floating-point element of an MX block
  | mxint8
  | int (w : Nat)          -- two's complement of w bits
  | fi48
  | bad                    -- code 0xF
  deriving DecidableEq, Repr

/-- R101: the table of format codes. -/
def fmtOf : Nat → Elem
  | 0 => .fl fp32 | 1 => .fl bf16 | 2 => .fl fp16 | 3 => .fl e4m3 | 4 => .fl e5m2
  | 5 => .mx e4m3 | 6 => .mx e5m2 | 7 => .mx e2m3 | 8 => .mx e3m2 | 9 => .mx e2m1
  | 10 => .mxint8 | 11 => .int 8 | 12 => .int 4 | 13 => .int 32 | 14 => .fi48
  | _ => .bad

/-- Bits of one element. -/
def Elem.bitsOf : Elem → Nat
  | .fl f => f.width
  | .mx f => f.width
  | .mxint8 => 8
  | .int w => w
  | .fi48 => 48
  | .bad => 8

/-- Whether elements stand in MX blocks with a scale. -/
def Elem.isMx : Elem → Bool
  | .mx _ => true
  | .mxint8 => true
  | _ => false

/-- R101: the integer class; every other format is floating-point (MXINT8 among them). -/
def Elem.isInt : Elem → Bool
  | .int _ => true
  | _ => false

/-- R66: the half-beats one stroke takes at the read ports, plain: 1/σ in units of half a beat. -/
def Elem.halves (e : Elem) : Nat :=
  match e.bitsOf with
  | 4 => 1
  | 6 => 1
  | 8 => 2
  | 16 => 4
  | _ => 16

/-- R66, R67: the half-beats of a stroke of a RUN: the slower of the two formats, doubled in compensated mode. -/
def strokeHalves (a b : Elem) (comp : Bool) : Nat :=
  max a.halves b.halves * (if comp && !(a.isInt) then 2 else 1)

/-- R68: depth positions per slot. -/
def Elem.depth (e : Elem) : Nat := if e.bitsOf = 6 then 672 else 4096 / e.bitsOf

/-- R104: element `i` of packed bytes, each element `w` bits, from the low bits up. -/
def unpack (w : Nat) (rd : Nat → Byte) (i : Nat) : Nat :=
  let lo := w * i
  (ofBytes ((List.range ((lo % 8 + w + 7) / 8)).map (fun k => rd (lo / 8 + k)))) / 2 ^ (lo % 8) % 2 ^ w

/-- R104: the number that packed elements spell, element 0 lowest. -/
def packNat (w : Nat) : List Nat → Nat
  | [] => 0
  | x :: xs => x % 2 ^ w + 2 ^ w * packNat w xs

/-- The exact value of an integer. -/
def intFV (z : Int) : FV := .fin (z < 0) z.natAbs 0

/-- R105, R106: the exact value of an element code with its block scale code (127 where there is none). -/
def elemFV (e : Elem) (code scale : Nat) : FV :=
  match e with
  | .fl f => decodeF f code
  | .mx f => if scale = 255 then .nan else scaleFV ((scale : Int) - 127) (decodeF f code)
  | .mxint8 => if scale = 255 then .nan else scaleFV ((scale : Int) - 127 - 6) (intFV (signedOf 8 code))
  | .int w => intFV (signedOf w code)
  | _ => .nan

/-- R85: whether an element is zero. -/
def elemZero (e : Elem) (code scale : Nat) : Bool :=
  match e with
  | .fl f => code % 2 ^ (f.width - 1) = 0
  | .mx f => code % 2 ^ (f.width - 1) = 0 && scale ≠ 255
  | .mxint8 => code % 256 = 0 && scale ≠ 255
  | .int w => code % 2 ^ w = 0
  | _ => false

/-- A signed element value of an integer format. -/
def elemInt (e : Elem) (code : Nat) : Int :=
  match e with
  | .int w => signedOf w code
  | _ => 0

/-! The accumulator cell. -/

/-- R65: one cell of a bank: the value word and the compensation word. -/
structure Cell where
  v : Word
  c : BitVec 16
  deriving DecidableEq, Repr

/-- R111: the exponent of u(v), the unit in the last place of a finite v. -/
def ulpExp (v : Word) : Int :=
  match f32 v with
  | .fin _ m e => if m = 0 then -149 else gridExp fp32 m e
  | _ => -149

/-- R111: S = v + c × u(v) × 2^-15. -/
def Cell.value (x : Cell) : FV :=
  match f32 x.v with
  | .fin a m e =>
    if x.c = 0#16 then .fin a m e
    else addFV (.fin a m e) (scaleFV (ulpExp x.v - 15) (intFV (x.c.toInt)))
  | w => w

/-- R108, R111, R112: a cell from the exact sum T: v rounded once, and the compensation word of a compensated stroke. -/
def cellOf (comp : Bool) (t : FV) : Cell :=
  let v := toF32 t
  match f32 v, comp with
  | .fin a m e, true =>
    match addFV t (negFV (.fin a m e)) with
    | .fin b n f =>
      let q : Nat := roundUnits .rne n f (ulpExp v - 15)
      ⟨v, BitVec.ofInt 16 (if b then -(q : Int) else q)⟩
    | _ => ⟨v, 0#16⟩
  | _, _ => ⟨v, 0#16⟩

/-- R76, R84, R108 to R112: one product into one cell of a floating-point bank. `gated`: an operand is zero. -/
def strokeFloat (ovw comp gated : Bool) (p : FV) (old : Cell) : Cell :=
  if gated then (if ovw then ⟨0#32, 0#16⟩ else old)
  else if ovw then cellOf comp p
  else cellOf comp (addFV old.value p)

/-- R110: one product into one cell of an integer bank, modulo 2^32 (a gated product leaves it unchanged, R84). -/
def strokeInt (ovw gated : Bool) (p : Int) (old : Cell) : Cell :=
  if ovw then ⟨if gated then 0#32 else BitVec.ofInt 32 p, 0#16⟩
  else if gated then old
  else { old with v := old.v + BitVec.ofInt 32 p }

/-- R76, R84: a stroke's product into a cell, by class. -/
def strokeCell (ea eb : Elem) (ovw comp : Bool) (ca sa cb sb : Nat) (old : Cell) : Cell :=
  let gated := elemZero ea ca sa || elemZero eb cb sb
  if ea.isInt then strokeInt ovw gated (elemInt ea ca * elemInt eb cb) old
  else strokeFloat ovw comp gated (mulFV (elemFV ea ca sa) (elemFV eb cb sb)) old

/-! Conversions. -/

/-- Saturation of an integer to w bits (R115). -/
def satInt (w : Nat) (z : Int) : Int := max (-(2 ^ (w - 1) : Int)) (min (2 ^ (w - 1) - 1) z)

/-- The code of an integer in w bits. -/
def intCode (w : Nat) (z : Int) : Nat := (z % 2 ^ w).toNat

/-- R114, R115: one conversion of an exact value to an unscaled format. -/
def convTo (e : Elem) (r : Rnd) (v : FV) : Nat :=
  match e with
  | .fl f => encodeF f r false v
  | .int w => intCode w (toIntSat r (-(2 ^ (w - 1) : Int)) (2 ^ (w - 1) - 1) v)
  | _ => 0

/-- R107: emax of the element format. -/
def emaxOf : Elem → Int
  | .mx f => if f = e4m3 then 8 else if f = e5m2 then 15 else if f = e3m2 then 4 else 2
  | _ => 0

/-- floor(log2 |x|) of a finite non-zero value; a value of 0 is below every other. -/
def floorLog2 : FV → Option Int
  | .fin _ m e => if m = 0 then none else some ((Nat.log2 m : Int) + e)
  | _ => none

/-- Whether an exact value is a NaN or an infinity. -/
def FV.special : FV → Bool
  | .fin .. => false
  | _ => true

/-- R107: the scale code of an MX block. -/
def mxScale (e : Elem) (xs : List FV) : Nat :=
  if xs.any FV.special then 255
  else
    match (xs.filterMap floorLog2).foldl (fun (a : Option Int) x => some (match a with | none => x | some y => max x y)) none with
    | none => 0
    | some l => (max 0 (min 254 (l - emaxOf e + 127))).toNat

/-- R107: one element of a block at scale s, with saturation. -/
def mxElem (e : Elem) (s : Nat) (r : Rnd) (x : FV) : Nat :=
  if s = 255 then 0
  else
    let y := scaleFV (127 - (s : Int)) x
    match e with
    | .mx f => encodeF f r true y
    | _ => intCode 8 (toIntSat r (-128) 127 (scaleFV 6 y))

/-- R107: an MX block: its scale code and its element codes; each element has its own rounding. -/
def mxEncode (e : Elem) (xs : List (FV × Rnd)) : Nat × List Nat :=
  let s := mxScale e (xs.map Prod.fst)
  (s, xs.map (fun x => mxElem e s x.2 x.1))

/-- R117: a stochastic key register. -/
structure SK where
  key : Dword
  row0 : Word
  col0 : Word
  deriving DecidableEq, Repr

/-- R117, R118: the rounding of the element at (row0 + i, col0 + j); nearest-even without a key. -/
def skRnd (k : Option SK) (i j : Nat) : Rnd :=
  match k with
  | none => .rne
  | some k => .sr (srHash k.key (k.row0 + BitVec.ofNat 32 i) (k.col0 + BitVec.ofNat 32 j))

/-- R114: what a DRAIN writes for one cell. -/
def drainCell (fmt : Elem) (scale : Int) (r : Rnd) (x : Cell) : Nat :=
  match fmt with
  | .int 32 => x.v.toNat
  | .int w => intCode w (satInt w x.v.toInt)
  | e => convTo e r (scaleFV scale x.value)

/-- R78, R82: the value word a LOAD writes for one element. -/
def loadWord (fmt : Elem) (code : Nat) : Word :=
  match fmt with
  | .fl f => toF32 (decodeF f code)
  | _ => BitVec.ofNat 32 code

/-! Fret integers. -/

/-- R123: an FI48 block: elements, agreed exponent code, headroom, flags. -/
structure Fret where
  m : List Int          -- 256 integers
  x : Nat
  h : Nat
  nonfin : Bool         -- FLAGS[0]
  deriving DecidableEq, Repr

/-- R124. -/
def Fret.bad (b : Fret) : Bool := b.x = 255 || b.nonfin

/-- R125: the local exponent code of a contributor's block. -/
def localCode (xs : List FV) : Nat :=
  if xs.any FV.special then 255
  else (xs.filterMap floorLog2).foldl (fun (a : Nat) l => max a ((max (-126) (l + 1)) + 126).toNat) 0

/-- ⌈log2 n⌉ (R126). -/
def clog2 (n : Nat) : Nat := if n ≤ 1 then 0 else Nat.log2 (n - 1) + 1

/-- R126, R128: one quantized element, x × 2^(46 − H − A) rounded. -/
def quantize (agreed h : Nat) (r : Rnd) (x : FV) : Int :=
  match x with
  | .fin a m e =>
    let q : Int := roundUnits r m (e + (46 - (h : Int) - ((agreed : Int) - 126))) 0
    if a then -q else q
  | _ => 0

/-- R124: the exact value of element k of a block; R129: a NaN in a non-finite block. -/
def Fret.elem (b : Fret) (k : Nat) : FV :=
  if b.bad then .nan else scaleFV ((b.x : Int) - 126 - 46 + b.h) (intFV (b.m.getD k 0))

/-- R131: the 48-bit wrap of a sum. -/
def wrap48 (z : Int) : Int := signedOf 48 ((z % 2 ^ 48).toNat)

/-- R131: a memory-side adder applies a contribution. -/
def Fret.add (b : Fret) (ms : List Int) (nonfin : Bool) : Fret :=
  { b with m := (List.range 256).map (fun k => wrap48 (b.m.getD k 0 + ms.getD k 0)), nonfin := b.nonfin || nonfin }

/-- R123: the 1,600 bytes of a block. -/
def Fret.bytes (b : Fret) : List Byte :=
  ((List.range 256).map (fun k => toBytes 6 (intCode 48 (b.m.getD k 0)))).flatten
    ++ [BitVec.ofNat 8 b.x, BitVec.ofNat 8 b.h, if b.nonfin then 1#8 else 0#8] ++ List.replicate 61 0#8

/-- R123: a block read from its bytes. -/
def fretOf (rd : Nat → Byte) : Fret :=
  { m := (List.range 256).map (fun k => signedOf 48 (ofBytes ((List.range 6).map (fun i => rd (6 * k + i)))))
    x := (rd 1536).toNat, h := (rd 1537).toNat, nonfin := (rd 1538).getLsbD 0 }

/-- R132: one rank-ordered add. -/
def rankAdd (s c : Word) : Word := fadd s c

end Sys2Proof.Machine
end

