-- ==== Sys2Proof/Machine/Table.lean ====
section
/-! DEFINITION. Sparse tables: what State keeps by number (addresses, registers, cores) is a list of key and value
pairs with strictly rising keys, the ONE canonical form. A key that is not listed holds nothing. -/
namespace Sys2Proof.Machine

/-- A sparse table from numbers. -/
abbrev Tbl (α : Type) := List (Nat × α)

/-- The entry of a key. -/
def Tbl.find {α : Type} : Tbl α → Nat → Option α
  | [], _ => none
  | (k, v) :: t, n => if k = n then some v else Tbl.find t n

/-- The entry of a key, or a default. -/
def Tbl.getD {α : Type} (t : Tbl α) (n : Nat) (d : α) : α := (t.find n).getD d

/-- Writes an entry, keeping the keys strictly rising. -/
def Tbl.set {α : Type} : Tbl α → Nat → α → Tbl α
  | [], n, x => [(n, x)]
  | (k, v) :: t, n, x =>
    if n < k then (n, x) :: (k, v) :: t
    else if n = k then (n, x) :: t
    else (k, v) :: Tbl.set t n x

/-- Removes an entry. -/
def Tbl.del {α : Type} : Tbl α → Nat → Tbl α
  | [], _ => []
  | (k, v) :: t, n => if k = n then t else (k, v) :: Tbl.del t n

/-- Removes the entries of the keys `lo`, ..., `hi - 1`. -/
def Tbl.delRange {α : Type} (t : Tbl α) (lo hi : Nat) : Tbl α :=
  t.filter (fun e => !(lo ≤ e.1 && e.1 < hi))

/-- Applies a function to one entry, or to a default where there is none. -/
def Tbl.upd {α : Type} (t : Tbl α) (n : Nat) (d : α) (f : α → α) : Tbl α := t.set n (f (t.getD n d))

/-- The table of `f lo`, ..., `f (lo + n - 1)`, with an entry wherever `f` gives one. -/
def Tbl.tab {α : Type} (f : Nat → Option α) : Nat → Nat → Tbl α
  | _, 0 => []
  | lo, n + 1 =>
    match f lo with
    | some v => (lo, v) :: Tbl.tab f (lo + 1) n
    | none => Tbl.tab f (lo + 1) n

/-- The canonical form: keys strictly rise. -/
abbrev Tbl.wf {α : Type} (t : Tbl α) : Prop := t.Pairwise (fun a b => a.1 < b.1)

/-- Writes a run of consecutive entries from `n` on. -/
def Tbl.setRun {α : Type} : Tbl α → Nat → List α → Tbl α
  | t, _, [] => t
  | t, n, x :: xs => Tbl.setRun (t.set n x) (n + 1) xs

/-- The first element of a list that meets a test, with its position. -/
def findIdxFrom {α : Type} (p : α → Bool) : Nat → List α → Option (Nat × α)
  | _, [] => none
  | i, x :: xs => if p x then some (i, x) else findIdxFrom p (i + 1) xs

/-- Replaces the element at a position. -/
def listSet {α : Type} : List α → Nat → α → List α
  | [], _, _ => []
  | _ :: xs, 0, y => y :: xs
  | x :: xs, n + 1, y => x :: listSet xs n y

/-- Applies a function at a position. -/
def listUpd {α : Type} : List α → Nat → (α → α) → List α
  | [], _, _ => []
  | x :: xs, 0, f => f x :: xs
  | x :: xs, n + 1, f => x :: listUpd xs n f

/-- Removes the element at a position. -/
def listDel {α : Type} : List α → Nat → List α
  | [], _ => []
  | _ :: xs, 0 => xs
  | x :: xs, n + 1 => x :: listDel xs n

/-- A list in pieces of `n`. -/
def chunksOf {α : Type} (n : Nat) : Nat → List α → List (List α)
  | 0, _ => []
  | fuel + 1, l => match l with
    | [] => []
    | _ => l.take n :: chunksOf n fuel (l.drop n)
def inChunks {α : Type} (n : Nat) (l : List α) : List (List α) := chunksOf n (l.length / n + 1) l

/-- A function applied `n` times. -/
def iterate {α : Type} (f : α → α) : Nat → α → α
  | 0, x => x
  | n + 1, x => iterate f n (f x)

/-- Removes the first element that meets a test. -/
def removeFirst {α : Type} (t : α → Bool) : List α → List α
  | [] => []
  | x :: xs => if t x then xs else x :: removeFirst t xs

end Sys2Proof.Machine
end

