-- ==== Sys2Proof/Machine/CoreState.lean ====
section
/-! DEFINITION. What one physical core holds (chapters 3, 5 and 6): sequencer, registers, pegs, bench, stat store,
fretboards, accumulator banks, array and fill queues, gather threads, caches, counters, power state. Plain data. -/
namespace Sys2Proof.Machine

/-- A byte memory. A byte that nothing has written reads as a free byte (log 7); ranges made unpredictable again
(R245, R479) stand in `wiped`, newest first, each with a seed of its own. Canonical: the keys of `cells` strictly rise. -/
structure Mem where
  cells : Tbl Byte
  seed : Nat
  wiped : List (Nat × Nat × Nat)
  deriving DecidableEq, Repr

/-- The IDs that work is counted under (R143): job, layer, operator. -/
structure Ids where
  job : Nat
  layer : Nat
  op : Nat
  deriving DecidableEq, Repr

/-- R154, R156: one active hardware loop: its body [start, stop) in parcels, its count and its iteration index. -/
structure LoopLevel where
  start : Nat
  stop : Nat
  count : Nat
  index : Nat
  deriving DecidableEq, Repr

/-- Where a control operation of the word sends the sequencer when the word closes (R154, R157). -/
inductive Turn where
  | loop (count len : Nat)
  | branch (offset : Int)
  deriving DecidableEq, Repr

/-- R172, R173: what the sequencer has trapped on. -/
inductive Trap where
  | none | fetchEcc | fetchBound | raise (code : Nat)
  deriving DecidableEq, Repr

/-- The sequencer (R134, R158, R165, R170, R173). `running`: a program has started and has not ended. -/
structure Seq where
  running : Bool
  ended : Bool               -- the END word has issued (R170)
  stopping : Bool            -- another core's trap or an abort: no further word (R170, R208)
  trap : Trap
  hold : Nat                 -- CORE_SEQ_STATUS.HOLD
  pc : Nat                   -- parcel offset
  image : Nat                -- package-local address of the image header
  length : Nat               -- LENGTH
  loops : List LoopLevel     -- innermost first
  turn : Option Turn
  mid : Bool                 -- slots of a word have issued, and the word is not closed
  prefetch : List Nat        -- lines a prefetch has asked for (R171)
  tag : Nat
  ids : Ids
  cmd : Nat                  -- the command's entry of the command table
  ring : Nat
  width : Nat                -- presented width of the program (R98, R99)
  startBeat : Nat
  startFtc : Nat
  tickFrom : Nat             -- FTC up to which counter 20 has the ticks that the program ran (R420)
  deriving DecidableEq, Repr

/-- R137: what a pending write writes; a V write names the lanes it writes. -/
inductive Dest where
  | s (n : Nat) (v : Dword)
  | v (n : Nat) (lo : Nat) (lanes : List Word)
  | sk (n : Nat) (k : SK)
  deriving DecidableEq, Repr

/-- R136, R137: a register write that has issued and lands at a later beat. -/
structure RegWrite where
  land : Nat
  issue : Nat
  slot : Nat
  dest : Dest
  deriving DecidableEq, Repr

/-- What closes a tab word (R141, R142): its size in parcels, its IDLE beats, whether it is the last word. -/
structure WordEnd where
  parcels : Nat
  idle : Nat
  fin : Bool
  deriving DecidableEq, Repr

/-- R82, R151: a RUN. -/
structure RunOp where
  bank : Nat
  ovw : Bool
  aSlot : Nat
  bSlot : Nat
  aTr : Bool
  bTr : Bool
  aStart : Nat
  bStart : Nat
  count : Nat
  aFmt : Nat
  bFmt : Nat
  comp : Bool
  mute : Nat
  peg : Option Nat
  deriving DecidableEq, Repr

/-- R82, R151: a LOAD or DRAIN as the word gives it; the key register is named where RND is 1. -/
structure MoveOp where
  bank : Nat
  cols : Bool
  fmt : Nat
  areg : Nat
  off : Nat
  rows : Nat
  stride : Nat
  scale : Int
  key : Option Nat
  peg : Option Nat
  deriving DecidableEq, Repr

/-- R82, R152: an FBFILL as the word gives it; `stride` in bytes. -/
structure FillArg where
  b : Bool                   -- F: fretboard B
  slot : Nat
  fmt : Nat
  areg : Nat
  peg : Option Nat
  stride : Nat
  start : Nat
  count : Nat
  deriving DecidableEq, Repr

/-- R153: a GTH operation as the word gives it. -/
structure GthArg where
  areg : Nat
  peg : Option Nat
  off : Nat
  deriving DecidableEq, Repr

/-- What stands in the array queue (R80). -/
inductive ArrWhat where
  | run (o : RunOp)
  | load (o : MoveOp) (addr : Nat)
  | drain (o : MoveOp) (addr : Nat) (key : Option SK)
  deriving DecidableEq, Repr

structure ArrOp where
  what : ArrWhat
  seq : Nat                  -- issue order (R138)
  width : Nat
  ids : Ids
  done : Nat                 -- RUN: the next stroke
  begun : Option Nat         -- LOAD, DRAIN: the array half-beat at which it began
  ctl : Option Nat           -- CORE_OPA_CTRL as it stood when the RUN reached the head (R92)
  deriving DecidableEq, Repr

/-- R88, R89: the outstanding speculation: the first stroke of the skipped block, whether the checkpoint is marked,
and the strokes issued since, which are counted only when it is verified (R421). -/
structure Spec where
  first : Nat
  marked : Bool
  since : Nat
  skipped : Nat              -- blocks skipped since, counted when it is verified
  deriving DecidableEq, Repr

/-- R69, R195: a fill in a fill queue: from the bench, or the stream of a gather thread. -/
structure FillOp where
  stream : Option Nat
  slot : Nat
  fmt : Nat
  addr : Nat
  stride : Nat
  start : Nat
  count : Nat
  peg : Option Nat
  seq : Nat
  done : Nat
  ids : Ids
  deriving DecidableEq, Repr

/-- R68, R86: one slot of a fretboard: data bytes at lane × 512 + byte, scale bytes at lane × 32 + block, the zero bits
z(p) that are set and the history bits H(b) that are set. -/
structure Slot where
  data : Mem
  scales : Mem
  zeros : List Nat
  hist : List Nat
  deriving DecidableEq, Repr

/-- R65, R77: a bank: rows of cells by logical column; a cell not listed holds a free value. `isInt`: its class. -/
structure Bank where
  rows : Tbl (Tbl Cell)
  seed : Nat
  isInt : Bool
  deriving DecidableEq, Repr

/-- R186: the operations of the gather unit. -/
inductive GthKind where
  | gather | stream | copy | prefetch
  deriving DecidableEq, Repr

/-- R192 to R197: a descriptor as the gather unit or an engine reads it. -/
structure GDesc where
  kind : GthKind
  src : Nat                  -- TABLE or SRC
  rowStride : Nat
  rowBytes : Nat
  index : Nat
  count : Nat                -- COUNT or ROWS
  limit : Nat
  dest : Nat                 -- DEST (bench offset) or DST
  destStride : Nat
  idxMem : Bool
  idx64 : Bool
  cache : Bool
  sent : Bool
  tgt : Nat
  b : Bool
  slot : Nat
  fmt : Nat
  start : Nat
  deriving DecidableEq, Repr

/-- Where a delivered piece goes. -/
inductive PieceTo where
  | index                    -- the index of the row in progress
  | bench (off : Nat)
  | memory (addr : Nat)
  | row (k off : Nat)        -- a stream's reorder buffer: position k, byte of the row
  | install                  -- data cache or bench cache only
  deriving DecidableEq, Repr

/-- One 64-byte access, or part of one, of a thread: POS of R209 is `pos`. Its segment (R232) is the part of the row that lies in
one 256-byte block of the source: from `segAt` on, `segLen` bytes; for an index, all of the index. -/
structure Piece where
  src : Nat
  len : Nat
  dst : PieceTo
  pos : Nat
  segAt : Nat
  segLen : Nat
  deriving DecidableEq, Repr

/-- R202: the resources of the tracker. -/
inductive Res where
  | bank (ddr : Bool) (n : Nat)
  | chan (ddr : Bool) (n : Nat)
  | tracker
  deriving DecidableEq, Repr

/-- R188: a COPY's write of a line, or of part of one: of the segment whose source begins at `segAt` (R232). `alloc`: DDR_ALLOC as it stood when
the tracker admitted it (R42). -/
structure PutLine where
  pos : Nat
  src : Nat                  -- the source address of its first byte
  segAt : Nat
  addr : Nat
  data : List Byte
  last : Bool                -- the last one of its segment
  alloc : Option Bool
  deriving DecidableEq, Repr

/-- One hardware thread (R186 to R198). -/
structure Thread where
  d : GDesc
  desc : Nat
  peg : Option Nat
  ids : Ids
  k : Nat                    -- row (or line) in progress
  off : Nat                  -- next byte of the row
  idx : Option Nat           -- the index of row k, once read
  out : Nat                  -- pieces requested and not yet delivered
  parked : Option (Nat × Res)
  retry : Option Bool        -- a refused request, retried first; true: a write
  buf : Tbl (List (Nat × Byte))
  written : Nat              -- stream positions written
  seg : List (Piece × List Byte)        -- pieces that have arrived and whose segment is not yet whole and verified (R232)
  toWrite : List PutLine     -- a COPY's writes still to be asked for
  puts : List PutLine        -- writes of the segment of the first of them that wait for the rest of it: it is committed whole (R232)
  deriving DecidableEq, Repr

/-- R188: a line request outstanding; the data once the line has been read (R205), or an uncorrectable error. `writer`: the
thread of a write request, which the bench cache has accepted. `ids`: those of the operation that made the request (R422). -/
structure LineReq where
  line : Nat
  data : Option (Option (List Byte))
  waiters : List (Nat × Piece)
  writer : Option Nat
  ids : Ids
  deriving DecidableEq, Repr

/-- R57 to R60: the power state of a core; times are FTC ticks. -/
inductive Pwr where
  | awake
  | wakeQueued
  | gateQueued
  | ungating (since : Nat)
  | ramp
  | gated
  deriving DecidableEq, Repr

/-- R169: a program in a start queue. -/
structure StartEntry where
  cmd : Nat
  upd : Bool                 -- an UPDATE (R245)
  ring : Nat
  rank : Nat
  cores : Nat
  image : Nat
  arg0 : Dword
  arg1 : Dword
  iflush : Bool
  tag : Nat
  ids : Ids
  width : Nat
  deriving DecidableEq, Repr

/-- R209: CORE_GTH_FAULT, its POS and ADDR. -/
structure GthFault where
  valid : Bool
  cause : Nat
  more : Bool
  thread : Nat
  desc : Nat
  pos : Nat
  addr : Nat
  deriving DecidableEq, Repr

/-- One physical core. -/
structure Core where
  seed : Nat                 -- the seed of what nothing has written (log 7)
  seq : Seq
  beat : Nat                 -- R135
  half : Nat                 -- the array's time in half-beats
  s : Tbl Dword
  v : Tbl (List Word)
  pend : List RegWrite
  pegs : Tbl Nat
  pegSat : Option Nat        -- SAT, with FIRST
  sk : Tbl SK
  bench : Mem
  benchUE : List Nat         -- 8-byte words that decode as uncorrectable (R177)
  stat : Mem
  statUE : List Nat
  fretA : Tbl Slot
  fretB : Tbl Slot
  bank0 : Bank
  bank1 : Bank
  ckpt : Option Bank
  queue : List ArrOp
  spec : Option Spec
  last0 : Option Nat         -- half-beat of the last stroke into bank 0 (R79)
  last1 : Option Nat
  opaActive : Nat            -- half-beat of the last active beat or end of the last ramp (R60)
  skips : Nat
  mispred : Nat
  fillA : List FillOp
  fillB : List FillOp
  iseq : Nat
  kerf : Nat                 -- the runtime kerf map in use (R97)
  threads : Tbl Thread
  lastThread : Nat
  streak : Nat
  lastHit : Bool
  reqs : List LineReq
  gfault : GthFault
  aborted : Bool             -- a GTH operation of the command has aborted (R208)
  dcache : Tbl (List Byte)
  dhits : Nat
  dmisses : Nat
  icache : Tbl (List Byte)
  startq : List StartEntry
  psigs : Nat                -- PSIGs issued and not yet applied at their target (R146)
  pwr : Pwr
  windowBeats : Nat          -- beats completed in this 1 µs window (R53)
  upd : Option (Nat × Nat)   -- CORE_UPD_STATUS.ACTIVE: the UPDATE that runs, and the FTC at which it started (R245)
  cnt : Tbl Nat              -- R423
  cids : Ids                 -- the IDs of the work counted last
  ue : Bool                  -- an uncorrectable error of the core's memories was read (CORE_UE) and is not yet handled
  deriving DecidableEq, Repr

def Ids.zero : Ids := ⟨0, 0, 0⟩
/-- R422: no IDs: work that counts in set 0 only, a LAYER beyond 16 bits that no filter takes in. -/
def Ids.absent : Ids := ⟨0, 2 ^ 16, 0⟩
def Seq.init : Seq :=
  { running := false, ended := false, stopping := false, trap := .none, hold := 0, pc := 0, image := 0, length := 0,
    loops := [], turn := none, mid := false, prefetch := [], tag := 0, ids := .zero, cmd := 0, ring := 0, width := 128,
    startBeat := 0, startFtc := 0, tickFrom := 0 }
def Mem.empty (seed : Nat) : Mem := ⟨[], seed, []⟩
def GthFault.none : GthFault := ⟨false, 0, false, 0, 0, 0, 0⟩

/-- The state of a core after a reset (R71, R86, R117, R134, R173, R181): pegs, keys, zero bits and queues 0, memories
unwritten. The general registers are 0 before any program (log 6); the core is awake and its OPA idle (R60, log 6). -/
def Core.init (seed : Nat) : Core :=
  { seed := seed, seq := .init, beat := 0, half := 0, s := [], v := [], pend := [], pegs := [], pegSat := none, sk := [],
    bench := .empty (8 * seed), benchUE := [], stat := .empty (8 * seed + 1), statUE := [], fretA := [], fretB := [],
    bank0 := ⟨[], 8 * seed + 6, false⟩, bank1 := ⟨[], 8 * seed + 7, false⟩, ckpt := none, queue := [], spec := none,
    last0 := none, last1 := none, opaActive := 0, skips := 0, mispred := 0, fillA := [], fillB := [], iseq := 0,
    kerf := 0, threads := [], lastThread := 15, streak := 0, lastHit := false, reqs := [], gfault := .none,
    aborted := false, dcache := [], dhits := 0, dmisses := 0, icache := [], startq := [], psigs := 0, pwr := .awake,
    windowBeats := 0, upd := none, cnt := [], cids := .zero, ue := false }

end Sys2Proof.Machine
end

