-- ==== Sys2Proof/Machine/Ops.lean ====
section
/-! DEFINITION. The named operations over memories and over a core's registers, pegs, beats and counters. Every meaning
goes through these. -/
namespace Sys2Proof.Machine

/-! Byte memories. -/

/-- What an unlisted address reads as: a free byte of the newest unpredictable range that holds it (log 7). -/
def Mem.unwritten (m : Mem) (a : Nat) : Byte :=
  match m.wiped.find? (fun r => r.1 ≤ a && a < r.2.1) with
  | some r => Config.freeByte r.2.2 a
  | none => Config.freeByte m.seed a

/-- One byte. -/
def Mem.read (m : Mem) (a : Nat) : Byte :=
  match m.cells.find a with
  | some b => b
  | none => m.unwritten a

/-- `n` bytes from `a` on. -/
def Mem.readN (m : Mem) (a : Nat) : Nat → List Byte
  | 0 => []
  | n + 1 => m.read a :: Mem.readN m (a + 1) n

/-- Writes consecutive bytes from `a` on. -/
def Mem.write (m : Mem) (a : Nat) (bs : List Byte) : Mem := { m with cells := m.cells.setRun a bs }

/-- Makes [lo, hi) unpredictable again, under a seed of its own. -/
def Mem.scramble (m : Mem) (lo hi seed : Nat) : Mem :=
  { m with cells := m.cells.delRange lo hi, wiped := (lo, hi, seed) :: m.wiped }

/-- A little-endian field of `n` bytes (R9). -/
def Mem.field (m : Mem) (a n : Nat) : Nat := ofBytes (m.readN a n)

/-! Registers of a core. -/

/-- R134: S0 reads 0. -/
def Core.rdS (c : Core) (n : Nat) : Dword := if n = 0 then 0#64 else c.s.getD n 0#64

/-- A V register: 64 lanes, 0 where nothing was written since the program started (R134). -/
def Core.rdV (c : Core) (n : Nat) : List Word := c.v.getD n (List.replicate 64 0#32)

def Core.lane (c : Core) (n l : Nat) : Word := (c.rdV n).getD l 0#32

def Core.rdSK (c : Core) (n : Nat) : SK := c.sk.getD n ⟨0#64, 0#32, 0#32⟩

/-- R137: the order in which pending writes take effect: landing beat, then issue beat, then slot. -/
def RegWrite.before (a b : RegWrite) : Bool :=
  a.land < b.land || (a.land = b.land && (a.issue < b.issue || (a.issue = b.issue && a.slot ≤ b.slot)))

/-- Places a pending write in that order. -/
def insertWrite (w : RegWrite) : List RegWrite → List RegWrite
  | [] => [w]
  | x :: xs => if x.before w then x :: insertWrite w xs else w :: x :: xs

/-- R136: an operation of the given slot issues now and its result lands `lat` beats later. -/
def Core.schedule (c : Core) (slot lat : Nat) (d : Dest) : Core :=
  { c with pend := insertWrite ⟨c.beat + lat, c.beat, slot, d⟩ c.pend }

/-- Lanes `lo`, `lo + 1`, ... of a register replaced. -/
def setLanes (old : List Word) : Nat → List Word → List Word
  | _, [] => old
  | lo, x :: xs => setLanes (listSet old lo x) (lo + 1) xs

/-- A pending write takes effect (R134: writes of S0 are discarded). -/
def Core.land (c : Core) (d : Dest) : Core :=
  match d with
  | .s n v => if n = 0 then c else { c with s := c.s.set n v }
  | .v n lo lanes => { c with v := c.v.set n (setLanes (c.rdV n) lo lanes) }
  | .sk n k => { c with sk := c.sk.set n k }

/-- The writes due by beat `b` take effect, in order. -/
def Core.landDue (b : Nat) : List RegWrite → Core → Core
  | [], c => { c with pend := [] }
  | w :: ws, c => if w.land ≤ b then Core.landDue b ws (c.land w.dest) else { c with pend := w :: ws }

/-- R420, R423: adds to a counter of the core. -/
def Core.count (c : Core) (i n : Nat) : Core := { c with cnt := c.cnt.upd i 0 (fun x => (x + n) % 2 ^ 64) }

/-- R135: `n` beats pass. -/
def Core.advance (c : Core) (n : Nat) : Core :=
  let c := { c with beat := c.beat + n, half := c.half + 2 * n, windowBeats := c.windowBeats + n, cids := c.seq.ids }
  (Core.landDue c.beat c.pend c).count 19 n

/-! Pegs (R159, R160). -/

/-- The value after an increment, which saturates. -/
def pegSum (v n : Nat) : Nat := min (v + n) 0xFFFFFFFF

def Core.peg (c : Core) (q : Nat) : Nat := c.pegs.getD q 0

/-- R160: an increment; one that saturates sets SAT, and FIRST where SAT was clear. -/
def Core.addPeg (c : Core) (q n : Nat) : Core :=
  { c with pegs := c.pegs.set q (pegSum (c.peg q) n)
           pegSat := if 0xFFFFFFFF < c.peg q + n then (match c.pegSat with | some f => some f | none => some q) else c.pegSat }

def Core.setPeg (c : Core) (q v : Nat) : Core := { c with pegs := c.pegs.set q (v % 2 ^ 32) }

/-- R81, R198: the peg an operation names, at its retirement. -/
def Core.signal (c : Core) (p : Option Nat) : Core :=
  match p with
  | some q => c.addPeg q 1
  | none => c

/-! Bench and stat store, with their ECC (R177). -/

/-- Whether [a, a + n) holds a word that decodes as uncorrectable. -/
def ueIn (l : List Nat) (a n : Nat) : Bool := l.any (fun w => w * 8 < a + n && a < w * 8 + 8)

/-- The words that stay uncorrectable after a write of [a, a + n). -/
def ueClear (l : List Nat) (a n : Nat) : List Nat := l.filter (fun w => !(w * 8 < a + n && a < w * 8 + 8))

def Core.benchRd (c : Core) (a n : Nat) : List Byte := c.bench.readN a n
def Core.benchBad (c : Core) (a n : Nat) : Bool := ueIn c.benchUE a n

/-- R177: a read of an uncorrectable bench word raises CORE_UE on the owning core, whichever agent read it. -/
def Core.noteUE (c : Core) (bad : Bool) : Core := if bad then { c with ue := true } else c

def Core.benchWr (c : Core) (a : Nat) (bs : List Byte) : Core :=
  { c with bench := c.bench.write a bs, benchUE := ueClear c.benchUE a bs.length }

/-! Sequencing. -/

/-- R155: bodies that end at `p` take their loop-back or their exit, innermost first. A body that does not end on a word boundary
(a program error) is run past, its level staying active (log 42). -/
def loopBack : List LoopLevel → Nat → List LoopLevel × Nat
  | [], p => ([], p)
  | l :: ls, p =>
    if l.stop = p then
      if l.index + 1 < l.count then ({ l with index := l.index + 1 } :: ls, l.start) else loopBack ls p
    else (l :: ls, p)

/-- R154 to R157: the loop stack and the parcel of the next word, after a word of `n` parcels at `pc`. A branch target below parcel 0
(a program error) is taken as parcel 0 (log 42). -/
def nextPc (loops : List LoopLevel) (pc n : Nat) : Option Turn → List LoopLevel × Nat
  | none => loopBack loops (pc + n)
  | some (.branch off) =>
    let t := ((pc : Int) + off).toNat
    (loops.filter (fun l => l.start ≤ t && t < l.stop), t)
  | some (.loop count len) =>
    if len = 0 then loopBack loops (pc + n)
    else if count = 0 then loopBack loops (pc + n + len)
    else (⟨pc + n, pc + n + len, count, 0⟩ :: loops, pc + n)

/-- R135: the beats a word takes: its own, its IDLE beats (ignored with END), one more for a taken branch. -/
def wordBeats (w : WordEnd) (t : Option Turn) : Nat :=
  1 + (if w.fin then 0 else w.idle) + (match t with | some (.branch _) => 1 | _ => 0)

/-- R171: the 64-byte lines of a range. -/
def linesOf (a n : Nat) : List Nat := (List.range ((a % 64 + n + 63) / 64)).map (fun k => (a / 64 + k) * 64)

/-- R171: the lines that a prefetch has asked for, with those of the body of a LOOP word of `n` parcels. -/
def Seq.wantBody (s : Seq) (n : Nat) : List Nat :=
  match s.turn with
  | some (.loop _ len) => s.prefetch ++ (linesOf (s.image + 64 + 4 * (s.pc + n)) (4 * len)).filter (fun l => !s.prefetch.contains l)
  | _ => s.prefetch

/-- The word has issued in full: its beats pass, and the sequencer stands at the next word or has ended (R158). -/
def Core.closeWord (c : Core) (w : WordEnd) : Core :=
  let (ls, p) := nextPc c.seq.loops c.seq.pc w.parcels c.seq.turn
  let sq := if w.fin then { c.seq with ended := true, mid := false, turn := none }
    else if c.seq.trap = .none then { c.seq with loops := ls, pc := p, mid := false, turn := none, prefetch := c.seq.wantBody w.parcels }
    else { c.seq with mid := false, turn := none }
  ({ c with seq := sq }).advance (wordBeats w c.seq.turn)

/-- The end of a slot's issue: the last slot of a word closes it. -/
def Core.fin (c : Core) : Option WordEnd → Core
  | none => { c with seq := { c.seq with mid := true } }
  | some w => c.closeWord w

/-- Whether words may issue (R60, R170, R172). -/
def Core.issuing (c : Core) : Bool := c.seq.running && c.seq.trap = .none && !c.seq.ended && c.pwr = .awake

/-- R173: the hold causes, by bit of HOLD. -/
def holdBit : Nat → Nat := fun i => 2 ^ i
def Core.hold (c : Core) (i : Nat) : Core := { c with seq := { c.seq with hold := c.seq.hold ||| holdBit i } }
def Core.unhold (c : Core) : Core := { c with seq := { c.seq with hold := 0 } }

/-- Takes the next issue number (R138). -/
def Core.take (c : Core) : Core × Nat := ({ c with iseq := c.iseq + 1 }, c.iseq)

/-! Fretboards and banks. -/

def Slot.empty (seed k : Nat) : Slot := ⟨.empty (8 * seed + 2 + k), .empty (8 * seed + 4), [], []⟩

/-- A slot of fretboard A (`b` false) or B. -/
def Core.slot (c : Core) (b : Bool) (i : Nat) : Slot :=
  (if b then c.fretB else c.fretA).getD i (.empty (c.seed * 4 + (if b then 2 else 0) + i) 0)
def Core.setSlot (c : Core) (b : Bool) (i : Nat) (x : Slot) : Core :=
  if b then { c with fretB := c.fretB.set i x } else { c with fretA := c.fretA.set i x }

def Core.bank (c : Core) (n : Nat) : Bank := if n = 0 then c.bank0 else c.bank1
def Core.setBank (c : Core) (n : Nat) (b : Bank) : Core := if n = 0 then { c with bank0 := b } else { c with bank1 := b }
def Core.last (c : Core) (n : Nat) : Option Nat := if n = 0 then c.last0 else c.last1
def Core.setLast (c : Core) (n t : Nat) : Core := if n = 0 then { c with last0 := some t } else { c with last1 := some t }

/-- A cell: what an unlisted one holds is free (log 7). -/
def Bank.cell (b : Bank) (i j : Nat) : Cell :=
  match (b.rows.getD i []).find j with
  | some x => x
  | none => ⟨Config.freeWord b.seed (i * 128 + j), (Config.freeWord b.seed (2 ^ 20 + i * 128 + j)).truncate 16⟩

def Bank.set (b : Bank) (i j : Nat) (x : Cell) : Bank := { b with rows := b.rows.upd i [] (fun r => r.set j x) }

/-- The fill queue of a fretboard. -/
def Core.fills (c : Core) (b : Bool) : List FillOp := if b then c.fillB else c.fillA
def Core.setFills (c : Core) (b : Bool) (l : List FillOp) : Core :=
  if b then { c with fillB := l } else { c with fillA := l }

/-! The IDs and counts of a program's work. -/

/-- Work counted under the IDs in force at its issue (R422). -/
def Core.countAs (c : Core) (ids : Ids) (i n : Nat) : Core := ({ c with cids := ids }).count i n

/-- R420: ticks that the running program or UPDATE has run and that counter 20 does not yet hold. -/
def Core.ran (c : Core) (now : Nat) : Nat :=
  if c.seq.running then now - c.seq.tickFrom else match c.upd with | some u => now - u.2 | none => 0

/-- R143, R422: new IDs come into force; the ticks run so far count under the old ones. -/
def Core.takeIds (c : Core) (ids : Ids) (now : Nat) : Core :=
  let c := c.countAs c.seq.ids 20 (c.ran now)
  { c with seq := { c.seq with ids := ids, tickFrom := now } }

end Sys2Proof.Machine
end

