-- ==== Sys2Proof/Machine/Operands.lean ====
section
/-! DEFINITION. The operand forms of the slots: the second operand of SCA (R147), addresses of LDS, ARR, FBF and GTH
(R148, R151 to R153), half registers of ROW (R150), rows of a tile (R78), element reads of a fretboard slot (R68, R72),
position rows of a fill (R179, R180). -/
namespace Sys2Proof.Machine

/-- R147: the second operand of an SCA operation: S[B], or IMM32 sign-extended. -/
inductive SOpnd where
  | reg (n : Nat)
  | imm (v : Word)
  deriving DecidableEq, Repr

def Core.opnd (c : Core) : SOpnd → Dword
  | .reg n => c.rdS n
  | .imm v => v.signExtend 64

/-- R148, R151 to R153: S[A] + OFF, a bench byte offset, as S registers add (R147, log 35). -/
def Core.benchAddr (c : Core) (a off : Nat) : Nat := ((c.rdS a).toNat + off) % 2 ^ 64

/-- R150: the 32 lanes of a half register. -/
def Core.half32 (c : Core) (n : Nat) (hi : Bool) : List Word := ((c.rdV n).drop (if hi then 32 else 0)).take 32

/-- A register's lanes as 256 little-endian bytes, and back (R148). -/
def lanesBytes (l : List Word) : List Byte := (l.map (fun w => toBytes 4 w.toNat)).flatten
def bytesLanes (rd : Nat → Byte) (n : Nat) : List Word :=
  (List.range n).map (fun i => BitVec.ofNat 32 (ofBytes ((List.range 4).map (fun k => rd (4 * i + k)))))

/-- Byte `k` of packed lanes (R149: packed from byte 0). -/
def laneByte (l : List Word) (k : Nat) : Byte := BitVec.ofNat 8 ((l.getD (k / 4) 0#32).toNat / 2 ^ (8 * (k % 4)))

/-- The 64 lanes that hold a number of 2,048 bits, byte 0 lowest. -/
def natLanes (x : Nat) : List Word := (List.range 64).map (fun i => BitVec.ofNat 32 (x / 2 ^ (32 * i)))

/-- R68, R104: the element code of a lane at a depth position of a slot. -/
def Slot.code (x : Slot) (e : Elem) (lane p : Nat) : Nat := unpack e.bitsOf (fun k => x.data.read (lane * 512 + k)) p

/-- R68, R105: the block scale of a lane at a depth position; 127, which stands for 1, in a format without scales. -/
def Slot.scale (x : Slot) (e : Elem) (lane p : Nat) : Nat :=
  if e.isMx then (x.scales.read (lane * 32 + p / 32)).toNat else 127

/-- R72: the element code and scale that stroke `s` of a run delivers at index `i` of its side. -/
def Slot.deliver (x : Slot) (e : Elem) (tr : Bool) (start s i : Nat) : Nat × Nat :=
  let (lane, p) := if tr then (s % 128, 128 * (start + s / 128) + i) else (i, start + s)
  (x.code e lane p, x.scale e lane p)

/-- R86: the zero bit of a position. -/
def Slot.z (x : Slot) (p : Nat) : Bool := x.zeros.contains p

/-- R86: Z(b), the AND of the zero bits of an aligned block of 8 positions. -/
def Slot.zBlock (x : Slot) (b : Nat) : Bool := (List.range 8).all (fun k => x.z (8 * b + k))

/-- R179: bytes of a position row. -/
def rowSize (e : Elem) : Nat := 16 * e.bitsOf

/-- A number's low bits replaced at bit position `lo`, `w` bits. -/
def putBits (old lo w new : Nat) : Nat := old - old / 2 ^ lo % 2 ^ w * 2 ^ lo + new % 2 ^ w * 2 ^ lo

/-- R68, R104: writes one element of one lane. -/
def putElem (m : Mem) (e : Elem) (lane p code : Nat) : Mem :=
  let w := e.bitsOf
  let lo := w * p
  let n := (lo % 8 + w + 7) / 8
  let a := lane * 512 + lo / 8
  m.write a (toBytes n (putBits (m.field a n) (lo % 8) w code))

/-- The elements of a position row go to the 128 lanes at position `p`. -/
def putRow (m : Mem) (e : Elem) (p : Nat) (rd : Nat → Byte) : Nat → Mem
  | 0 => m
  | n + 1 => putElem (putRow m e p rd n) e n p (unpack e.bitsOf rd n)

/-- R86: a position's zero bit is recorded. -/
def Slot.setZ (x : Slot) (p : Nat) (z : Bool) : Slot :=
  { x with zeros := if z then (if x.zeros.contains p then x.zeros else p :: x.zeros) else x.zeros.filter (fun q => !(q = p)) }

/-- R86: H(b) takes the value of Z(b). -/
def Slot.setH (x : Slot) (b : Nat) : Slot :=
  { x with hist := if x.zBlock b then (if x.hist.contains b then x.hist else b :: x.hist)
                   else x.hist.filter (fun q => !(q = b)) }

/-- R69, R86: one position is written for all 128 lanes from its row; `last`: the fill writes no further position of
the position's aligned block. -/
def Slot.putPos (x : Slot) (e : Elem) (p : Nat) (rd : Nat → Byte) (last : Bool) : Slot :=
  let x := { x with data := putRow x.data e p rd 128 }
  let z := (List.range 128).all (fun l => elemZero e (x.code e l p) (x.scale e l p))
  let x := x.setZ p z
  if last then x.setH (p / 8) else x

/-- R180: the 128 scale bytes of a block. -/
def Slot.putScales (x : Slot) (blk : Nat) (rd : Nat → Byte) : Slot :=
  { x with scales := (List.range 128).foldl (fun m l => m.write (l * 32 + blk) [rd l]) x.scales }

end Sys2Proof.Machine
end

