-- ==== Sys2Proof/Machine/Array.lean ====
section
/-! DEFINITION. The outer-product array of one core (chapter 3): the array queue, strokes and their interlocks, mute
prediction, LOAD and DRAIN, fills, and the kerf map. -/
namespace Sys2Proof.Machine

/-! Program errors (R67, R73, R82, R98, R101, R144): the results are unpredictable, and the model stops (log 3). -/

def benchSize : Nat := 0x300000

/-- A side that is read in place stays within its slot (R72, R82). -/
def sideOk (e : Elem) (tr : Bool) (start count : Nat) : Bool := tr || start + count ≤ e.depth

/-- R67, R82, R101, R144: every field of a RUN is in its range, and the formats may be paired. -/
def RunOp.ok (o : RunOp) : Bool :=
  o.bank < 2 && o.aSlot < 2 && o.bSlot < 2 && o.aStart < 1024 && o.bStart < 1024 && o.count ≤ 1024 && o.mute < 3 && o.aFmt < 13 &&
  o.bFmt < 13 && ((fmtOf o.aFmt).isInt == (fmtOf o.bFmt).isInt) &&
  sideOk (fmtOf o.aFmt) o.aTr o.aStart o.count && sideOk (fmtOf o.bFmt) o.bTr o.bStart o.count && o.peg.all (· < 64)

/-- R73, R98: the transposed sides of a RUN keep the rule; where they break it the result is unpredictable (log 8). -/
def transOk (e : Elem) (tr : Bool) (start count : Nat) : Bool :=
  !tr || (count % 128 = 0 && 128 * start + count ≤ e.depth / 128 * 128)
def RunOp.keepsRule (o : RunOp) (width : Nat) : Bool :=
  transOk (fmtOf o.aFmt) o.aTr o.aStart o.count && transOk (fmtOf o.bFmt) o.bTr o.bStart o.count && !(o.bTr && width = 120)

/-- A bank whose every word is unpredictable. -/
def Bank.scramble (b : Bank) (seed : Nat) : Bank := { b with rows := [], seed := seed }

/-- R78, R98: elements that a LOAD or DRAIN moves per row (or column), and how many rows (or columns) it moves. -/
def MoveOp.span (o : MoveOp) (width : Nat) : Nat := if o.cols then 128 else width
def MoveOp.lines (o : MoveOp) (width : Nat) : Nat := if o.cols then min o.rows width else o.rows

def MoveOp.inBench (o : MoveOp) (addr width : Nat) : Bool :=
  addr + (o.lines width - 1) * o.stride + o.span width * ((fmtOf o.fmt).bitsOf / 8) ≤ benchSize

def MoveOp.rangeOk (o : MoveOp) : Bool :=
  o.bank < 2 && 1 ≤ o.rows && o.rows ≤ 128 && o.peg.all (· < 64) && o.key.all (· < 8)

def MoveOp.loadOk (o : MoveOp) (addr width : Nat) : Bool :=
  o.rangeOk && (o.fmt = 0 || o.fmt = 1 || o.fmt = 13) && o.inBench addr width

/-- R82: the DRAIN formats of each class of bank; SCALE is 0 for an integer bank. -/
def MoveOp.drainOk (o : MoveOp) (isInt : Bool) (addr width : Nat) : Bool :=
  o.rangeOk && o.inBench addr width &&
  (if isInt then (o.fmt = 13 || o.fmt = 11) && o.scale = 0 else o.fmt < 5 && -128 ≤ o.scale && o.scale ≤ 127)

/-- R82, R179, R180: an FBFILL within its ranges. -/
def FillArg.ok (o : FillArg) (addr : Nat) : Bool :=
  let e := fmtOf o.fmt
  o.slot < 2 && o.fmt < 13 && o.start + o.count ≤ e.depth && o.peg.all (· < 64) &&
  (o.count = 0 || (rowSize e ≤ o.stride &&
    (if e.isMx then o.start % 32 = 0 && o.count % 32 = 0 && addr + o.count * o.stride + o.count / 32 * 128 ≤ benchSize
     else addr + (o.count - 1) * o.stride + rowSize e ≤ benchSize)))

/-! Issue (R80, R69). -/

/-- R80: an array operation enters the queue, or holds its word while the queue is full. -/
def Core.enqueue (c : Core) (w : ArrWhat) : Core :=
  { c with queue := c.queue ++ [⟨w, c.iseq, c.seq.width, c.seq.ids, 0, none, none⟩], iseq := c.iseq + 1 }

/-- R69: an FBFILL enters its fill queue. -/
def Core.enqueueFill (c : Core) (b : Bool) (f : FillOp) : Core :=
  { (c.setFills b (c.fills b ++ [{ f with seq := c.iseq, ids := c.seq.ids }])) with iseq := c.iseq + 1 }

/-! Interlocks (R70, R87). -/

/-- The positions of a fill not yet written, [lo, hi). -/
def FillOp.left (f : FillOp) : Nat × Nat := (f.start + f.done, f.start + f.count)

/-- Whether a fill of the slot issued before the RUN still has a position of [lo, hi) to write. -/
def unwrittenIn (fs : List FillOp) (slot seq lo hi : Nat) : Bool :=
  fs.any (fun f => f.slot = slot && f.seq < seq && f.done < f.count && f.left.1 < hi && lo < f.left.2)

/-- R70: one side can deliver stroke `k`. -/
def Core.sideReady (c : Core) (b : Bool) (slot seq : Nat) (tr : Bool) (start k : Nat) : Bool :=
  if tr then !unwrittenIn (c.fills b) slot seq (128 * (start + k / 128)) (128 * (start + k / 128) + 128)
  else !unwrittenIn (c.fills b) slot seq (start + k) (start + k + 1)

/-- R87: one side of a stroke block is written. -/
def Core.sideWritten (c : Core) (b : Bool) (slot seq lo : Nat) : Bool := !unwrittenIn (c.fills b) slot seq lo (lo + 8)

/-- R86: a stroke block is mute. -/
def muteBlock (x y : Slot) (a b : Nat) : Bool := (List.range 8).all (fun t => x.z (a + t) || y.z (b + t))

/-- R87: predicted mute, on one side. -/
def sideMute (x : Slot) (written : Bool) (lo : Nat) : Bool := if written then x.zBlock (lo / 8) else x.hist.contains (lo / 8)

/-! Strokes (R65, R72, R74 to R76, R84). -/

/-- One row of a stroke: every logical column whose product is not gated, or every column under OVW. -/
def strokeRow (ea eb : Elem) (ovw comp : Bool) (ca sa : Nat) (bs : List (Nat × Nat × Nat)) (bank : Bank) (i : Nat) : Bank :=
  bs.foldl (fun bk x =>
    if !ovw && (elemZero ea ca sa || elemZero eb x.2.1 x.2.2) then bk
    else bk.set i x.1 (strokeCell ea eb ovw comp ca sa x.2.1 x.2.2 (bk.cell i x.1))) bank

/-- One stroke: the rank-one update of the whole tile. -/
def strokeBank (o : RunOp) (width : Nat) (x y : Slot) (k : Nat) (bank : Bank) : Bank :=
  let ea := fmtOf o.aFmt
  let eb := fmtOf o.bFmt
  let ovw := o.ovw && k = 0
  let bs := (List.range width).map (fun j => (j, y.deliver eb o.bTr o.bStart k j))
  let bk := if ovw then { bank with isInt := ea.isInt } else bank
  (List.range 128).foldl (fun bk i =>
    let a := x.deliver ea o.aTr o.aStart k i
    strokeRow ea eb ovw (o.comp && !ea.isInt) a.1 a.2 bs bk i) bk

/-- R420, R421: the counters of one stroke: its MACs under the format that sets σ, and those of compensated runs. -/
def Core.countStrokes (c : Core) (o : RunOp) (width : Nat) (ids : Ids) (n : Nat) : Core :=
  let ea := fmtOf o.aFmt
  let eb := fmtOf o.bFmt
  let i := if eb.halves > ea.halves then o.bFmt else o.aFmt
  let c := c.countAs ids i (128 * width * n)
  if o.comp && !ea.isInt then c.count 13 (128 * width * n) else c

/-- R60: the row-group ramp before a stroke of an OPA that has been idle for 4,096 beats. -/
def Core.rampBefore (c : Core) : Core := if 8192 ≤ c.half - c.opaActive then { c with half := c.half + 128 } else c

/-- Replaces the head of the array queue. -/
def Core.setHead (c : Core) (e : ArrOp) : Core := { c with queue := e :: c.queue.drop 1 }

/-- R74, R75, R88: stroke `k` of the head RUN issues, with a checkpoint mark where a speculation is unmarked. -/
def Core.issueStroke (c : Core) (e : ArrOp) (o : RunOp) : Core :=
  let c := c.rampBefore
  let bank := c.bank o.bank
  let c := match c.spec with
    | some sp => if sp.marked then c else { c with ckpt := some bank, spec := some { sp with marked := true } }
    | none => c
  let t := c.half + strokeHalves (fmtOf o.aFmt) (fmtOf o.bFmt) o.comp
  let sum := strokeBank o e.width (c.slot false o.aSlot) (c.slot true o.bSlot) e.done bank
  let next := if o.keepsRule e.width then sum
    else sum.scramble (2 ^ 48 + 2 * (2048 * (2 ^ 64 * c.seed + e.seq) + e.done) + o.bank)
  let c := (c.setBank o.bank next).setLast o.bank t
  let c := { (c.setHead { e with done := e.done + 1 }) with half := t, opaActive := t + 510 }
  match c.spec with
  | some sp => { c with spec := some { sp with since := sp.since + 1 } }
  | none => c.countStrokes o e.width e.ids 1

/-- R87, R92: the mute mode in force for the head RUN. -/
def muteMode (o : RunOp) (ctl : Nat) : Nat :=
  if o.aTr || o.bTr || o.aStart % 8 ≠ o.bStart % 8 || ctl % 2 = 0 then 0
  else if ctl / 2 % 2 = 0 then min o.mute 1 else o.mute

/-- R86, R87: stroke `k` begins a whole stroke block that the mute modes act on. -/
def blockStart (o : RunOp) (k : Nat) : Bool := (o.aStart + k) % 8 = 0 && k + 8 ≤ o.count && !(o.ovw && k = 0)

/-- R70, R87: the next stroke or stroke block of the head RUN: skipped, skipped speculatively, issued, or waiting. -/
def Core.strokeRun (c : Core) (e : ArrOp) (o : RunOp) (ctl : Nat) : Core :=
  let k := e.done
  let x := c.slot false o.aSlot
  let y := c.slot true o.bSlot
  let a := o.aStart + k
  let b := o.bStart + k
  let wa := c.sideWritten false o.aSlot e.seq a
  let wb := c.sideWritten true o.bSlot e.seq b
  let ready := c.sideReady false o.aSlot e.seq o.aTr o.aStart k && c.sideReady true o.bSlot e.seq o.bTr o.bStart k
  if o.count ≤ k then c
  else if 1 ≤ muteMode o ctl && blockStart o k then
    if wa && wb then
      if muteBlock x y a b then
        let c := c.setHead { e with done := k + 8 }
        match c.spec with
        | some sp => { c with spec := some { sp with skipped := sp.skipped + 1 } }
        | none => { c with skips := (c.skips + 1) % 2 ^ 32 }
      else c.issueStroke e o
    else if muteMode o ctl = 2 && c.spec = none && (sideMute x wa a || sideMute y wb b) then
      { (c.setHead { e with done := k + 8 }) with spec := some ⟨k, false, 0, 0⟩ }
    else c
  else if ready then c.issueStroke e o else c

/-- STROKE: the head of the array queue is a RUN with strokes left. `ctl`: CORE_OPA_CTRL now. -/
def Core.stroke (c : Core) (ctl : Nat) : Core :=
  match c.queue with
  | e :: _ =>
    match e.what with
    | .run o =>
      let k := e.ctl.getD ctl
      c.strokeRun { e with ctl := some k } o k
    | _ => c
  | [] => c

/-- R89: the outstanding speculation is verified once both sides of its block are written. -/
def Core.verify (c : Core) : Core :=
  match c.queue, c.spec with
  | e :: _, some sp =>
    match e.what with
    | .run o =>
      let a := o.aStart + sp.first
      let b := o.bStart + sp.first
      if c.sideWritten false o.aSlot e.seq a && c.sideWritten true o.bSlot e.seq b then
        if muteBlock (c.slot false o.aSlot) (c.slot true o.bSlot) a b then
          ({ c with spec := none, ckpt := none, skips := (c.skips + 1 + sp.skipped) % 2 ^ 32 }).countStrokes o e.width e.ids sp.since
        else
          let c := match c.ckpt with | some bk => c.setBank o.bank bk | none => c
          { (c.setHead { e with done := sp.first }) with
            spec := none, ckpt := none, mispred := (c.mispred + 1) % 2 ^ 32, half := c.half + 2, opaActive := c.half + 512 }
      else c
    | _ => c
  | _, _ => c

/-- The head of the array queue leaves it, with its peg (R81) and its count (R420). -/
def Core.popArr (c : Core) (e : ArrOp) (peg : Option Nat) : Core :=
  ({ c with queue := c.queue.drop 1 }).signal peg |>.countAs e.ids 14 1

/-- R76, R81, R90: a RUN retires when its last stroke has issued and no speculation is outstanding. -/
def Core.runRetire (c : Core) : Core :=
  match c.queue with
  | e :: _ =>
    match e.what with
    | .run o => if o.count ≤ e.done && c.spec = none then c.popArr e o.peg else c
    | _ => c
  | [] => c

/-- R79: the head LOAD or DRAIN begins with a beat, no earlier than beat t_last + 256 of its bank, where t_last is the beat in which the last
stroke issued. -/
def Core.moveBegin (c : Core) : Core :=
  match c.queue with
  | e :: _ =>
    let bank := match e.what with | .run o => o.bank | .load o _ => o.bank | .drain o _ _ => o.bank
    match e.what, e.begun with
    | .run _, _ => c
    | _, some _ => c
    | _, none =>
      let beat (h : Nat) : Nat := (h + 1) / 2 * 2
      let t := max (beat c.half) (match c.last bank with | some l => beat l + 510 | none => 0)
      { (c.setHead { e with begun := some t }) with half := t, opaActive := max c.opaActive (t + 256) }
  | [] => c

/-- R78: the cell that element `k` of row (or column) `r` of a LOAD or DRAIN names. -/
def MoveOp.cellAt (o : MoveOp) (r k : Nat) : Nat × Nat := if o.cols then (k, r) else (r, k)

/-- R78, R82: a LOAD's rows go into the bank, with compensation words 0; the bank takes the format's class (R77). -/
def loadBank (o : MoveOp) (addr width : Nat) (bench : Mem) (bank : Bank) : Bank :=
  let e := fmtOf o.fmt
  let sz := e.bitsOf / 8
  (List.range (o.lines width)).foldl (fun bk r =>
    (List.range (o.span width)).foldl (fun bk k =>
      let ij := o.cellAt r k
      bk.set ij.1 ij.2 ⟨loadWord e (bench.field (addr + r * o.stride + k * sz) sz), 0#16⟩) bk)
    { bank with isInt := e.isInt }

/-- R114, R117: a DRAIN's bytes go to the bench; the bank is unchanged. -/
def drainBench (o : MoveOp) (addr width : Nat) (key : Option SK) (bank : Bank) (bench : Mem) : Mem :=
  let e := fmtOf o.fmt
  let sz := e.bitsOf / 8
  (List.range (o.lines width)).foldl (fun m r =>
    (List.range (o.span width)).foldl (fun m k =>
      let ij := o.cellAt r k
      m.write (addr + r * o.stride + k * sz)
        (toBytes sz (drainCell e o.scale (skRnd key ij.1 ij.2) (bank.cell ij.1 ij.2)))) m) bench

/-- Whether a LOAD's source meets an uncorrectable word (R177). -/
def Core.moveBad (c : Core) (o : MoveOp) (addr width : Nat) : Bool :=
  (List.range (o.lines width)).any (fun r => c.benchBad (addr + r * o.stride) (o.span width * ((fmtOf o.fmt).bitsOf / 8)))

/-- R78, R81: a LOAD retires in the last of its 128 beats, by which every row is in the bank. -/
def Core.loadRetire (c : Core) : Core :=
  match c.queue with
  | e :: _ =>
    match e.what, e.begun with
    | .load o addr, some t =>
      let c := (c.noteUE (c.moveBad o addr e.width)).setBank o.bank (loadBank o addr e.width c.bench (c.bank o.bank))
      { (c.popArr e o.peg) with half := max c.half (t + 256) }
    | _, _ => c
  | [] => c

/-- R78, R81: a DRAIN retires in the last of its 128 beats, by which every element is in the bench. -/
def Core.drainRetire (c : Core) : Core :=
  match c.queue with
  | e :: _ =>
    match e.what, e.begun with
    | .drain o addr key, some t =>
      let n := o.span e.width * ((fmtOf o.fmt).bitsOf / 8)
      let c := { c with bench := drainBench o addr e.width key (c.bank o.bank) c.bench
                        benchUE := (List.range (o.lines e.width)).foldl (fun l r => ueClear l (addr + r * o.stride) n) c.benchUE }
      { (c.popArr e o.peg) with half := max c.half (t + 256) }
    | _, _ => c
  | [] => c

/-! Fills (R69, R70, R86, R195). -/

/-- R70: an earlier RUN still reads the fill's slot. -/
def Core.fillBlocked (c : Core) (b : Bool) (f : FillOp) : Bool :=
  c.queue.any (fun e =>
    match e.what with
    | .run o => (if b then o.bSlot else o.aSlot) = f.slot && e.seq < f.seq && (e.done < o.count || c.spec ≠ none)
    | _ => false)

/-- The bytes of the next position row: from the bench, or from the reorder buffer of the stream's thread, once whole. -/
def Core.fillRow (c : Core) (f : FillOp) : Option (Nat → Byte) :=
  match f.stream with
  | none => some (fun k => c.bench.read (f.addr + f.done * f.stride + k))
  | some t =>
    match c.threads.find t with
    | some th =>
      match th.buf.find f.done with
      | some bs =>
        if bs.length = rowSize (fmtOf f.fmt) then
          some (fun k => match bs.find? (fun x => x.1 = k) with | some x => x.2 | none => 0#8)
        else none
      | none => none
    | none => none

/-- FILL_POSITION_WRITE: the head fill of a fretboard writes its next position, with the scales of its block. -/
def Core.fillPosition (c : Core) (b : Bool) : Core :=
  match c.fills b with
  | f :: fs =>
    if f.count ≤ f.done || c.fillBlocked b f then c
    else
      match c.fillRow f with
      | none => c
      | some rd =>
        let e := fmtOf f.fmt
        let p := f.start + f.done
        let q := f.done / 32
        let x := c.slot b f.slot
        let x := if e.isMx then x.putScales (p / 32) (fun l => c.bench.read (f.addr + f.count * f.stride + q * 128 + l)) else x
        let last := f.done + 1 = f.count || (p + 1) % 8 = 0
        let bad := f.stream = none && (c.benchBad (f.addr + f.done * f.stride) (rowSize e) ||
          (e.isMx && c.benchBad (f.addr + f.count * f.stride + q * 128) 128))
        let c := (c.noteUE bad).setSlot b f.slot (x.putPos e p rd last)
        let c := c.setFills b ({ f with done := f.done + 1 } :: fs)
        let c := match f.stream with
          | some t => { c with threads := match c.threads.find t with
              | some th => c.threads.set t { th with buf := th.buf.del f.done, written := th.written + 1 }
              | none => c.threads }
          | none => c
        c.countAs f.ids 15 1
  | [] => c

/-- R81, R152: the head fill retires when its last position is written (a stream's peg is that of its thread, R198). -/
def Core.fillRetire (c : Core) (b : Bool) : Core :=
  match c.fills b with
  | f :: fs => if f.count ≤ f.done then (c.setFills b fs).signal (if f.stream = none then f.peg else none) else c
  | [] => c

/-! The kerf map (R93, R97). -/

/-- R93: the physical groups that are not bypassed, in ascending order. -/
def groupsOf (mask : Nat) : List Nat := (List.range 17).filter (fun g => mask / 2 ^ g % 2 = 0)

/-- R93: the core cannot carry a logical core. -/
def kerfShort (mask q : Nat) : Bool := (groupsOf mask).length < q

/-- R97: the logical groups that a change of the mask moves. -/
def movedGroups (old new q : Nat) : List Nat :=
  (List.range q).filter (fun l => (groupsOf old)[l]? ≠ (groupsOf new)[l]?)

/-- Contents of the moved columns become unpredictable (R97). -/
def Bank.lose (b : Bank) (gs : List Nat) (seed : Nat) : Bank :=
  if gs.isEmpty then b
  else { b with seed := seed, rows := b.rows.map (fun r => (r.1, r.2.filter (fun x => !gs.contains (x.1 / 8)))) }

/-- KERF_COMMIT_APPLY: the committed runtime map takes effect once the array queue is empty and no wavefront is in
flight. `fuse`: CORE_KERF_FUSE.MASK; `rt`: the committed mask; `seed`: a fresh seed. -/
def Core.applyKerf (c : Core) (fuse rt q seed : Nat) : Core :=
  if c.queue.isEmpty then
    let gs := movedGroups (fuse ||| c.kerf) (fuse ||| rt) q
    { c with kerf := rt, bank0 := c.bank0.lose gs (8 * seed + 6), bank1 := c.bank1.lose gs (8 * seed + 7) }
  else c

end Sys2Proof.Machine
end

