-- ==== Sys2Proof/Machine/Sequencer.lean ====
section
/-! DEFINITION. The CTL slot on one core (R145, R146, R154, R157, R161, R172): waits, pegs, keys, loops, branches, RAISE. -/
namespace Sys2Proof.Machine

/-- R161: the word may issue. -/
def Core.pwaitOk (c : Core) (q n : Nat) : Bool := n ≤ c.peg q

/-- R161: in the beat the word issues, N is subtracted unless KEEP. -/
def Core.pwaitTake (c : Core) (q n : Nat) (keep : Bool) : Core :=
  if keep then c.unhold else (c.setPeg q (c.peg q - n)).unhold

/-- R146: condition `i` of QWAIT. A wavefront in flight is waited for by moving the array's time (log 2). -/
def Core.qcond (c : Core) : Nat → Bool
  | 0 => c.queue.isEmpty && c.spec = none
  | 1 => c.fillA.isEmpty
  | 2 => c.fillB.isEmpty
  | 3 => c.threads.isEmpty
  | 4 => c.psigs = 0
  | _ => true

/-- R146: every condition that QMASK selects holds. -/
def Core.qwaitOk (c : Core) (mask : Nat) : Bool := (List.range 5).all (fun i => mask / 2 ^ i % 2 = 0 || c.qcond i)

/-- R146: the wait for a wavefront in flight ends 256 beats after the last stroke. -/
def Core.settle (c : Core) : Core :=
  let l (x : Option Nat) : Nat := match x with | some t => t + 510 | none => 0
  { c with half := max c.half (max (l c.last0) (l c.last1)) }

def Core.qwaitTake (c : Core) (mask : Nat) : Core := if mask % 2 = 1 then c.settle.unhold else c.unhold

/-- R145: SK[KEY] from S[SA] and S[SB], seen by operations issued in the next beat. -/
def Core.skey (c : Core) (key sa sb : Nat) : Core :=
  c.schedule 0 1 (.sk key ⟨c.rdS sa, (c.rdS sb).truncate 32, ((c.rdS sb) >>> 32).truncate 32⟩)

/-- R145, R154: the count that LOOP latches. -/
inductive LoopSrc where
  | imm (n : Nat)
  | reg (n : Nat)
  deriving DecidableEq, Repr

def Core.loopCount (c : Core) : LoopSrc → Nat
  | .imm n => n
  | .reg n => (c.rdS n).toNat % 2 ^ 32

/-- R154: LOOP; its body is asked for as its word closes (R171). -/
def Core.loopOp (c : Core) (src : LoopSrc) (len : Nat) : Core :=
  { c with seq := { c.seq with turn := some (.loop (c.loopCount src) len) } }

/-- R155: a LOOP may be issued: fewer than four levels are active, or it starts none. -/
def Core.loopOk (c : Core) (src : LoopSrc) (len : Nat) : Bool :=
  c.seq.loops.length < 4 || len = 0 || c.loopCount src = 0

/-- R157: a branch, taken or not. -/
def Core.branchIf (c : Core) (taken : Bool) (off : Int) : Core :=
  if taken then { c with seq := { c.seq with turn := some (.branch off) } } else c

/-- R172: the trap of RAISE, which stops the core once the word has issued in full. -/
def Core.raise (c : Core) (code : Nat) : Core :=
  if c.seq.trap = .none then { c with seq := { c.seq with trap := .raise (code % 2 ^ 16) } } else c

end Sys2Proof.Machine
end

