-- ==== Sys2Proof/Machine/Regs.lean ====
section
/-! DEFINITION. The register tables of the spec: each register's block, offset, array shape and, word by word, the bits
of each access type (R10), the bits that reset from the configuration store, and the reset value (R11, R12, R32 to R36,
and the tables under "Registers" of every chapter). -/
namespace Sys2Proof.Machine

/-- R33, R35: the block whose base a register's offset counts from. -/
inductive Blk where
  | hs | ring | fab | ftc | mgt | cd | core | kerf | mem | obs | mtr
  deriving DecidableEq, Repr

/-- One 32-bit word of a register: masks by access type (bits of no mask are RO), and the reset value. -/
structure WordSpec where
  cl : Nat
  rw : Nat
  w1c : Nat
  wo : Nat
  store : Nat
  reset : Nat
  deriving DecidableEq, Repr

/-- A register, or an array of `count` registers `stride` bytes apart. -/
structure RegSpec where
  blk : Blk
  off : Nat
  stride : Nat
  count : Nat
  words : List WordSpec
  deriving DecidableEq, Repr

/-- A field within the word that holds it. -/
structure Fld where
  lo : Nat
  w : Nat
  deriving DecidableEq, Repr

/-- R33, R35: BAR0 bases. -/
def blkBase : Blk → Nat → Nat → Nat
  | .hs, _, _ => 0
  | .ring, _, _ => 0x100000
  | .fab, _, _ => 0x200000
  | .ftc, _, _ => 0x300000
  | .mgt, _, _ => 0x400000
  | .cd, n, _ => 0x800000 + 0x100000 * n
  | .core, n, p => 0x800000 + 0x100000 * n + 0x10000 + 0x1000 * p
  | .kerf, n, p => 0x800000 + 0x100000 * n + 0x2000 + 0x40 * p
  | .mem, n, m => 0x800000 + 0x100000 * n + 0x4000 + 0x1000 * m
  | .obs, _, _ => 0x1000000
  | .mtr, _, _ => 0x2000000

/-- The BAR0 offset of a register: die, unit (core or controller) and array index where it has them. -/
def RegSpec.at (r : RegSpec) (n p i : Nat) : Nat := blkBase r.blk n p + r.off + r.stride * i

/-- R36. -/
def rHS_IDENT : RegSpec := ⟨.hs, 0x0, 0, 1, [⟨0, 0, 0, 0, 0, 0x4F5A0000⟩]⟩
/-- R37. -/
def rHS_CD_PRESENT : RegSpec := ⟨.hs, 0x4, 0, 1, [⟨0, 0, 0, 0, 0, 0⟩]⟩
/-- R38. -/
def rCD_CORE_STATUS : RegSpec := ⟨.cd, 0x0, 0, 1, [⟨0, 0, 0, 0, 0xFFFF0000, 0⟩]⟩
/-- R38. -/
def rCD_MAP_GEN : RegSpec := ⟨.cd, 0x4, 0, 1, [⟨0, 0, 0, 0, 0, 0⟩]⟩
/-- R38. -/
def rCD_CORE_MAP : RegSpec := ⟨.cd, 0x100, 4, 64, [⟨0, 0, 0, 0, 0x7F, 0⟩]⟩
/-- R40. -/
def rHS_CLAMP : RegSpec := ⟨.hs, 0x200, 4, 16, [⟨0, 0, 0, 1, 0, 0⟩]⟩
/-- R64. -/
def rCD_GOV_CTRL : RegSpec := ⟨.cd, 0x1000, 0, 1, [⟨0xFFFF00, 0, 0, 0, 0, 0x103204⟩]⟩
/-- R64. -/
def rCD_GOV_STATUS : RegSpec := ⟨.cd, 0x1004, 0, 1, [⟨0, 0, 0, 0, 0, 0⟩]⟩
/-- R64. -/
def rCD_RATE_CEIL : RegSpec := ⟨.cd, 0x1008, 0, 1, [⟨0xFF, 0, 0, 0, 0xFF, 0xFF00FF⟩]⟩
/-- R64. -/
def rCD_VTRIM : RegSpec := ⟨.cd, 0x100C, 0, 1, [⟨7, 0, 0, 0, 7, 0⟩]⟩
/-- R64. -/
def rCD_VCTRL : RegSpec := ⟨.cd, 0x1010, 0, 1, [⟨0x103FF, 0, 0, 0, 0, 0x2EE⟩]⟩
/-- R64. -/
def rCD_VSTATUS : RegSpec := ⟨.cd, 0x1014, 0, 1, [⟨0, 0, 0, 0, 0, 0⟩]⟩
/-- R64. -/
def rCD_BEAT_RATE : RegSpec := ⟨.cd, 0x1018, 0, 1, [⟨0, 0, 0, 0, 0, 0⟩]⟩
/-- R64. -/
def rCD_DROOP : RegSpec := ⟨.cd, 0x101C, 0, 1, [⟨0, 0, 0xFFFFFFFF, 0, 0, 0⟩]⟩
/-- R92. -/
def rCORE_OPA_CTRL : RegSpec := ⟨.core, 0x200, 0, 1, [⟨3, 0, 0, 0, 0, 3⟩]⟩
/-- R92. -/
def rCORE_OPA_SKIPS : RegSpec := ⟨.core, 0x204, 0, 1, [⟨0, 0, 0, 0, 0, 0⟩]⟩
/-- R92. -/
def rCORE_OPA_MISPRED : RegSpec := ⟨.core, 0x208, 0, 1, [⟨0, 0, 0, 0, 0, 0⟩]⟩
/-- R92. -/
def rCORE_OPA_STATUS : RegSpec := ⟨.core, 0x20C, 0, 1, [⟨0, 0, 0, 0, 0, 0⟩]⟩
/-- R100. -/
def rCORE_KERF_FUSE : RegSpec := ⟨.kerf, 0x0, 0, 1, [⟨0, 0, 0, 0, 0, 0⟩]⟩
/-- R100. -/
def rCORE_KERF_RT : RegSpec := ⟨.kerf, 0x4, 0, 1, [⟨0x1FFFF, 0, 0, 0, 0x1FFFF, 0⟩]⟩
/-- R100. -/
def rCORE_KERF_STATUS : RegSpec := ⟨.kerf, 0x8, 0, 1, [⟨0, 0, 0, 0, 0, 0⟩]⟩
/-- R100. -/
def rCORE_KERF_FAIL : RegSpec := ⟨.kerf, 0xC, 0, 1, [⟨0, 0, 0, 0, 0x1FFFF, 0⟩]⟩
/-- R100. -/
def rCORE_KERF_POLICY : RegSpec := ⟨.cd, 0x3F00, 0, 1, [⟨1, 0, 0, 0, 0, 0⟩]⟩
/-- R173. -/
def rCORE_SEQ_STATUS : RegSpec := ⟨.core, 0x0, 0, 1, [⟨0, 0, 0, 0, 0, 0⟩]⟩
/-- R173. -/
def rCORE_SEQ_PC : RegSpec := ⟨.core, 0x4, 0, 1, [⟨0, 0, 0, 0, 0, 0⟩]⟩
/-- R173. -/
def rCORE_SEQ_TRAP : RegSpec := ⟨.core, 0x8, 0, 1, [⟨0, 0, 0, 0, 0, 0⟩]⟩
/-- R173. -/
def rCORE_SEQ_TAG : RegSpec := ⟨.core, 0xC, 0, 1, [⟨0, 0, 0, 0, 0, 0⟩]⟩
/-- R173. -/
def rCORE_PEG_STATUS : RegSpec := ⟨.core, 0x10, 0, 1, [⟨0, 0, 0x80000000, 0, 0, 0⟩]⟩
/-- R173. -/
def rCORE_PEG : RegSpec := ⟨.core, 0x100, 4, 64, [⟨0, 0xFFFFFFFF, 0, 0, 0, 0⟩]⟩
/-- R173. -/
def rCD_DPEG_STATUS : RegSpec := ⟨.cd, 0x9BFC, 0, 1, [⟨0, 0, 0x80000000, 0, 0, 0⟩]⟩
/-- R173. -/
def rCD_DPEG : RegSpec := ⟨.cd, 0x9C00, 4, 256, [⟨0, 0xFFFFFFFF, 0, 0, 0, 0⟩]⟩
/-- R211. -/
def rCD_BCACHE_CTRL : RegSpec := ⟨.cd, 0x9000, 0, 1, [⟨1, 0, 0, 0, 0, 1⟩]⟩
/-- R211. -/
def rCD_BCACHE_HITS : RegSpec := ⟨.cd, 0x9004, 0, 1, [⟨0, 0, 0, 0, 0, 0⟩]⟩
/-- R211. -/
def rCD_BCACHE_MISSES : RegSpec := ⟨.cd, 0x9008, 0, 1, [⟨0, 0, 0, 0, 0, 0⟩]⟩
/-- R211. -/
def rCD_BCACHE_ECC : RegSpec := ⟨.cd, 0x900C, 0, 1, [⟨0, 0, 0xFFFFFFFF, 0, 0, 0⟩]⟩
/-- R211. -/
def rCD_POOL_STATUS : RegSpec := ⟨.cd, 0x9100, 0, 1, [⟨0, 0, 0, 0, 0, 0⟩]⟩
/-- R211. -/
def rCD_TRK_QUOTA : RegSpec := ⟨.cd, 0x9200, 0, 1, [⟨0x7FF01FF, 0, 0, 0, 0, 0x4000100⟩]⟩
/-- R211. -/
def rCD_TRK_DDRQ : RegSpec := ⟨.cd, 0x9204, 0, 1, [⟨0x7FF007F, 0, 0, 0, 0, 0x4000040⟩]⟩
/-- R211. -/
def rCD_TRK_STATUS : RegSpec := ⟨.cd, 0x9208, 0, 1, [⟨0, 0, 0, 0, 0, 0⟩]⟩
/-- R211. -/
def rCD_TRK_REFUSALS : RegSpec := ⟨.cd, 0x920C, 0, 1, [⟨0, 0, 0, 0, 0, 0⟩]⟩
/-- R212. -/
def rCORE_GTH_STATUS : RegSpec := ⟨.core, 0x300, 0, 1, [⟨0, 0, 0, 0, 0, 0⟩]⟩
/-- R212. -/
def rCORE_GTH_OUT : RegSpec := ⟨.core, 0x304, 0, 1, [⟨0, 0, 0, 0, 0, 0⟩]⟩
/-- R212. -/
def rCORE_GTH_FAULT : RegSpec := ⟨.core, 0x308, 0, 1, [⟨0, 0, 0, 0, 0, 0⟩]⟩
/-- R212. -/
def rCORE_GTH_FAULT_POS : RegSpec := ⟨.core, 0x30C, 0, 1, [⟨0, 0, 0, 0, 0, 0⟩]⟩
/-- R212. -/
def rCORE_GTH_FAULT_ADDR : RegSpec := ⟨.core, 0x310, 0, 1, [⟨0, 0, 0, 0, 0, 0⟩, ⟨0, 0, 0, 0, 0, 0⟩]⟩
/-- R212. -/
def rCORE_DCACHE_HITS : RegSpec := ⟨.core, 0x318, 0, 1, [⟨0, 0, 0, 0, 0, 0⟩]⟩
/-- R212. -/
def rCORE_DCACHE_MISSES : RegSpec := ⟨.core, 0x31C, 0, 1, [⟨0, 0, 0, 0, 0, 0⟩]⟩
/-- R226. -/
def rMEM_STATUS : RegSpec := ⟨.mem, 0x0, 0, 1, [⟨0, 0, 0, 0, 0, 0⟩]⟩
/-- R226. -/
def rMEM_ECC_CORR : RegSpec := ⟨.mem, 0x4, 0, 1, [⟨0, 0, 0xFFFFFFFF, 0, 0, 0⟩]⟩
/-- R226. -/
def rMEM_ECC_UNCORR : RegSpec := ⟨.mem, 0x8, 0, 1, [⟨0, 0, 0xFFFFFFFF, 0, 0, 0⟩]⟩
/-- R226. -/
def rMEM_ERR_INFO : RegSpec := ⟨.mem, 0xC, 0, 1, [⟨0, 0, 0x80000000, 0, 0, 0⟩]⟩
/-- R226. -/
def rMEM_ERR_ADDR : RegSpec := ⟨.mem, 0x10, 0, 1, [⟨0, 0, 0, 0, 0, 0⟩, ⟨0, 0, 0, 0, 0, 0⟩]⟩
/-- R226. -/
def rMEM_ERR_TAG : RegSpec := ⟨.mem, 0x18, 0, 1, [⟨0, 0, 0, 0, 0, 0⟩]⟩
/-- R238. -/
def rMEM_SCRUB_STATUS : RegSpec := ⟨.cd, 0x8000, 0, 1, [⟨0, 0, 0, 0, 0, 0⟩]⟩
/-- R260. -/
def rCORE_UPD_STATUS : RegSpec := ⟨.core, 0x400, 0, 1, [⟨0, 0, 0, 0, 0, 0⟩]⟩
/-- R260. -/
def rCORE_UPD_FROZEN : RegSpec := ⟨.core, 0x404, 0, 1, [⟨0, 0, 0, 0, 0, 0⟩]⟩
/-- R260. -/
def rCORE_UPD_NONFIN : RegSpec := ⟨.core, 0x408, 0, 1, [⟨0, 0, 0, 0, 0, 0⟩]⟩
/-- R288. -/
def rHS_EPOCH : RegSpec := ⟨.hs, 0x300, 0, 1, [⟨0, 0, 0, 0, 0, 0⟩]⟩
/-- R288. -/
def rHS_GROUP_BASE : RegSpec := ⟨.hs, 0x308, 0, 1, [⟨0xFFFFFFFF, 0, 0, 0, 0, 0⟩, ⟨0xFFFF, 0, 0, 0, 0, 0⟩]⟩
/-- R288. -/
def rHS_EPOCH_FENCE : RegSpec := ⟨.hs, 0x310, 0, 1, [⟨0, 0, 0, 0, 0, 0⟩]⟩
/-- R289. -/
def rCD_COLL_STATUS : RegSpec := ⟨.cd, 0x9300, 0, 1, [⟨0, 0, 0, 0, 0, 0⟩]⟩
/-- R289. -/
def rCD_COLL_QUEUE : RegSpec := ⟨.cd, 0x9304, 0, 1, [⟨0, 0, 0, 0, 0, 0⟩]⟩
/-- R289. -/
def rCD_COLL_FAULT : RegSpec := ⟨.cd, 0x9308, 0, 1, [⟨0, 0, 0x80000000, 0, 0, 0⟩]⟩
/-- R289. -/
def rCD_COLL_FAULT_BLOCK : RegSpec := ⟨.cd, 0x930C, 0, 1, [⟨0, 0, 0, 0, 0, 0⟩]⟩
/-- R289. -/
def rCD_COLL_FAULT_TAG : RegSpec := ⟨.cd, 0x9310, 0, 1, [⟨0, 0, 0, 0, 0, 0⟩]⟩
/-- R289. -/
def rCD_COLL_NONFIN : RegSpec := ⟨.cd, 0x9314, 0, 1, [⟨0, 0, 0, 0, 0, 0⟩]⟩
/-- R332. -/
def rFAB_COORD : RegSpec := ⟨.fab, 0x0, 0, 1, [⟨0x1FFFC000, 0, 0, 0, 0x1FFFC000, 0⟩]⟩
/-- R332. -/
def rFAB_DIM : RegSpec := ⟨.fab, 0x4, 0, 1, [⟨0xFFFF, 0, 0, 0, 0xFFFF, 0⟩]⟩
/-- R332. -/
def rFAB_PORT_CTRL : RegSpec := ⟨.fab, 0x10, 4, 4, [⟨0xF1, 0, 0, 0x100, 0, 0⟩]⟩
/-- R332. -/
def rFAB_PORT_STATUS : RegSpec := ⟨.fab, 0x20, 4, 4, [⟨0, 0, 0x3FC000, 0, 0, 0⟩]⟩
/-- R332. -/
def rFAB_PORT_RETRY : RegSpec := ⟨.fab, 0x30, 4, 4, [⟨0, 0, 0xFFFFFFFF, 0, 0, 0⟩]⟩
/-- R332. -/
def rFAB_RT_SWITCH : RegSpec := ⟨.fab, 0x100, 0, 1, [⟨3, 0, 0, 0, 0, 0⟩]⟩
/-- R332. -/
def rFAB_RT_AT : RegSpec := ⟨.fab, 0x108, 0, 1, [⟨0xFFFFFFFF, 0, 0, 0, 0, 0⟩, ⟨0xFFFFFFFF, 0, 0, 0, 0, 0⟩]⟩
/-- R332. -/
def rFAB_RT_STATUS : RegSpec := ⟨.fab, 0x110, 0, 1, [⟨0, 0, 0xC0, 0, 3, 0⟩]⟩
/-- R332. -/
def rFAB_JOB : RegSpec := ⟨.fab, 0x200, 4, 16, [⟨0, 0x3FFFF, 0, 0, 0, 0⟩]⟩
/-- R332. -/
def rFAB_ABORT : RegSpec := ⟨.fab, 0x240, 0, 1, [⟨0, 0, 0, 0x1F, 0, 0⟩]⟩
/-- R332. -/
def rFAB_ABORT_LAST : RegSpec := ⟨.fab, 0x244, 0, 1, [⟨0, 0, 0, 0, 0, 0⟩]⟩
/-- R332. -/
def rFAB_DISCARD : RegSpec := ⟨.fab, 0x250, 0, 1, [⟨0, 0, 0xFFFFFFFF, 0, 0, 0⟩]⟩
/-- R332. -/
def rFAB_UNREACH : RegSpec := ⟨.fab, 0x254, 0, 1, [⟨0, 0, 0xFFFFFFFF, 0, 0, 0⟩]⟩
/-- R334. -/
def rFTC_NOW : RegSpec := ⟨.ftc, 0x0, 0, 1, [⟨0, 0, 0, 0, 0, 0⟩, ⟨0, 0, 0, 0, 0, 0⟩]⟩
/-- R334. -/
def rFTC_CTRL : RegSpec := ⟨.ftc, 0x8, 0, 1, [⟨1, 0, 0, 0, 1, 0⟩]⟩
/-- R334. -/
def rFTC_INIT : RegSpec := ⟨.ftc, 0x10, 0, 1, [⟨0xFFFFFFFF, 0, 0, 0, 0, 0⟩, ⟨0xFFFFFFFF, 0, 0, 0, 0, 0⟩]⟩
/-- R334. -/
def rFTC_STATUS : RegSpec := ⟨.ftc, 0x18, 0, 1, [⟨0, 0, 0, 0, 0, 0x3FF80000⟩]⟩
/-- R334. -/
def rFTC_UNLOCKS : RegSpec := ⟨.ftc, 0x1C, 0, 1, [⟨0, 0, 0xFFFFFFFF, 0, 0, 0⟩]⟩
/-- R334. -/
def rFTC_PORT_ASYM : RegSpec := ⟨.ftc, 0x20, 4, 4, [⟨0xFFFF, 0, 0, 0, 0xFFFF, 0⟩]⟩
/-- R355. -/
def rHS_LEDGER_BASE : RegSpec := ⟨.hs, 0x400, 0, 1, [⟨0xFFFFFFC0, 0, 0, 0, 0, 0⟩, ⟨0xFFFF, 0, 0, 0, 0, 0⟩]⟩
/-- R355. -/
def rHS_LEDGER_CTRL : RegSpec := ⟨.hs, 0x408, 0, 1, [⟨0x1F, 0, 0, 0, 0, 0⟩]⟩
/-- R355. -/
def rHS_LEDGER_HEAD : RegSpec := ⟨.hs, 0x40C, 0, 1, [⟨0, 0, 0, 0, 0, 0⟩]⟩
/-- R355. -/
def rHS_SUSPECT : RegSpec := ⟨.hs, 0x410, 0, 1, [⟨0xFFFFFFFF, 0, 0, 0, 0, 0xFFFF1015⟩]⟩
/-- R355. -/
def rHS_SLOW_STATUS : RegSpec := ⟨.hs, 0x414, 0, 1, [⟨0, 0, 0, 0, 0, 0⟩]⟩
/-- R383. -/
def rRING_CTX_BASE : RegSpec := ⟨.ring, 0x0, 0, 1, [⟨0xFFFFF000, 0, 0, 0, 0, 0⟩, ⟨0xFFFFFFFF, 0, 0, 0, 0, 0⟩]⟩
/-- R383. -/
def rRING_CQ_BASE : RegSpec := ⟨.ring, 0x8, 0, 1, [⟨0xFFFFF000, 0, 0, 0, 0, 0⟩, ⟨0xFFFFFFFF, 0, 0, 0, 0, 0⟩]⟩
/-- R383. -/
def rRING_CTX_LOAD : RegSpec := ⟨.ring, 0x10, 0, 1, [⟨0, 0, 0, 0xE0007FFF, 0, 0⟩]⟩
/-- R383. -/
def rRING_CTX_STATUS : RegSpec := ⟨.ring, 0x14, 0, 1, [⟨0, 0, 0, 0, 0, 0x80000000⟩]⟩
/-- R383. -/
def rRING_CTRL : RegSpec := ⟨.ring, 0x18, 0, 1, [⟨0, 1, 0, 0, 0, 2⟩]⟩
/-- R383. -/
def rRING_OUT : RegSpec := ⟨.ring, 0x1C, 0, 1, [⟨0, 0, 0, 0, 0, 0⟩]⟩
/-- R383. -/
def rRING_EVT_VEC : RegSpec := ⟨.ring, 0x20, 0, 1, [⟨0, 0x800007FF, 0, 0, 0, 0⟩]⟩
/-- R383. -/
def rRING_LINK : RegSpec := ⟨.ring, 0x24, 0, 1, [⟨0, 0, 0xFFFF0000, 0, 0, 0⟩]⟩
/-- R417. -/
def rHS_FAULT_POLICY : RegSpec := ⟨.hs, 0x500, 0, 1, [⟨0x1F, 0, 0, 0, 0x1F, 0x1F⟩]⟩
/-- R417. -/
def rHS_EVT_BASE : RegSpec := ⟨.hs, 0x508, 0, 1, [⟨0xFFFFFFC0, 0, 0, 0, 0xFFFFFFC0, 0⟩, ⟨0xFFFFFFFF, 0, 0, 0, 0xFFFFFFFF, 0⟩]⟩
/-- R417. -/
def rHS_EVT_CTRL : RegSpec := ⟨.hs, 0x510, 0, 1, [⟨0x1F, 0, 0, 0, 0x1F, 0⟩]⟩
/-- R417. -/
def rHS_EVT_HEAD : RegSpec := ⟨.hs, 0x514, 0, 1, [⟨0, 0, 0, 0, 0, 0⟩]⟩
/-- R417. -/
def rHS_DIAG_BASE : RegSpec := ⟨.hs, 0x518, 0, 1, [⟨0xFFFFF000, 0, 0, 0, 0xFFFFF000, 0⟩, ⟨0xFFFFFFFF, 0, 0, 0, 0xFFFFFFFF, 0⟩]⟩
/-- R417. -/
def rHS_DIAG_CTRL : RegSpec := ⟨.hs, 0x520, 0, 1, [⟨0x1F, 0, 0, 0, 0x1F, 0⟩]⟩
/-- R417. -/
def rHS_WDOG : RegSpec := ⟨.hs, 0x524, 0, 1, [⟨0xFFFFFF, 0, 0, 0, 0xFFFFFF, 0x2710⟩]⟩
/-- R417. -/
def rHS_SHAV_BASE : RegSpec := ⟨.hs, 0x528, 0, 1, [⟨0xFFFFF000, 0, 0, 0, 0xFFFFF000, 0⟩, ⟨0xFFFFFFFF, 0, 0, 0, 0xFFFFFFFF, 0⟩]⟩
/-- R417. -/
def rHS_SHAV_CTRL : RegSpec := ⟨.hs, 0x530, 0, 1, [⟨0xFFFFFFF1, 0, 0, 0, 1, 0x40100000⟩]⟩
/-- R417. -/
def rHS_RESET : RegSpec := ⟨.hs, 0x538, 0, 1, [⟨0, 0, 0, 0xFF, 0, 0⟩]⟩
/-- R417. -/
def rHS_RESET_STATUS : RegSpec := ⟨.hs, 0x53C, 0, 1, [⟨0, 0, 0, 0, 0, 0⟩]⟩
/-- R417. -/
def rHS_HEALTH : RegSpec := ⟨.hs, 0x540, 0, 1, [⟨0, 0, 0x80000000, 0, 0x80FF0000, 0⟩]⟩
/-- R418. -/
def rCD_KAT_CTRL : RegSpec := ⟨.cd, 0x200, 0, 1, [⟨0xFFFF0000, 0, 0, 0, 0xFFFF0000, 0x2F0000⟩]⟩
/-- R418. -/
def rCD_KAT_STATUS : RegSpec := ⟨.cd, 0x204, 0, 1, [⟨0, 0, 0, 0, 0, 0⟩]⟩
/-- R418. -/
def rCD_KAT_FAILS : RegSpec := ⟨.cd, 0x208, 0, 1, [⟨0, 0, 0xFFFFFFFF, 0, 0, 0⟩]⟩
/-- R436. -/
def rOBS_SMP_BASE : RegSpec := ⟨.obs, 0x0, 0, 1, [⟨0xFFFFFFC0, 0, 0, 0, 0, 0⟩, ⟨0xFFFFFFFF, 0, 0, 0, 0, 0⟩]⟩
/-- R436. -/
def rOBS_SMP_CTRL : RegSpec := ⟨.obs, 0x8, 0, 1, [⟨0xFFFFFFFF, 0, 0, 0, 0, 0⟩]⟩
/-- R436. -/
def rOBS_SMP_HEAD : RegSpec := ⟨.obs, 0xC, 0, 1, [⟨0, 0, 0, 0, 0, 0⟩]⟩
/-- R436. -/
def rOBS_SMP_TAIL : RegSpec := ⟨.obs, 0x10, 0, 1, [⟨0, 0xFFFFFFFF, 0, 0, 0, 0⟩]⟩
/-- R436. -/
def rOBS_SMP_STATUS : RegSpec := ⟨.obs, 0x14, 0, 1, [⟨0, 0, 0xFFFF0000, 0, 0, 0⟩]⟩
/-- R436. -/
def rOBS_SET : RegSpec := ⟨.obs, 0x20, 8, 3, [⟨0xFFFFFFFF, 0, 0, 0, 0, 0xFFFFFFFF⟩, ⟨0xFFFFFFFF, 0, 0, 0, 0, 0⟩]⟩
/-- R436. -/
def rOBS_TRC_BASE : RegSpec := ⟨.obs, 0x100, 0, 1, [⟨0xFFFFFFE0, 0, 0, 0, 0, 0⟩, ⟨0xFFFFFFFF, 0, 0, 0, 0, 0⟩]⟩
/-- R436. -/
def rOBS_TRC_CTRL : RegSpec := ⟨.obs, 0x108, 0, 1, [⟨0xDF00FFFF, 0, 0, 0, 0, 0⟩]⟩
/-- R436. -/
def rOBS_TRC_JOB : RegSpec := ⟨.obs, 0x10C, 0, 1, [⟨0xFFFF, 0, 0, 0, 0, 0⟩]⟩
/-- R436. -/
def rOBS_TRC_HEAD : RegSpec := ⟨.obs, 0x110, 0, 1, [⟨0, 0, 0, 0, 0, 0⟩]⟩
/-- R436. -/
def rOBS_TRC_TAIL : RegSpec := ⟨.obs, 0x114, 0, 1, [⟨0, 0xFFFFFFFF, 0, 0, 0, 0⟩]⟩
/-- R436. -/
def rOBS_TRC_STATUS : RegSpec := ⟨.obs, 0x118, 0, 1, [⟨0, 0, 0xFFFFFFFF, 0, 0, 0⟩]⟩
/-- R436. -/
def rOBS_DUMP_ARM : RegSpec := ⟨.obs, 0x200, 8, 16, [⟨0xFFFFFFFF, 0, 0, 0, 0, 0⟩, ⟨0xFFFFFFFF, 0, 0, 0, 0, 0⟩]⟩
/-- R436. -/
def rOBS_DUMP_STATUS : RegSpec := ⟨.obs, 0x280, 0, 1, [⟨0, 0, 0, 0, 0, 0⟩]⟩
/-- R436. -/
def rOBS_CNT : RegSpec := ⟨.obs, 0x10000, 0, 1, [⟨0, 0, 0, 0, 0, 0⟩, ⟨0, 0, 0, 0, 0, 0⟩]⟩
/-- R436. -/
def rOBS_LAST : RegSpec := ⟨.obs, 0x40000, 0, 1, [⟨0, 0, 0, 0, 0, 0⟩]⟩
/-- R469. -/
def rMGT_BOOT : RegSpec := ⟨.mgt, 0x0, 0, 1, [⟨0, 0, 0, 0, 0, 0⟩]⟩
/-- R469. -/
def rMGT_FW_VERSION : RegSpec := ⟨.mgt, 0x4, 0, 1, [⟨0, 0, 0, 0, 0, 0⟩]⟩
/-- R469. -/
def rMGT_IDENT_SERIAL : RegSpec := ⟨.mgt, 0x8, 0, 1, [⟨0, 0, 0, 0, 0, 0⟩, ⟨0, 0, 0, 0, 0, 0⟩]⟩
/-- R469. -/
def rMGT_NET_CTRL : RegSpec := ⟨.mgt, 0x10, 0, 1, [⟨0x8000FFFF, 0, 0, 0, 0x8000FFFF, 0x4F5A⟩]⟩
/-- R469. -/
def rMGT_NET_STATUS : RegSpec := ⟨.mgt, 0x14, 0, 1, [⟨0, 0, 0, 0, 0, 0⟩]⟩
/-- R469. -/
def rMGT_I3C_STATUS : RegSpec := ⟨.mgt, 0x18, 0, 1, [⟨0, 0, 0, 0, 0, 0⟩]⟩
/-- R469. -/
def rMGT_NET_ADDR : RegSpec := ⟨.mgt, 0x20, 0, 1, List.replicate 4 ⟨0xFFFFFFFF, 0, 0, 0, 0xFFFFFFFF, 0⟩⟩
/-- R469. -/
def rMGT_COLL : RegSpec := ⟨.mgt, 0x30, 16, 2, List.replicate 4 ⟨0xFFFFFFFF, 0, 0, 0, 0xFFFFFFFF, 0⟩⟩
/-- R469. -/
def rMGT_STORE_STATUS : RegSpec := ⟨.mgt, 0x60, 0, 1, [⟨0, 0, 0, 0, 0xBF800000, 0⟩]⟩
/-- R469. -/
def rMGT_STORE_GEN : RegSpec := ⟨.mgt, 0x64, 0, 1, [⟨0, 0, 0, 0, 0xFFFFFFFF, 0⟩]⟩
/-- R469. -/
def rMGT_JRNL_BASE : RegSpec := ⟨.mgt, 0x70, 0, 1, [⟨0xFFFFFFE0, 0, 0, 0, 0xFFFFFFE0, 0⟩, ⟨0xFFFFFFFF, 0, 0, 0, 0xFFFFFFFF, 0⟩]⟩
/-- R469. -/
def rMGT_JRNL_CTRL : RegSpec := ⟨.mgt, 0x78, 0, 1, [⟨0x1F, 0, 0, 0, 0x1F, 0⟩]⟩
/-- R469. -/
def rMGT_JRNL_HEAD : RegSpec := ⟨.mgt, 0x7C, 0, 1, [⟨0, 0, 0, 0, 0, 0⟩]⟩
/-- R470. -/
def rMTR_IDENT : RegSpec := ⟨.mtr, 0x0, 0, 1, [⟨0, 0, 0, 0, 0, 0x4D4C0100⟩]⟩
/-- R470. -/
def rMTR_STATUS : RegSpec := ⟨.mtr, 0x4, 0, 1, [⟨0, 0, 0, 0, 0, 0⟩]⟩
/-- R470. -/
def rMTR_SEQ : RegSpec := ⟨.mtr, 0x8, 0, 1, [⟨0, 0, 0, 0, 0, 0⟩, ⟨0, 0, 0, 0, 0, 0⟩]⟩
/-- R470. -/
def rMTR_MTIME : RegSpec := ⟨.mtr, 0x10, 0, 1, [⟨0, 0, 0, 0, 0, 0⟩, ⟨0, 0, 0, 0, 0, 0⟩]⟩
/-- R470. -/
def rMTR_BOOTS : RegSpec := ⟨.mtr, 0x18, 0, 1, [⟨0, 0, 0, 0, 0, 0⟩]⟩
/-- R484. -/
def rHS_STRAPS : RegSpec := ⟨.hs, 0x600, 0, 1, [⟨0, 0, 0, 0, 0, 0⟩]⟩
/-- R484. -/
def rHS_POWER_STATUS : RegSpec := ⟨.hs, 0x604, 0, 1, [⟨0, 0, 0x1F0000, 0, 0, 0⟩]⟩

def fHS_IDENT_PART : Fld := ⟨16, 16⟩
def fHS_IDENT_CD_COUNT : Fld := ⟨8, 8⟩
def fHS_IDENT_STEP_MAJOR : Fld := ⟨4, 4⟩
def fHS_IDENT_STEP_MINOR : Fld := ⟨0, 4⟩
def fHS_CD_PRESENT_CD_FAULTED : Fld := ⟨8, 8⟩
def fHS_CD_PRESENT_CD_PRESENT : Fld := ⟨0, 8⟩
def fCD_CORE_STATUS_SPARES : Fld := ⟨24, 8⟩
def fCD_CORE_STATUS_FENCED : Fld := ⟨16, 8⟩
def fCD_CORE_STATUS_FUSED : Fld := ⟨8, 8⟩
def fCD_CORE_STATUS_DIE : Fld := ⟨0, 3⟩
def fCD_MAP_GEN_GEN : Fld := ⟨0, 32⟩
def fCD_CORE_MAP_PHYS : Fld := ⟨0, 7⟩
def fHS_CLAMP_COUNT : Fld := ⟨16, 16⟩
def fHS_CLAMP_COMMIT : Fld := ⟨0, 1⟩
def fCD_GOV_CTRL_IDLE_GATE : Fld := ⟨16, 8⟩
def fCD_GOV_CTRL_SLEW : Fld := ⟨8, 8⟩
def fCD_GOV_CTRL_N : Fld := ⟨0, 3⟩
def fCD_GOV_STATUS_QUEUED : Fld := ⟨16, 8⟩
def fCD_GOV_STATUS_GATED : Fld := ⟨8, 8⟩
def fCD_RATE_CEIL_FW_CEIL : Fld := ⟨16, 8⟩
def fCD_RATE_CEIL_EFFECTIVE : Fld := ⟨8, 8⟩
def fCD_RATE_CEIL_CEIL : Fld := ⟨0, 8⟩
def fCD_VTRIM_TRIM : Fld := ⟨0, 3⟩
def fCD_VCTRL_MODE : Fld := ⟨16, 1⟩
def fCD_VCTRL_VFIXED : Fld := ⟨0, 10⟩
def fCD_VSTATUS_OVER_ALLOC : Fld := ⟨24, 8⟩
def fCD_VSTATUS_TJ : Fld := ⟨16, 8⟩
def fCD_VSTATUS_VNOW : Fld := ⟨0, 10⟩
def fCD_BEAT_RATE_MAX : Fld := ⟨16, 16⟩
def fCD_BEAT_RATE_MIN : Fld := ⟨0, 16⟩
def fCD_DROOP_COUNT : Fld := ⟨0, 32⟩
def fCORE_OPA_CTRL_SPEC_EN : Fld := ⟨1, 1⟩
def fCORE_OPA_CTRL_EXACT_EN : Fld := ⟨0, 1⟩
def fCORE_OPA_SKIPS_BLOCKS : Fld := ⟨0, 32⟩
def fCORE_OPA_MISPRED_COUNT : Fld := ⟨0, 32⟩
def fCORE_OPA_STATUS_BUSY : Fld := ⟨5, 1⟩
def fCORE_OPA_STATUS_SPEC : Fld := ⟨4, 1⟩
def fCORE_OPA_STATUS_QUEUED : Fld := ⟨0, 4⟩
def fCORE_KERF_FUSE_MASK : Fld := ⟨0, 17⟩
def fCORE_KERF_RT_MASK : Fld := ⟨0, 17⟩
def fCORE_KERF_STATUS_SHORT : Fld := ⟨22, 1⟩
def fCORE_KERF_STATUS_AVAILABLE : Fld := ⟨17, 5⟩
def fCORE_KERF_STATUS_BYPASS : Fld := ⟨0, 17⟩
def fCORE_KERF_FAIL_GROUPS : Fld := ⟨0, 17⟩
def fCORE_KERF_POLICY_WIDTH : Fld := ⟨0, 1⟩
def fCORE_SEQ_STATUS_STATE : Fld := ⟨30, 2⟩
def fCORE_SEQ_STATUS_HOLD : Fld := ⟨23, 7⟩
def fCORE_SEQ_STATUS_LOOPS : Fld := ⟨20, 3⟩
def fCORE_SEQ_STATUS_STARTQ : Fld := ⟨0, 3⟩
def fCORE_SEQ_PC_PC : Fld := ⟨0, 32⟩
def fCORE_SEQ_TRAP_CAUSE : Fld := ⟨28, 4⟩
def fCORE_SEQ_TRAP_CODE : Fld := ⟨0, 16⟩
def fCORE_SEQ_TAG_TAG : Fld := ⟨0, 32⟩
def fCORE_PEG_STATUS_SAT : Fld := ⟨31, 1⟩
def fCORE_PEG_STATUS_FIRST : Fld := ⟨0, 6⟩
def fCORE_PEG_VALUE : Fld := ⟨0, 32⟩
def fCD_DPEG_STATUS_SAT : Fld := ⟨31, 1⟩
def fCD_DPEG_STATUS_FIRST : Fld := ⟨0, 8⟩
def fCD_DPEG_VALUE : Fld := ⟨0, 32⟩
def fCD_BCACHE_CTRL_DDR_ALLOC : Fld := ⟨0, 1⟩
def fCD_BCACHE_HITS_COUNT : Fld := ⟨0, 32⟩
def fCD_BCACHE_MISSES_COUNT : Fld := ⟨0, 32⟩
def fCD_BCACHE_ECC_CORR : Fld := ⟨16, 16⟩
def fCD_BCACHE_ECC_POISON : Fld := ⟨0, 16⟩
def fCD_POOL_STATUS_QUEUED : Fld := ⟨16, 16⟩
def fCD_POOL_STATUS_PARKED : Fld := ⟨8, 8⟩
def fCD_POOL_STATUS_BUSY : Fld := ⟨0, 8⟩
def fCD_TRK_QUOTA_PC_Q : Fld := ⟨16, 11⟩
def fCD_TRK_QUOTA_BANK_Q : Fld := ⟨0, 9⟩
def fCD_TRK_DDRQ_CH_Q : Fld := ⟨16, 11⟩
def fCD_TRK_DDRQ_BANK_Q : Fld := ⟨0, 7⟩
def fCD_TRK_STATUS_WAITING : Fld := ⟨16, 16⟩
def fCD_TRK_STATUS_IN_USE : Fld := ⟨0, 15⟩
def fCD_TRK_REFUSALS_COUNT : Fld := ⟨0, 32⟩
def fCORE_GTH_STATUS_PARKED : Fld := ⟨16, 16⟩
def fCORE_GTH_STATUS_ACTIVE : Fld := ⟨0, 16⟩
def fCORE_GTH_OUT_MISSES : Fld := ⟨0, 9⟩
def fCORE_GTH_FAULT_VALID : Fld := ⟨31, 1⟩
def fCORE_GTH_FAULT_CAUSE : Fld := ⟨28, 3⟩
def fCORE_GTH_FAULT_MORE : Fld := ⟨27, 1⟩
def fCORE_GTH_FAULT_THREAD : Fld := ⟨16, 4⟩
def fCORE_GTH_FAULT_DESC : Fld := ⟨0, 16⟩
def fCORE_GTH_FAULT_POS_POS : Fld := ⟨0, 32⟩
def fCORE_DCACHE_HITS_COUNT : Fld := ⟨0, 32⟩
def fCORE_DCACHE_MISSES_COUNT : Fld := ⟨0, 32⟩
def fMEM_STATUS_PRESENT : Fld := ⟨31, 1⟩
def fMEM_STATUS_TRAINED : Fld := ⟨30, 1⟩
def fMEM_STATUS_DISABLED : Fld := ⟨29, 1⟩
def fMEM_STATUS_CAPACITY : Fld := ⟨0, 16⟩
def fMEM_ECC_CORR_COUNT : Fld := ⟨0, 32⟩
def fMEM_ECC_UNCORR_COUNT : Fld := ⟨0, 32⟩
def fMEM_ERR_INFO_VALID : Fld := ⟨31, 1⟩
def fMEM_ERR_INFO_MORE : Fld := ⟨30, 1⟩
def fMEM_ERR_INFO_SOURCE : Fld := ⟨27, 3⟩
def fMEM_ERR_TAG_TAG : Fld := ⟨0, 32⟩
def fMEM_SCRUB_STATUS_QUEUED : Fld := ⟨16, 16⟩
def fMEM_SCRUB_STATUS_PARKED : Fld := ⟨1, 1⟩
def fMEM_SCRUB_STATUS_BUSY : Fld := ⟨0, 1⟩
def fCORE_UPD_STATUS_ACTIVE : Fld := ⟨31, 1⟩
def fCORE_UPD_STATUS_PASS : Fld := ⟨29, 2⟩
def fCORE_UPD_STATUS_RULE : Fld := ⟨27, 2⟩
def fCORE_UPD_FROZEN_COUNT : Fld := ⟨0, 32⟩
def fCORE_UPD_NONFIN_COUNT : Fld := ⟨0, 32⟩
def fHS_EPOCH_PENDING : Fld := ⟨16, 16⟩
def fHS_EPOCH_CUR : Fld := ⟨0, 16⟩
def fHS_EPOCH_FENCE_OLDER : Fld := ⟨16, 16⟩
def fHS_EPOCH_FENCE_FENCES : Fld := ⟨0, 16⟩
def fCD_COLL_STATUS_PARKED : Fld := ⟨16, 16⟩
def fCD_COLL_STATUS_ACTIVE : Fld := ⟨0, 16⟩
def fCD_COLL_QUEUE_RECORDS : Fld := ⟨16, 13⟩
def fCD_COLL_QUEUE_QUEUED : Fld := ⟨0, 16⟩
def fCD_COLL_FAULT_VALID : Fld := ⟨31, 1⟩
def fCD_COLL_FAULT_CAUSE : Fld := ⟨28, 3⟩
def fCD_COLL_FAULT_MORE : Fld := ⟨27, 1⟩
def fCD_COLL_FAULT_STREAM : Fld := ⟨16, 4⟩
def fCD_COLL_FAULT_RANK : Fld := ⟨0, 16⟩
def fCD_COLL_FAULT_BLOCK_BLOCK : Fld := ⟨0, 32⟩
def fCD_COLL_FAULT_TAG_TAG : Fld := ⟨0, 32⟩
def fCD_COLL_NONFIN_COUNT : Fld := ⟨0, 32⟩
def fFAB_COORD_OVERRIDE : Fld := ⟨28, 1⟩
def fFAB_COORD_LY : Fld := ⟨21, 7⟩
def fFAB_COORD_LX : Fld := ⟨14, 7⟩
def fFAB_COORD_PY : Fld := ⟨7, 7⟩
def fFAB_COORD_PX : Fld := ⟨0, 7⟩
def fFAB_DIM_SY : Fld := ⟨8, 8⟩
def fFAB_DIM_SX : Fld := ⟨0, 8⟩
def fFAB_PORT_CTRL_RETRAIN : Fld := ⟨8, 1⟩
def fFAB_PORT_CTRL_GROUP_OFF : Fld := ⟨4, 4⟩
def fFAB_PORT_CTRL_DISABLE : Fld := ⟨0, 1⟩
def fFAB_PORT_STATUS_UP : Fld := ⟨28, 4⟩
def fFAB_PORT_STATUS_PRESENT : Fld := ⟨24, 4⟩
def fFAB_PORT_STATUS_NBR_OK : Fld := ⟨23, 1⟩
def fFAB_PORT_STATUS_HELD : Fld := ⟨22, 1⟩
def fFAB_PORT_STATUS_DOWNS : Fld := ⟨14, 8⟩
def fFAB_PORT_STATUS_NBR : Fld := ⟨0, 14⟩
def fFAB_PORT_RETRY_COUNT : Fld := ⟨0, 32⟩
def fFAB_RT_SWITCH_NEXT : Fld := ⟨0, 2⟩
def fFAB_RT_STATUS_SWITCHES : Fld := ⟨16, 16⟩
def fFAB_RT_STATUS_WR_DISCARD : Fld := ⟨7, 1⟩
def fFAB_RT_STATUS_LATE : Fld := ⟨6, 1⟩
def fFAB_RT_STATUS_PEND : Fld := ⟨5, 1⟩
def fFAB_RT_STATUS_PENDING : Fld := ⟨2, 2⟩
def fFAB_RT_STATUS_CUR : Fld := ⟨0, 2⟩
def fFAB_JOB_STATE : Fld := ⟨16, 2⟩
def fFAB_JOB_JOB : Fld := ⟨0, 16⟩
def fFAB_ABORT_GO : Fld := ⟨4, 1⟩
def fFAB_ABORT_ENTRY : Fld := ⟨0, 4⟩
def fFAB_ABORT_LAST_ORIGIN : Fld := ⟨16, 14⟩
def fFAB_ABORT_LAST_JOB : Fld := ⟨0, 16⟩
def fFAB_DISCARD_COUNT : Fld := ⟨0, 32⟩
def fFAB_UNREACH_COUNT : Fld := ⟨0, 32⟩
def fFTC_CTRL_GM : Fld := ⟨0, 1⟩
def fFTC_STATUS_STATE : Fld := ⟨30, 2⟩
def fFTC_STATUS_PARENT : Fld := ⟨27, 3⟩
def fFTC_STATUS_DEPTH : Fld := ⟨19, 8⟩
def fFTC_STATUS_OFFSET : Fld := ⟨0, 16⟩
def fFTC_UNLOCKS_COUNT : Fld := ⟨0, 32⟩
def fFTC_PORT_ASYM_ASYM : Fld := ⟨0, 16⟩
def fHS_LEDGER_CTRL_SIZE_LOG2 : Fld := ⟨0, 5⟩
def fHS_LEDGER_HEAD_INDEX : Fld := ⟨0, 32⟩
def fHS_SUSPECT_PHASES : Fld := ⟨16, 16⟩
def fHS_SUSPECT_STEPS : Fld := ⟨8, 8⟩
def fHS_SUSPECT_MARGIN : Fld := ⟨1, 7⟩
def fHS_SUSPECT_ACTION : Fld := ⟨0, 1⟩
def fHS_SLOW_STATUS_RUN : Fld := ⟨24, 8⟩
def fHS_SLOW_STATUS_TRIM_STEPS : Fld := ⟨16, 8⟩
def fHS_SLOW_STATUS_EXCESS : Fld := ⟨0, 16⟩
def fRING_CTX_LOAD_KIND : Fld := ⟨31, 1⟩
def fRING_CTX_LOAD_OP : Fld := ⟨29, 2⟩
def fRING_CTX_LOAD_INDEX : Fld := ⟨0, 15⟩
def fRING_CTX_STATUS_DONE : Fld := ⟨31, 1⟩
def fRING_CTX_STATUS_ENABLED : Fld := ⟨30, 1⟩
def fRING_CTX_STATUS_ERR : Fld := ⟨29, 1⟩
def fRING_CTX_STATUS_INFLIGHT : Fld := ⟨0, 15⟩
def fRING_CTRL_IDLE : Fld := ⟨1, 1⟩
def fRING_CTRL_FETCH : Fld := ⟨0, 1⟩
def fRING_OUT_CLASS3 : Fld := ⟨16, 13⟩
def fRING_OUT_IN_USE : Fld := ⟨0, 15⟩
def fRING_EVT_VEC_EN : Fld := ⟨31, 1⟩
def fRING_EVT_VEC_VECTOR : Fld := ⟨0, 11⟩
def fRING_LINK_RETRIES : Fld := ⟨16, 16⟩
def fRING_LINK_IDE : Fld := ⟨10, 1⟩
def fRING_LINK_WIDTH : Fld := ⟨4, 6⟩
def fRING_LINK_SPEED : Fld := ⟨0, 4⟩
def fHS_FAULT_POLICY_PSIG : Fld := ⟨4, 1⟩
def fHS_FAULT_POLICY_PATH : Fld := ⟨3, 1⟩
def fHS_FAULT_POLICY_HALT : Fld := ⟨2, 1⟩
def fHS_FAULT_POLICY_GATHER : Fld := ⟨1, 1⟩
def fHS_FAULT_POLICY_TRAP : Fld := ⟨0, 1⟩
def fHS_EVT_CTRL_SIZE_LOG2 : Fld := ⟨0, 5⟩
def fHS_EVT_HEAD_INDEX : Fld := ⟨0, 32⟩
def fHS_DIAG_CTRL_SEQ : Fld := ⟨16, 16⟩
def fHS_DIAG_CTRL_SIZE_LOG2 : Fld := ⟨0, 5⟩
def fHS_WDOG_LIMIT : Fld := ⟨0, 24⟩
def fHS_SHAV_CTRL_BENCH_KIB : Fld := ⟨24, 8⟩
def fHS_SHAV_CTRL_STAT_KIB : Fld := ⟨16, 8⟩
def fHS_SHAV_CTRL_BENCH_OFF : Fld := ⟨4, 12⟩
def fHS_SHAV_CTRL_HOST : Fld := ⟨0, 1⟩
def fHS_RESET_GO : Fld := ⟨0, 8⟩
def fHS_RESET_STATUS_READY : Fld := ⟨31, 1⟩
def fHS_RESET_STATUS_LOST : Fld := ⟨30, 1⟩
def fHS_RESET_STATUS_FLASH_SHAV : Fld := ⟨29, 1⟩
def fHS_RESET_STATUS_MEM_LOST : Fld := ⟨28, 1⟩
def fHS_RESET_STATUS_CAUSE : Fld := ⟨16, 8⟩
def fHS_RESET_STATUS_COUNT : Fld := ⟨0, 16⟩
def fHS_HEALTH_FLAGGED : Fld := ⟨31, 1⟩
def fHS_HEALTH_DRAINED : Fld := ⟨30, 1⟩
def fHS_HEALTH_REASON : Fld := ⟨16, 8⟩
def fCD_KAT_CTRL_PERIOD : Fld := ⟨16, 16⟩
def fCD_KAT_STATUS_NEXT : Fld := ⟨24, 8⟩
def fCD_KAT_STATUS_LAST : Fld := ⟨16, 8⟩
def fCD_KAT_STATUS_OVERDUE : Fld := ⟨8, 8⟩
def fCD_KAT_STATUS_ROUNDS : Fld := ⟨0, 8⟩
def fCD_KAT_FAILS_COUNT : Fld := ⟨0, 32⟩
def fOBS_SMP_CTRL_SP : Fld := ⟨30, 2⟩
def fOBS_SMP_CTRL_CORES : Fld := ⟨29, 1⟩
def fOBS_SMP_CTRL_SIZE_LOG2 : Fld := ⟨24, 5⟩
def fOBS_SMP_CTRL_INTERVAL : Fld := ⟨0, 24⟩
def fOBS_SMP_HEAD_HEAD : Fld := ⟨0, 32⟩
def fOBS_SMP_TAIL_TAIL : Fld := ⟨0, 32⟩
def fOBS_SMP_STATUS_DROPPED : Fld := ⟨16, 16⟩
def fOBS_SMP_STATUS_SAMPLES : Fld := ⟨0, 16⟩
def fOBS_SET_JOB : Fld := ⟨16, 16⟩
def fOBS_SET_LAYER_LO : Fld := ⟨0, 16⟩
def fOBS_SET_LAYER_HI : Fld := ⟨16, 16⟩
def fOBS_SET_OPERATOR : Fld := ⟨0, 16⟩
def fOBS_TRC_CTRL_SP : Fld := ⟨30, 2⟩
def fOBS_TRC_CTRL_SIZE_LOG2 : Fld := ⟨24, 5⟩
def fOBS_TRC_CTRL_KINDS : Fld := ⟨0, 16⟩
def fOBS_TRC_JOB_JOB : Fld := ⟨0, 16⟩
def fOBS_TRC_HEAD_HEAD : Fld := ⟨0, 32⟩
def fOBS_TRC_TAIL_TAIL : Fld := ⟨0, 32⟩
def fOBS_TRC_STATUS_LOST : Fld := ⟨0, 32⟩
def fOBS_DUMP_ARM_NAME : Fld := ⟨0, 32⟩
def fOBS_DUMP_ARM_STEP : Fld := ⟨0, 32⟩
def fOBS_DUMP_STATUS_SKIPPED : Fld := ⟨16, 16⟩
def fOBS_DUMP_STATUS_WRITTEN : Fld := ⟨0, 16⟩
def fMGT_BOOT_STATE : Fld := ⟨28, 4⟩
def fMGT_BOOT_SOURCE : Fld := ⟨26, 2⟩
def fMGT_BOOT_SVN : Fld := ⟨8, 6⟩
def fMGT_BOOT_MIN_SVN : Fld := ⟨0, 6⟩
def fMGT_FW_VERSION_VERSION : Fld := ⟨0, 32⟩
def fMGT_NET_CTRL_EN : Fld := ⟨31, 1⟩
def fMGT_NET_CTRL_UDP_PORT : Fld := ⟨0, 16⟩
def fMGT_NET_STATUS_LINK : Fld := ⟨31, 1⟩
def fMGT_NET_STATUS_UNACKED : Fld := ⟨0, 9⟩
def fMGT_I3C_STATUS_DA_VALID : Fld := ⟨31, 1⟩
def fMGT_I3C_STATUS_DYN_ADDR : Fld := ⟨0, 7⟩
def fMGT_STORE_STATUS_AREA : Fld := ⟨31, 1⟩
def fMGT_STORE_STATUS_COMPACTING : Fld := ⟨30, 1⟩
def fMGT_STORE_STATUS_FILL : Fld := ⟨23, 7⟩
def fMGT_STORE_STATUS_PENDING : Fld := ⟨0, 17⟩
def fMGT_STORE_GEN_GEN : Fld := ⟨0, 32⟩
def fMGT_JRNL_CTRL_SIZE_LOG2 : Fld := ⟨0, 5⟩
def fMGT_JRNL_HEAD_INDEX : Fld := ⟨0, 32⟩
def fMTR_IDENT_PART : Fld := ⟨16, 16⟩
def fMTR_IDENT_VERSION : Fld := ⟨8, 8⟩
def fMTR_IDENT_RAILS : Fld := ⟨0, 8⟩
def fMTR_STATUS_SEALED : Fld := ⟨31, 1⟩
def fMTR_STATUS_FLASH_FAULT : Fld := ⟨30, 1⟩
def fMTR_STATUS_OVERRANGE : Fld := ⟨29, 1⟩
def fMTR_STATUS_LINE_FAULT : Fld := ⟨0, 8⟩
def fMTR_BOOTS_BOOTS : Fld := ⟨0, 32⟩
def fHS_STRAPS_TEST_N : Fld := ⟨16, 1⟩
def fHS_STRAPS_MGT_DEF : Fld := ⟨15, 1⟩
def fHS_STRAPS_FW_WAIT : Fld := ⟨14, 1⟩
def fHS_STRAPS_Y : Fld := ⟨7, 7⟩
def fHS_STRAPS_X : Fld := ⟨0, 7⟩
def fHS_POWER_STATUS_CLK_LOST : Fld := ⟨16, 5⟩
def fHS_POWER_STATUS_VR_FAIL : Fld := ⟨8, 8⟩
def fHS_POWER_STATUS_VR_ALERT : Fld := ⟨7, 1⟩

/-- The registers of a block. -/
def regs_hs : List RegSpec :=
  [rHS_IDENT, rHS_CD_PRESENT, rHS_CLAMP, rHS_EPOCH, rHS_GROUP_BASE, rHS_EPOCH_FENCE, rHS_LEDGER_BASE, rHS_LEDGER_CTRL]
  ++ [rHS_LEDGER_HEAD, rHS_SUSPECT, rHS_SLOW_STATUS, rHS_FAULT_POLICY, rHS_EVT_BASE, rHS_EVT_CTRL, rHS_EVT_HEAD, rHS_DIAG_BASE]
  ++ [rHS_DIAG_CTRL, rHS_WDOG, rHS_SHAV_BASE, rHS_SHAV_CTRL, rHS_RESET, rHS_RESET_STATUS, rHS_HEALTH, rHS_STRAPS]
  ++ [rHS_POWER_STATUS]
/-- The registers of a block. -/
def regs_ring : List RegSpec :=
  [rRING_CTX_BASE, rRING_CQ_BASE, rRING_CTX_LOAD, rRING_CTX_STATUS, rRING_CTRL, rRING_OUT, rRING_EVT_VEC, rRING_LINK]
/-- The registers of a block. -/
def regs_fab : List RegSpec :=
  [rFAB_COORD, rFAB_DIM, rFAB_PORT_CTRL, rFAB_PORT_STATUS, rFAB_PORT_RETRY, rFAB_RT_SWITCH, rFAB_RT_AT, rFAB_RT_STATUS]
  ++ [rFAB_JOB, rFAB_ABORT, rFAB_ABORT_LAST, rFAB_DISCARD, rFAB_UNREACH]
/-- The registers of a block. -/
def regs_ftc : List RegSpec :=
  [rFTC_NOW, rFTC_CTRL, rFTC_INIT, rFTC_STATUS, rFTC_UNLOCKS, rFTC_PORT_ASYM]
/-- The registers of a block. -/
def regs_mgt : List RegSpec :=
  [rMGT_BOOT, rMGT_FW_VERSION, rMGT_IDENT_SERIAL, rMGT_NET_CTRL, rMGT_NET_STATUS, rMGT_I3C_STATUS, rMGT_NET_ADDR, rMGT_COLL]
  ++ [rMGT_STORE_STATUS, rMGT_STORE_GEN, rMGT_JRNL_BASE, rMGT_JRNL_CTRL, rMGT_JRNL_HEAD]
/-- The registers of a block. -/
def regs_cd : List RegSpec :=
  [rCD_CORE_STATUS, rCD_MAP_GEN, rCD_CORE_MAP, rCD_GOV_CTRL, rCD_GOV_STATUS, rCD_RATE_CEIL, rCD_VTRIM, rCD_VCTRL]
  ++ [rCD_VSTATUS, rCD_BEAT_RATE, rCD_DROOP, rCORE_KERF_POLICY, rCD_DPEG_STATUS, rCD_DPEG, rCD_BCACHE_CTRL, rCD_BCACHE_HITS]
  ++ [rCD_BCACHE_MISSES, rCD_BCACHE_ECC, rCD_POOL_STATUS, rCD_TRK_QUOTA, rCD_TRK_DDRQ, rCD_TRK_STATUS, rCD_TRK_REFUSALS, rMEM_SCRUB_STATUS]
  ++ [rCD_COLL_STATUS, rCD_COLL_QUEUE, rCD_COLL_FAULT, rCD_COLL_FAULT_BLOCK, rCD_COLL_FAULT_TAG, rCD_COLL_NONFIN, rCD_KAT_CTRL, rCD_KAT_STATUS]
  ++ [rCD_KAT_FAILS]
/-- The registers of a block. -/
def regs_core : List RegSpec :=
  [rCORE_OPA_CTRL, rCORE_OPA_SKIPS, rCORE_OPA_MISPRED, rCORE_OPA_STATUS, rCORE_SEQ_STATUS, rCORE_SEQ_PC, rCORE_SEQ_TRAP, rCORE_SEQ_TAG]
  ++ [rCORE_PEG_STATUS, rCORE_PEG, rCORE_GTH_STATUS, rCORE_GTH_OUT, rCORE_GTH_FAULT, rCORE_GTH_FAULT_POS, rCORE_GTH_FAULT_ADDR, rCORE_DCACHE_HITS]
  ++ [rCORE_DCACHE_MISSES, rCORE_UPD_STATUS, rCORE_UPD_FROZEN, rCORE_UPD_NONFIN]
/-- The registers of a block. -/
def regs_kerf : List RegSpec :=
  [rCORE_KERF_FUSE, rCORE_KERF_RT, rCORE_KERF_STATUS, rCORE_KERF_FAIL]
/-- The registers of a block. -/
def regs_mem : List RegSpec :=
  [rMEM_STATUS, rMEM_ECC_CORR, rMEM_ECC_UNCORR, rMEM_ERR_INFO, rMEM_ERR_ADDR, rMEM_ERR_TAG]
/-- The registers of a block. -/
def regs_obs : List RegSpec :=
  [rOBS_SMP_BASE, rOBS_SMP_CTRL, rOBS_SMP_HEAD, rOBS_SMP_TAIL, rOBS_SMP_STATUS, rOBS_SET, rOBS_TRC_BASE, rOBS_TRC_CTRL]
  ++ [rOBS_TRC_JOB, rOBS_TRC_HEAD, rOBS_TRC_TAIL, rOBS_TRC_STATUS, rOBS_DUMP_ARM, rOBS_DUMP_STATUS, rOBS_CNT, rOBS_LAST]
/-- The registers of a block. -/
def regs_mtr : List RegSpec :=
  [rMTR_IDENT, rMTR_STATUS, rMTR_SEQ, rMTR_MTIME, rMTR_BOOTS]

def regsOf : Blk → List RegSpec
  | .hs => regs_hs | .ring => regs_ring | .fab => regs_fab | .ftc => regs_ftc | .mgt => regs_mgt | .cd => regs_cd
  | .core => regs_core | .kerf => regs_kerf | .mem => regs_mem | .obs => regs_obs | .mtr => regs_mtr

/-- Where a BAR0 word lies: its block, die, unit, and offset within the block (R33, R35). -/
structure Loc where
  blk : Blk
  die : Nat
  unit : Nat
  off : Nat
  deriving DecidableEq, Repr

def locOf (a : Nat) : Option Loc :=
  if a < 0x100000 then some ⟨.hs, 0, 0, a⟩
  else if a < 0x200000 then some ⟨.ring, 0, 0, a - 0x100000⟩
  else if a < 0x300000 then some ⟨.fab, 0, 0, a - 0x200000⟩
  else if a < 0x400000 then some ⟨.ftc, 0, 0, a - 0x300000⟩
  else if a < 0x500000 then some ⟨.mgt, 0, 0, a - 0x400000⟩
  else if a < 0x800000 then none
  else if a < 0x1000000 then
    let n := (a - 0x800000) / 0x100000
    let o := (a - 0x800000) % 0x100000
    if 0x2000 ≤ o && o < 0x3200 then some ⟨.kerf, n, (o - 0x2000) / 0x40, (o - 0x2000) % 0x40⟩
    else if 0x4000 ≤ o && o < 0x8000 then some ⟨.mem, n, (o - 0x4000) / 0x1000, (o - 0x4000) % 0x1000⟩
    else if 0x10000 ≤ o && o < 0x58000 then some ⟨.core, n, (o - 0x10000) / 0x1000, (o - 0x10000) % 0x1000⟩
    else some ⟨.cd, n, 0, o⟩
  else if a < 0x2000000 then some ⟨.obs, 0, 0, a - 0x1000000⟩
  else if a < 0x2100000 then some ⟨.mtr, 0, 0, a - 0x2000000⟩
  else none

/-- The word of an array register at an offset, where the offset names one. -/
def RegSpec.word? (r : RegSpec) (off : Nat) : Option WordSpec :=
  if off < r.off then none
  else
    let d := off - r.off
    let i := if r.stride = 0 then 0 else d / r.stride
    let o := if r.stride = 0 then d else d % r.stride
    if i < r.count && o % 4 = 0 then r.words[o / 4]? else none

/-- The table entry of a BAR0 word. R40: the clamp words at k = 6 and 7 are reserved. -/
def wordSpec (a : Nat) : Option WordSpec :=
  if a = 0x218 || a = 0x21C then none
  else
    match locOf a with
    | none => none
    | some l => (regsOf l.blk).findSome? (fun r => r.word? l.off)

/-- The reset value of a BAR0 word; reserved words read 0 (R34). -/
def resetWord (a : Nat) : Word := match wordSpec a with | some w => BitVec.ofNat 32 w.reset | none => 0#32

end Sys2Proof.Machine
end

