-- ==== Sys2Proof/Machine/PkgState.lean ====
section
/-! DEFINITION. What the package holds outside its cores: dies, memories, rings and the command table, collectives, the
fabric, firmware's state, management, and Milnik. Plain data. -/
namespace Sys2Proof.Machine

/-- R302: a fabric frame. Coordinates are 14-bit codes, X in [6:0] and Y in [13:7]. -/
structure Frame where
  ty : Nat
  bank : Nat
  vc : Nat
  dstDie : Nat
  dst : Nat
  src : Nat
  srcDie : Nat
  hops : Nat
  job : Nat
  epoch : Nat
  group : Nat
  id : Nat
  seq : Nat
  aux : Nat
  payload : List Byte
  deriving DecidableEq, Repr

/-- R41, R323: the ports of origin of a register access. -/
inductive Origin where
  | bar0 | udp | mctp
  deriving DecidableEq, Repr

/-- R222: an error in the stored copy of a line: the bytes, the DRAM devices and the 4-bit halves of devices that it touches, and
whether a decoder whose guarantee it exceeds reports it. -/
structure MemErr where
  bytes : Nat
  devs : Nat
  halves : Nat
  seen : Bool
  deriving DecidableEq, Repr

/-- What an access meets on its way: an operand of the accesses (log 23). -/
inductive Ecc where
  | keep
  | mem (a : Nat) (e : MemErr)          -- a new error in the stored copy of the line of an address (R222)
  | cache (a : Nat) (double : Bool)     -- an error of one bit, or of more, in a line in its bench cache (R184)
  | parity                   -- a parity failure: of a datapath (R233), or of a line of a core's cache (R172, R233)
  | crc                      -- a CRC-32C mismatch at the destination (R233)
  deriving DecidableEq, Repr

/-- R440, R447, R452: the transports of requests. -/
inductive Chan where
  | doe | udp | mctp
  deriving DecidableEq, Repr

/-! Dies. -/

/-- R182 to R184: a line present in a die's bench cache (its contents are the memory's current contents). `leaving`: its
write-back is parked in its slice (R203). -/
structure BLine where
  dirty : Bool
  poisoned : Bool
  leaving : Bool
  deriving DecidableEq, Repr

/-- R201, R202: who waits for the tracker, or holds an entry. -/
inductive Requester where
  | thread (core t : Nat)
  | fetch (core : Nat)
  | engine (e : Nat)
  | scrub (n : Nat)
  | stream (i : Nat)
  | update (core t : Nat)    -- a gather thread of an UPDATE (R245)
  | command (cmd : Nat)      -- an EPOCH's read of its group (R283), or the ledger record of a PHASE (R350)
  | writeback (line : Nat)
  | host
  | headstock                -- records of the headstock and of firmware in device memory (R350, R361, R426)
  | firmware                 -- firmware's reads of gathered records (R351)
  | answer (line : Nat)      -- what the host returns with its answer of a snoop (R361)
  | fabric (n : Nat)         -- the receive queue of a die
  deriving DecidableEq, Repr

/-- R200: an entry of the tracker; `alloc`: DDR_ALLOC as it stood at the admission (R42, R183). -/
structure TrkEntry where
  line : Nat
  who : Requester
  write : Bool
  alloc : Bool
  deriving DecidableEq, Repr

/-- R202: a requester on a waiting list; `woken`: a freed place is held for it. -/
structure Waiting where
  line : Nat
  who : Requester
  res : Res
  woken : Bool
  deriving DecidableEq, Repr

/-- R268, R269: a ready record. -/
structure ReadyRec where
  epoch : Nat
  group : Nat
  cid : Nat
  rank : Nat          -- the sender's coordinate and die, as a member entry
  job : Nat
  halted : Option (Nat × Nat)     -- a HALT has arrived: its halting rank and block index
  deriving DecidableEq, Repr

/-- R272: what an owner knows of one of its blocks: the codes received (by rank) and whether it is agreed; the ranks
whose contributions are applied. -/
structure OwnBlock where
  codes : Tbl Nat
  agreed : Option Nat
  applied : List Nat
  deriving DecidableEq, Repr

/-- R266 to R287: one collective on a stream. A block of shard r has the key r × 2^32 + block. -/
structure Stream where
  cmd : Nat
  rank : Nat                 -- the rank of this member
  members : List Nat         -- member entries in rank order
  ready : List Nat           -- ranks whose READY has arrived
  sentExp : List Nat         -- windows (r × 2^32 + window) whose codes have been sent to their owner
  own : Tbl OwnBlock         -- the blocks of the own shard
  agreed : Tbl Nat           -- agreed codes, by block key
  sentC : List Nat           -- blocks whose contribution has been sent
  ackd : List Nat            -- blocks whose contribution is acknowledged; MODE 1: owners
  granted : Nat              -- MODE 1, owner: ranks granted so far
  commits : Nat              -- MODE 1, owner: ranks committed so far
  slots : Tbl Nat            -- MODE 1, owner: granted rank → staging slot
  got : Tbl Nat              -- rank → bytes of its contribution or shard that have arrived
  grants : List Nat          -- MODE 1, member: owners whose grant has arrived
  sentR : List Nat           -- MODE 1, member: owners to whom the contribution has been sent
  shards : List Nat          -- gather: ranks whose shard is written here
  shardAcks : List Nat       -- gather: ranks that acknowledged the own shard
  sentPk : List Nat          -- gather: packages to which the own shard has been sent
  acked : List Nat           -- gather: ranks to whom the SHARD_ACK of their shard has been sent
  parked : Bool
  deriving DecidableEq, Repr

/-- R57 to R61: one request at a die's start governor: its physical core, whether it is a wake-up, and the arbitration point at
which it arrives (R59). -/
structure GovReq where
  core : Nat
  wake : Bool
  point : Nat
  deriving DecidableEq, Repr

/-- R203: a host CXL.mem request that waits for its die: a read of `len` bytes, or a write of bytes (`none`: read); whether
the host then may hold the line. -/
structure HostReq where
  addr : Nat
  len : Nat
  data : Option (List Byte)
  holds : Bool
  deriving DecidableEq, Repr

/-- One compute die. -/
structure Die where
  bind : Tbl Nat             -- logical core → physical core (R16); not listed: unbound (R18)
  fused : List Nat           -- R15, R94
  fenced : List Nat
  failedLast : List Nat      -- cores whose most recent test did not pass (R16)
  kerfFuse : Tbl Nat         -- CORE_KERF_FUSE.MASK (R94)
  faulted : Bool             -- CD_FAULTED
  pegs : Tbl Nat
  pegSat : Option Nat
  gov : List GovReq
  govNext : Nat              -- FTC of the earliest next admission (R57)
  baseMv : Nat               -- base voltage in mV (R50)
  setMv : Nat                -- set-point applied
  tj : Nat
  fwCeil : Nat
  oldCeil : Option (Nat × Nat)          -- the CEIL in force to the end of a 1 µs window, after a commit of another: window, CEIL (R64)
  oldGate : Option Nat       -- the IDLE_GATE in force up to the next admission, after a commit of another (R64)
  oldSlew : Option Nat       -- the SLEW in force up to the next admission (R64)
  oldVctrl : Option (Nat × Nat)         -- the MODE and VFIXED in force up to the next control period (R64)
  tripped : Bool             -- thermal trip ceiling (R49)
  slowFor : Nat              -- control periods more than 3 % below the others (R63)
  raising : Bool             -- R63 raises the base voltage
  avsMissed : Nat            -- control periods without an AVSBus answer (R476)
  bcache : Tbl BLine
  held : List Nat            -- R361: lines the host may hold, oldest first
  hostq : List HostReq
  trk : List TrkEntry
  waits : List Waiting
  grants : List (Requester × Nat × Bool)          -- lines admitted for an operation that still waits for others of its lines (R203), and DDR_ALLOC then (R42)
  engs : Tbl Nat             -- engine → command (R210)
  engq : List Nat
  engParked : List Nat
  scrub : Option Nat         -- running FILL or SCRUB (R220)
  scrubq : List Nat
  scrubParked : Bool
  streams : Tbl Stream
  collq : List Nat           -- fired collectives that wait for a stream
  ready : List ReadyRec
  hung : List (Nat × Nat × Nat)         -- R402: EPOCH, GROUP and CID of collectives that ended with HANG
  cnt : Tbl Nat              -- work of the die outside its cores (R420)
  fcnt : Tbl Nat             -- sets 1 to 3: (set − 1) × 32 + counter (R422)
  line : Tbl Nat             -- counts not yet sent on the counting line (R461)
  deriving DecidableEq, Repr

/-! Rings and commands. -/

/-- R367 to R371: a command ring. -/
structure Ring where
  en : Bool
  base : Nat
  size : Nat                 -- SIZE_LOG2
  prio : Nat
  cq : Nat
  head : Nat
  tail : Nat
  deriving DecidableEq, Repr

/-- R367, R379, R380: a completion ring; `held`: commands whose entries it holds while disabled. -/
structure Cq where
  en : Bool
  base : Nat
  size : Nat
  vector : Nat
  intCount : Nat
  intTime : Nat
  n : Nat                    -- entries written
  head : Nat
  uncovered : Nat            -- entries written since the last interrupt
  since : Nat                -- FTC of the first of them
  deriving DecidableEq, Repr

/-- Where a command stands (R167 to R170, R210, R220, R267, R373, R379). -/
inductive Stage where
  | fetched                  -- read, ORDER or dispatch still ahead (R374)
  | firing                   -- at its firing stage
  | fired                    -- fired; at the headstock, or waiting for start queues
  | queued                   -- waiting for an engine, the scrub engine or a stream
  | running
  | done                     -- ended; its completion entry is due
  deriving DecidableEq, Repr

/-- R379, R381: how a command ended, with the arbitration point (R382) and the core (R170) that ended it. -/
structure Ending where
  status : Nat
  d0 : Nat
  d1 : Nat
  elapsed : Nat
  point : Nat
  core : Nat
  deriving DecidableEq, Repr

/-- R372 to R376: an entry of the command table. -/
structure Cmd where
  d : List Byte              -- the descriptor, 64 or 128 bytes
  ring : Nat
  prio : Nat
  seq : Nat                  -- slot count of its first slot
  arr : Nat                  -- order of arrival at the firing stage
  stage : Stage
  fire : Option Nat          -- FTC of its firing
  left : List Nat            -- cores (die × 64 + logical) on which its program has not ended
  started : List Nat         -- cores on which it has started
  fail : Option Ending       -- the first trap or abort (R170, R208)
  fin : Option Ending
  prog : Nat                 -- progress of an engine, of FILL or SCRUB: bytes or lines handled
  began : Nat                -- FTC when an engine took it (R434)
  idx : Nat                  -- GATHER: the index of the row in progress; PHASE: 1 if the FTC was not LOCKED at its firing (R348)
  crc : Word                 -- DUMP: the CRC-32C register over the data so far (R434)
  tally : Tbl Nat            -- SCRUB: 0 CORR, 1 UNCORR, 2 REWRITTEN, 3 SKIPPED (R229)
  ues : List Nat             -- SCRUB: the first eight uncorrectable lines
  record : List Byte         -- PHASE END: its ledger record (R348); UPDATE: its parameter record (R247)
  recAt : Option Nat         -- PHASE END: where the record was stored (R350)
  suspect : Word             -- PHASE END: HS_SUSPECT as it stood when the record was written (R355)
  abortDue : Bool            -- an event of the command originates an ABORT once the command has ended (R389)
  deriving DecidableEq, Repr

/-! The fabric. -/

/-- R291: a flit in a replay buffer: its sequence number, its bytes, and the port frame sequence numbers of the frames that end in it. -/
structure TxFlit where
  seq : Nat
  raw : List Byte
  ends : List Nat
  deriving DecidableEq, Repr

/-- R291 to R297: a lane group of a port. -/
structure Group where
  up : Bool
  trainSince : Option Nat
  idSeen : Bool              -- its training is past step 4, and past step 5 (R295)
  tsSeen : Bool
  losses : List Nat          -- FTC of recent losses
  rxSeq : Nat                -- next flit sequence number expected
  part : List Byte           -- bytes of a frame that has arrived in part, and its port frame sequence number
  partNo : Nat
  replays : Nat              -- consecutive failed replays of one flit
  replaying : Bool
  txSeq : Nat                -- next flit sequence number sent
  rtx : List TxFlit          -- the replay buffer, oldest first
  deriving DecidableEq, Repr

/-- R306, R307: a frame that waits at an output: the torus port in whose buffer it stands (4 + d: the injection queue of die d), the
channel it arrived on there, and the frame as it is to leave. -/
structure OutFrame where
  input : Nat
  vc : Nat
  f : Frame
  deriving DecidableEq, Repr

/-- R292 to R306: a torus port. -/
structure Port where
  groups : Tbl Group
  nbrOk : Bool
  nbr : Nat
  held : Bool
  nbrGroups : Nat
  txSeq : Nat                -- port frame sequence number
  rxFrames : List Nat        -- port frame sequence numbers held whole
  out : List OutFrame        -- frames waiting at the output, oldest first
  again : List (Nat × Frame) -- frames of a group that went down, to be sent again, with their port frame sequence numbers (R293)
  sent : List (Nat × Nat × Frame)       -- frames not yet acknowledged: port frame sequence number, lane group
  credit : Tbl Nat           -- TC × 2 + VC → 64-byte units used of the neighbour's buffer (R305)
  given : Tbl Nat            -- TC × 2 + VC → units that the neighbour has returned so far, and that this port has freed, modulo 2^14 (log 15)
  freed : Tbl Nat
  served : Tbl Nat           -- TC × 2 + VC → the input served last (R306)
  better : Nat               -- consecutive exchanges with a better advertisement (R320)
  adv : Option (Nat × Nat)   -- last advertisement: GM index, DEPTH
  stamps : Option (Int × Int)           -- of the last TSYNC received: its send stamp, and the receive stamp, in 1/32 ns (R321)
  tx : List Int              -- own send stamps of the last four TSYNCs, newest first
  theta : Int                -- last θ, in 1/32,000 ns
  deriving DecidableEq, Repr

/-- R322. -/
inductive FtcState where
  | free | acquiring | locked | holdover
  deriving DecidableEq, Repr

/-- A READ of a ring copy that is outstanding, and where its data goes (R377). -/
structure FabRead where
  cmd : Nat
  tag : Nat
  src : Nat
  len : Nat
  dst : Nat
  pos : Nat                  -- its row (R209)
  data : Option (List Byte)  -- its data, where that has arrived and is not written yet
  deriving DecidableEq, Repr

/-- A WRITE outstanding. -/
structure FabWrite where
  cmd : Nat
  tag : Nat
  src : Nat                  -- the first source address of its segment (R233)
  dst : Nat
  len : Nat
  deriving DecidableEq, Repr

/-- R319 to R324. -/
structure Ftc where
  now : Nat
  st : FtcState
  parent : Nat               -- port; 4: grandmaster; 7: none
  depth : Nat
  gm : Nat                   -- GM index of the tree it is in
  offset : Int               -- θ of the parent, in 1/32 ns
  rate : Int                 -- HOLDOVER: the direction in which steering last had the clock slewed (R322)
  slew : Int                 -- what remains to be taken out by slewing, in ticks (R322), and the FTC at which a tick of it was last taken
  slewAt : Nat
  good : Nat                 -- consecutive exchanges within 2 ns
  everLocked : Bool
  holdSince : Nat
  firstUp : Option Nat       -- grandmaster: when its first port came up
  best : Nat                 -- grandmaster: how far the latest neighbour time lies ahead (R319), in ticks
  serving : Bool             -- grandmaster: DEPTH 0 is advertised
  unsyncReported : Bool
  deriving DecidableEq, Repr

/-- R308: a PSIG outstanding: who sent it, its package, bank and TARGET. -/
structure PsigOut where
  die : Nat
  core : Option Nat          -- die × 72 + physical core; none: a command's SIGNAL
  dst : Nat
  bank : Nat
  target : Nat
  tag : Nat
  deriving DecidableEq, Repr

/-- R290: frame bytes of a lane group that do not fill a flit yet: the port frame sequence number of the frame of the first of them, the bytes,
and where in them frames end. -/
structure TxPart where
  no : Nat
  data : List Byte
  ends : List Nat
  deriving DecidableEq, Repr

structure Fabric where
  ports : Tbl Port
  tx : Tbl TxPart            -- port × 4 + lane group
  keys : List (Nat × Nat × Nat × Nat)   -- R326: job, origin, sequence, first receipt
  abortSeq : Nat
  origins : Tbl Nat          -- JOB → origin of the ABORT that aborted it (R381, R390)
  psigs : List PsigOut
  heldPsigs : List (PsigOut × Frame)
  routes : Tbl Nat           -- bank × 16,384 + coordinate → entry, as written
  fill : Nat × Nat × Nat     -- coordinate, SX and SY under which firmware filled the default routes (R315)
  inbox : List (Nat × Frame) -- frames that have arrived, oldest first: in the buffer of a torus port, or (4) delivered or from this package
  stopped : Bool             -- injection stopped (R329)
  reads : List FabRead       -- oldest first
  writes : List FabWrite
  deriving DecidableEq, Repr

/-! Firmware, tests, events, management. -/

/-- R387: an event record of firmware; die, core and port fields that do not apply hold 255. -/
structure Event where
  seq : Nat
  code : Nat
  action : Nat
  die : Nat
  lcore : Nat
  pcore : Nat
  unit : Nat
  job : Nat
  tag : Nat
  layer : Nat
  op : Nat
  detail : Nat
  ftc : Nat
  windowFrom : Nat
  addr : Nat
  diag : Nat
  coord : Nat
  phys : Nat
  deriving DecidableEq, Repr

/-- R392 to R396: the test state of a core under a known-answer test. -/
structure Test where
  full : Bool
  since : Nat
  saved : Core
  deriving DecidableEq, Repr

/-- R407: a shavings record: the core as it stood, and its flash form's time; an unbound logical core has none. -/
structure Shaving where
  die : Nat
  lcore : Nat
  pcore : Nat
  ftc : Nat
  core : Option Core
  off : Nat                  -- BENCH_OFF as it then stood
  lost : Option Nat          -- a segment of the record that failed its check, and was not written (R233)
  deriving DecidableEq, Repr

/-- R453: a journal entry. -/
structure JEntry where
  seq : Nat
  ftc : Nat
  kind : Nat
  origin : Nat
  size : Nat
  persist : Bool
  off : Nat
  value : Nat
  deriving DecidableEq, Repr

/-- R454: a register write that the arbiter holds while the journal's buffer is full; `reply`: the TAG of the REG_WRITE
whose last word it is (R442). -/
structure HeldWrite where
  off : Nat
  size : Nat
  value : Nat
  origin : Origin
  reply : Option Nat
  deriving DecidableEq, Repr

/-- R455: a journal area of flash, byte for byte: the base's header (32 bytes) and items (16 bytes each), the marker that commits it and the
entries after it (32 bytes each). What is not written is erased, and lists nothing. -/
structure Area where
  header : List Byte
  items : List (List Byte)
  marker : List Byte
  entries : List (List Byte)
  deriving DecidableEq, Repr

/-- R444: a firmware image as its header gives it. -/
structure Image where
  version : Nat
  svn : Nat
  bytes : List Byte
  deriving DecidableEq, Repr

/-- R447: the firmware transfer in progress. -/
structure Transfer where
  chan : Chan
  length : Nat
  buf : Tbl Byte
  deriving DecidableEq, Repr

/-- R347: a pending start of a phase. -/
structure PhaseStart where
  step : Nat
  ftc : Nat
  unlocked : Bool
  deriving DecidableEq, Repr

/-- R349, R351: a share that has completed. -/
structure Share where
  record : List Byte
  place : Option Nat         -- where the record is stored (R350)
  n : Nat
  dst : Nat
  suspect : Word             -- HS_SUSPECT at the record (R355)
  deriving DecidableEq, Repr

/-- R392: when a core falls due: `num` / `den` of PERIOD after `since`, the start of its previous test, or READY. -/
structure KatDue where
  since : Nat
  num : Nat
  den : Nat
  deriving DecidableEq, Repr

/-- R96, R395: a full test of a fenced core: when it started, and whether a column group was bypassed before it. -/
structure FullTest where
  since : Nat
  bypassed : Bool
  deriving DecidableEq, Repr

/-- R481, R482: where the package stands between cold reset and READY. -/
structure Fw where
  events : List Event        -- newest first, at most 4,096 (R387)
  eventSeq : Nat
  unacked : List (Nat × Nat × Nat)      -- collector, event SEQ, times sent (R442)
  sentAt : Tbl Nat           -- collector × 2^32 + event SEQ → FTC at which it was sent last
  flashEvents : List Event
  diagSeq : Nat
  diag : List Byte           -- the last diagnostic record (R404)
  flashDiag : List Byte      -- the flash diagnostic area
  shavings : List Shaving    -- the flash shavings (R407)
  resetReq : Option Nat      -- cause of the package reset that is due
  inReset : Bool
  draining : Bool            -- a drain is under way (R329)
  abortPend : List Nat       -- aborted jobs whose ABORT_DONE is due (R391)
  jobFtc : Tbl Nat           -- last progress of a JOB (R401)
  wdogOff : Bool
  tests : Tbl Test           -- die × 72 + core
  due : Tbl KatDue
  passed : Tbl Nat           -- FTC of its last passed test
  boundAt : Tbl Nat          -- FTC at which a physical core was last bound (R395)
  round : Tbl (List Nat)     -- die → cores tested since its previous round completed (R392)
  fullTests : Tbl FullTest
  rebindAfter : Tbl Nat      -- core that a CORE_UE has fenced during a program → the program's command, after which it is rebound (R399)
  unrepro : Tbl (List Nat)   -- times of failures not reproduced
  datapath : Tbl (List Nat)
  ueLines : Tbl (List (Nat × Nat))      -- die × 4 + controller: distinct failing lines and their FTC (R386)
  ceSeen : Tbl Nat           -- die × 4 + controller: correctable errors already reported (R386)
  readies : List Nat         -- R413: FTC at which earlier resets reached READY, but for HOST_RESET
  phases : Tbl PhaseStart
  curStep : Option Nat       -- the current step, and whether a record of it was slow (R352)
  curSlow : Bool
  epochFrom : List (Nat × Nat)          -- FENCEs that have arrived: package, NEW
  epochNeed : List Nat       -- other packages of the fence group
  epochCmd : Option Nat
  epochSent : Bool
  shares : List Share        -- shares that have completed and are not yet compared (R351), oldest first
  jseq : Nat
  jbuf : List JEntry         -- buffered entries, oldest first, at most 65,536
  jwait : List JEntry        -- firmware's own entries that wait for room in the buffer (R454)
  jheld : List HeldWrite     -- writes held at the arbiter, oldest first (R454)
  area0 : Area
  area1 : Area
  activeArea : Bool
  compacting : Bool
  image : Option Image       -- in flash
  running : Option Image
  bootRam : Bool             -- MGT_BOOT.SOURCE
  transfer : Option Transfer
  waiting : Bool             -- the boot wait of R446
  booted : Bool              -- firmware has run every step of the boot sequence since the last reset (R410, R483)
  cold : Bool                -- that reset was a cold reset
  measCounter : Nat
  measures : List (List Byte)
  minSvn : Nat
  revoked : Nat
  smpSeq : Nat
  smpOld : Option (Nat × Nat)           -- INTERVAL and the FTC of a commit of it that takes effect at the next sampling tick (R427)
  lastSample : List Byte
  evTrace : List Event       -- event records whose trace is due, oldest first
  trcLost : Nat
  trcUs : Nat × Nat          -- the current µs and the records written in it
  bootNote : Option Event    -- the FW_WATCHDOG record that the restarted firmware has still to send (R409)
  deriving DecidableEq, Repr

/-- R215 to R217: a DIMM as its SPD gives it. -/
structure Dimm where
  rdimm : Bool               -- an RDIMM with ECC
  speed : Nat                -- MT/s
  x8 : Bool                  -- devices of 8 bits; else of 4
  gbit : Nat                 -- Gb of a device
  ranks : Nat                -- package ranks
  high : Nat                 -- dies of a 3DS stack
  colBits : Nat              -- width of the column field, in 64-byte bursts
  rowBits : Nat
  deriving DecidableEq, Repr

/-- R471, R474, R477, R479: board-level state. -/
structure Board where
  dies : Nat                 -- compute dies of the variant (R14): 2, 4 or 8
  pwrok : Bool
  rstN : Bool
  perstN : Bool
  thermTrip : Bool           -- THERM_TRIP_N asserted
  vrAlert : Bool
  clkGone : List (Nat × Nat) -- reference clocks lost now: clock, die
  dimms : Tbl Dimm           -- die × 2 + channel
  memLost : Bool             -- a memory supply or reference has been lost (R411, R479)
  serial : Nat
  deriving DecidableEq, Repr

/-- R356, R360: an HDM decoder. -/
structure Hdm where
  base : Nat                 -- host physical address
  size : Nat
  skip : Nat                 -- DPA Skip
  committed : Bool
  deriving DecidableEq, Repr

/-- R356 to R364, R384: the host port. -/
structure HostPort where
  speed : Nat
  width : Nat
  ide : Bool
  memSpace : Bool
  busMaster : Bool
  cacheEn : Bool
  memEn : Bool
  msixEn : Bool
  msixPend : List Nat
  bells : Tbl Nat            -- last value accepted by each doorbell
  lastRing : Tbl Nat         -- class → ring served last (R371)
  hdm : Tbl Hdm              -- decoder 0 to 3
  bar0 : Nat                 -- base addresses of BAR0 and BAR2, as the host assigns them (R358)
  bar2 : Nat
  top : Nat                  -- host memory ends below this host physical address (R365; the host's, log 13)
  deriving DecidableEq, Repr

/-- R440 to R442: what the management port has bound. -/
structure Mgt where
  linkUp : Bool
  i3cAddr : Option Nat
  deriving DecidableEq, Repr

/-- R356, R365: the device's requests to host memory. -/
inductive HostOp where
  | rdCurr | itoMWr | woWrInv
  deriving DecidableEq, Repr

/-- R426, R430, R361, R200: a record of the headstock or of firmware for device memory, which waits for the host's answer or for the tracker:
its address and bytes, the HEAD register and the value that it then takes, and the record in whose place alone it is written (R350). -/
structure Posted where
  addr : Nat
  data : List Byte
  head : Option (Nat × Nat)
  was : Option (List Byte)
  deriving DecidableEq, Repr

/-- What the package has sent out (log 9): frames, messages, interrupts, snoops. -/
inductive Output where
  | flit (port group : Nat) (raw : List Byte)
  | linkLocal (port : Nat) (f : Frame)
  | msi (vector : Nat)
  | response (chan : Chan) (data : List Byte)
  | event (collector seq : Nat) (data : List Byte)
  | hostData (addr : Nat) (data : List Byte) (poison : Bool)
  | snoop (addr : Nat) (inv : Bool)
  | snoopReply (addr : Nat)             -- RspIHitI
  | hostReq (op : HostOp) (line : Nat)
  | doe (data : List Byte)
  | net (kind : Nat) (data : List Byte)
  | meter (data : List Byte)
  deriving DecidableEq, Repr

/-- The package but for Milnik. -/
structure Pkg where
  board : Board
  ftc : Ftc
  regs : Tbl Word            -- stored register words by BAR0 offset; not listed: the reset value
  shadow : Tbl Word          -- R40: shadow words
  latch : Tbl Word           -- R323: high words latched, by port of origin and register
  dies : Tbl Die
  cores : Tbl Core           -- die × 72 + physical core
  mem : Mem                  -- HBM4 and DDR5, by package-local address
  badLines : Tbl Bool        -- lines whose stored copy has an error: true uncorrectable
  host : Mem                 -- host memory
  snoops : List (Nat × Bool) -- R361: snoops the host has not answered: line, and whether it is BISnpInv
  answered : List Nat        -- lines whose BISnpData is answered and not yet used
  used : List Nat            -- of these, the lines that the command in progress has read
  touched : Option (Nat × Bool)         -- the command in progress needs a line that the host may hold: read, or write
  posted : List Posted       -- oldest first
  admitted : Tbl Bool        -- lines of the operation in progress that were admitted under another DDR_ALLOC (R42)
  rings : Tbl Ring
  cqs : Tbl Cq
  cmds : Tbl Cmd
  arrivals : Nat
  port : HostPort
  fab : Fabric
  fw : Fw
  mgt : Mgt
  outbox : List Output       -- newest first
  epoch : Nat                -- resets that made the cores' memories unpredictable (seeds of log 7)
  free : Nat                 -- free values drawn (log 8)
  deriving DecidableEq, Repr

/-- R459 to R468: Milnik. -/
structure Milnik where
  powered : Bool
  dies : Nat                 -- dies of the variant (R459)
  seq : Nat
  mtime : Nat
  boots : Nat
  energy : Tbl Nat           -- rail → µJ
  residue : Tbl Nat          -- rail → energy below 1 µJ, in units of 10⁻¹² J
  ops : Tbl Nat              -- R462
  us : Nat                   -- 1 MHz samples in the millisecond in progress
  spanMs : Nat               -- ms in the record in progress
  gap : Bool
  overrange : Bool
  flashFault : Bool          -- a record write has failed since power-up
  flashNext : Bool           -- the next record carries FLASH_FAULT
  sealed : Bool
  lineFault : Nat
  serial : Nat
  pkgSerial : Nat
  last : List Byte           -- the last record closed
  stored : List Byte         -- the last record that reached flash
  flash : Tbl (List Byte)    -- SEQ mod 131,072
  ram : List (Nat × List Byte)
  liveGen : Nat
  live : List Byte
  deriving DecidableEq, Repr

end Sys2Proof.Machine
end

