-- ==== Sys2Proof/Machine/PkgOps.lean ====
section
/-! DEFINITION. The named operations over the package: registers, dies and cores, free values, the address map, the
bench cache and memory accesses, die pegs, the outbox, and event records. -/
namespace Sys2Proof.Machine

/-! Registers. -/

/-- The stored value of a BAR0 word. -/
def Pkg.rd (p : Pkg) (a : Nat) : Word := p.regs.getD a (resetWord a)
def Pkg.wr (p : Pkg) (a : Nat) (v : Word) : Pkg := { p with regs := p.regs.set a v }
def Pkg.fld (p : Pkg) (a : Nat) (f : Fld) : Nat := bits (p.rd a) f.lo f.w
def putFld (v : Word) (f : Fld) (x : Nat) : Word := BitVec.ofNat 32 (v.toNat - bits v f.lo f.w * 2 ^ f.lo + x % 2 ^ f.w * 2 ^ f.lo)
def Pkg.setFld (p : Pkg) (a : Nat) (f : Fld) (x : Nat) : Pkg := p.wr a (putFld (p.rd a) f x)
/-- A 64-bit register (R32). -/
def Pkg.rd64 (p : Pkg) (a : Nat) : Nat := (p.rd a).toNat + 2 ^ 32 * (p.rd (a + 4)).toNat
def Pkg.wr64 (p : Pkg) (a v : Nat) : Pkg := (p.wr a (BitVec.ofNat 32 v)).wr (a + 4) (BitVec.ofNat 32 (v / 2 ^ 32))
/-- A counter that saturates, and one that wraps. -/
def Pkg.bumpSat (p : Pkg) (a : Nat) (f : Fld) : Pkg := p.setFld a f (min (p.fld a f + 1) (2 ^ f.w - 1))
def Pkg.bumpWrap (p : Pkg) (a : Nat) (f : Fld) : Pkg := p.setFld a f (p.fld a f + 1)

/-! Free values. -/
def Pkg.fresh (p : Pkg) : Pkg × Nat := ({ p with free := p.free + 1 }, p.free)

/-! Dies and cores. -/

/-- A free-running clock at the release of a cold reset (R322). -/
def Ftc.reset : Ftc :=
  { now := 0, st := .free, parent := 7, depth := 255, gm := 0, offset := 0, rate := 0, slew := 0, slewAt := 0, good := 0, everLocked := false, holdSince := 0, firstUp := none
    best := 0, serving := false, unsyncReported := false }

/-- No frame, route, key or signal (R310, R326). -/
def Fabric.reset : Fabric :=
  { ports := [], tx := [], keys := [], abortSeq := 0, origins := [], psigs := [], heldPsigs := [], routes := [], fill := (0, 0, 0), inbox := [], stopped := false
    reads := [], writes := [] }

/-- The host port after a cold reset (R481), before a host whose memory ends below `top`. -/
def HostPort.reset (top : Nat) : HostPort :=
  { speed := 0, width := 0, ide := false, memSpace := false, busMaster := false, cacheEn := false, memEn := false, msixEn := false, msixPend := []
    bells := [], lastRing := [], hdm := [], bar0 := 0, bar2 := 0, top := top }

/-- A die as first set up (R16): no spare used, no core fenced. -/
def Die.init : Die :=
  { bind := Tbl.tab (fun c => some c) 0 64, fused := [], fenced := [], failedLast := [], kerfFuse := [], faulted := false,
    pegs := [], pegSat := none, gov := [], govNext := 0, baseMv := 750, setMv := 750, tj := 25, fwCeil := 255, oldCeil := none,
    oldGate := none, oldSlew := none, oldVctrl := none, tripped := false, slowFor := 0, raising := false, avsMissed := 0, bcache := [], held := [], hostq := [], trk := [], waits := [], grants := [],
    engs := [], engq := [], engParked := [], scrub := none, scrubq := [], scrubParked := false, streams := [],
    collq := [], ready := [], hung := [], cnt := [], fcnt := [], line := [] }

def Pkg.die (p : Pkg) (n : Nat) : Die := p.dies.getD n Die.init
def Pkg.updDie (p : Pkg) (n : Nat) (f : Die → Die) : Pkg := { p with dies := p.dies.set n (f (p.die n)) }
/-- R14, R37. -/
def Pkg.present (p : Pkg) (n : Nat) : Bool := n < p.board.dies

/-- The key of physical core `c` of die `n`. -/
def coreKey (n c : Nat) : Nat := n * 72 + c
def Pkg.core (p : Pkg) (k : Nat) : Core := p.cores.getD k (Core.init (p.epoch * 576 + k))
def Pkg.setCore (p : Pkg) (k : Nat) (c : Core) : Pkg := { p with cores := p.cores.set k c }

/-- R16, R18: the physical core behind a logical core, where one is bound. -/
def Pkg.phys (p : Pkg) (n c : Nat) : Option Nat :=
  if p.present n && c < 64 then ((p.die n).bind.find c).bind (fun x => if x < 72 then some (coreKey n x) else none) else none

/-- The logical core bound to a physical core. -/
def Die.logical (d : Die) (c : Nat) : Option Nat := (d.bind.find? (fun e => e.2 = c)).map Prod.fst

/-- R16: functional cores, and the spares among them. -/
def Die.functional (d : Die) : List Nat := (List.range 72).filter (fun c => !d.fused.contains c && !d.fenced.contains c)
def Die.spares (d : Die) : List Nat := d.functional.filter (fun c => d.logical c = none)

/-- R93: a core with too many column groups bypassed is short, and cannot carry a logical core. -/
def Pkg.canCarry (p : Pkg) (n c : Nat) : Bool :=
  let mask := ((p.die n).kerfFuse.getD c 0 ||| (p.core (coreKey n c)).kerf) % 2 ^ 17
  let q := if p.fld (rCORE_KERF_POLICY.at n 0 0) fCORE_KERF_POLICY_WIDTH = 1 then 15 else 16
  q ≤ ((List.range 17).filter (fun g => mask / 2 ^ g % 2 = 0)).length
/-- R16, R93: the lowest-numbered spare of a die that passed its most recent test and is not short. -/
def Pkg.nextSpare (p : Pkg) (n : Nat) : Option Nat :=
  ((p.die n).spares.filter (fun c => !(p.die n).failedLast.contains c && p.canCarry n c)).head?

/-- R422: whether filter k (1 to 3) matches. -/
def Pkg.filterHits (p : Pkg) (k : Nat) (i : Ids) : Bool :=
  let a := rOBS_SET.at 0 0 (k - 1)
  let v := p.rd64 a
  let job := v / 2 ^ 48
  let lo := v / 2 ^ 32 % 2 ^ 16
  let hi := v / 2 ^ 16 % 2 ^ 16
  let op := v % 2 ^ 16
  (job = 0 || job = i.job) && lo ≤ i.layer && i.layer ≤ hi && (op = 0xFFFF || op = i.op)

def addCnt (t : Tbl Nat) (i n : Nat) : Tbl Nat := if n = 0 then t else t.upd i 0 (fun x => (x + n) % 2 ^ 64)

/-- R422: `n` counted in counter `i` under the IDs, in the filtered sets of a die. -/
def Pkg.countSets (p : Pkg) (n i k : Nat) (ids : Ids) : Pkg :=
  p.updDie n (fun d => { d with fcnt := [1, 2, 3].foldl (fun t s =>
    if p.filterHits s ids then addCnt t ((s - 1) * 32 + i) k else t) d.fcnt })

/-- R420: work of a die outside its cores. -/
def Pkg.countDie (p : Pkg) (n i k : Nat) (ids : Ids) : Pkg :=
  (p.updDie n (fun d => { d with cnt := addCnt d.cnt i k })).countSets n i k ids

/-- R461: the counters that a counting line carries: MACs by format, compensated MACs, VEC and ROW lane operations. -/
def lineIndex : Nat → Option Nat
  | 16 => some 14
  | 18 => some 15
  | i => if i < 14 then some i else none

/-- A core's work enters the filtered sets of its die and the counting line: what its counters gained (R422, R461). -/
def Pkg.gained (p : Pkg) (n : Nat) (old new : Core) : Pkg :=
  new.cnt.foldl (fun p e =>
    let g := (e.2 + 2 ^ 64 - old.cnt.getD e.1 0) % 2 ^ 64
    if g = 0 || 21 ≤ e.1 then p
    else
      let p := p.countSets n e.1 g new.cids
      match lineIndex e.1 with
      | some i => p.updDie n (fun d => { d with line := d.line.upd i 0 (· + g) })
      | none => p) p

/-- The act of a physical core. -/
def Pkg.onKey (p : Pkg) (k : Nat) (f : Core → Core) : Pkg :=
  let old := p.core k
  let new := f old
  (p.setCore k new).gained (k / 72) old new

/-- The pieces of [a, a + n) by line. -/
def pieces : Nat → Nat → Nat → List (Nat × Nat)
  | 0, _, _ => []
  | fuel + 1, a, n => if n = 0 then [] else
      let k := min n (64 - a % 64)
      (a, k) :: pieces fuel (a + k) (n - k)

def piecesOf (a n : Nat) : List (Nat × Nat) := pieces (n / 64 + 2) a n

/-! HDM decoders (R356, R360, R384). -/
def Hdm.init : Hdm := ⟨0, 0, 0, false⟩
def Pkg.hdmAt (p : Pkg) (k : Nat) : Hdm := p.port.hdm.getD k Hdm.init
/-- The DPA at which a decoder's range begins: behind the ranges of the decoders before it, and its skip, as the standard programs it (log 13). -/
def Pkg.dpaBase (p : Pkg) (k : Nat) : Nat :=
  (List.range k).foldl (fun t i => t + (p.hdmAt i).skip + (p.hdmAt i).size) 0 + (p.hdmAt k).skip
/-- R360: the DPA behind a host physical address. -/
def Pkg.dpaOf (p : Pkg) (a : Nat) : Option Nat :=
  ((List.range 4).find? (fun k => (p.hdmAt k).committed && (p.hdmAt k).base ≤ a && a < (p.hdmAt k).base + (p.hdmAt k).size)).map
    (fun k => p.dpaBase k + (a - (p.hdmAt k).base))

/-! Host memory (R365). -/

/-- R365, R385: a range of host memory, none of it in an HDM range of this package. -/
def Pkg.hostHas (p : Pkg) (a n : Nat) : Bool :=
  a + n ≤ p.port.top && (List.range 4).all (fun k => !(p.hdmAt k).committed || a + n ≤ (p.hdmAt k).base || (p.hdmAt k).base + (p.hdmAt k).size ≤ a)

/-- A read of host memory; of a bad host address, unpredictable data (R385): free values. -/
def Pkg.hostRead (p : Pkg) (a n : Nat) : List Byte :=
  if p.hostHas a n then p.host.readN a n else (List.range n).map (fun i => Config.freeByte 1 (a + i))

/-- R365: the requests of a write: ItoMWr of a whole line, WOWrInv of a part. -/
def writeReq (x : Nat × Nat) : Output := .hostReq (if x.2 = 64 then .itoMWr else .woWrInv) (x.1 / 64 * 64)
/-- A write of host memory; at a bad host address it changes none (log 42). -/
def Pkg.hostWrite (p : Pkg) (a : Nat) (bs : List Byte) : Pkg :=
  { p with host := if p.hostHas a bs.length then p.host.write a bs else p.host,
           outbox := ((piecesOf a bs.length).map writeReq).reverse ++ p.outbox }
/-- The requests of a read (R365): RdCurr, line by line. -/
def Pkg.rdCurr (p : Pkg) (a n : Nat) : Pkg :=
  { p with outbox := ((piecesOf a n).map (fun x => Output.hostReq .rdCurr (x.1 / 64 * 64))).reverse ++ p.outbox }
/-- Whether the host link is up (R357). -/
def Pkg.linkUp (p : Pkg) : Bool := p.port.speed ≠ 0
/-- Whether the device reaches host memory: CXL.cache, once the host has enabled it (R384, log 13). -/
def Pkg.hostMem (p : Pkg) : Bool := p.linkUp && p.port.cacheEn

/-! Die pegs (R159, R160). -/
def Pkg.dpeg (p : Pkg) (n q : Nat) : Nat := (p.die n).pegs.getD q 0
def Die.addPeg (d : Die) (q k : Nat) : Die :=
  let v := d.pegs.getD q 0
  { d with pegs := d.pegs.set q (pegSum v k)
           pegSat := if 0xFFFFFFFF < v + k then (match d.pegSat with | some f => some f | none => some q) else d.pegSat }
def Pkg.addDpeg (p : Pkg) (n q k : Nat) : Pkg := p.updDie n (fun d => d.addPeg q k)
def Pkg.setDpeg (p : Pkg) (n q v : Nat) : Pkg := p.updDie n (fun d => { d with pegs := d.pegs.set q (v % 2 ^ 32) })

/-! Outputs, coordinates, events. -/
def Pkg.emit (p : Pkg) (o : Output) : Pkg := { p with outbox := o :: p.outbox }

/-- R358, R380: the MSI-X table holds 16 bytes a vector, with the mask in bit 0 of its last word (set by reset, log 13). -/
def msixCtl (v : Nat) : Nat := 0x180000 + 16 * v + 12
def Pkg.msixMasked (p : Pkg) (v : Nat) : Bool := bits (p.regs.getD (msixCtl v) 1#32) 0 1 = 1

/-- R380: a vector is raised; a masked one sets its pending bit. -/
def Pkg.raiseVector (p : Pkg) (v : Nat) : Pkg :=
  if 2048 ≤ v || !p.port.msixEn || !p.linkUp then p
  else if p.msixMasked v then
    { p with port := { p.port with msixPend := if p.port.msixPend.contains v then p.port.msixPend else v :: p.port.msixPend } }
  else p.emit (.msi v)

/-- R299: logical and physical coordinates, X in [6:0] and Y in [13:7]. -/
def aCoord : Nat := rFAB_COORD.at 0 0 0
def Pkg.px (p : Pkg) : Nat := p.fld aCoord fFAB_COORD_PX
def Pkg.py (p : Pkg) : Nat := p.fld aCoord fFAB_COORD_PY
def Pkg.coord (p : Pkg) : Nat :=
  if p.fld aCoord fFAB_COORD_OVERRIDE = 1 then p.fld aCoord fFAB_COORD_LX + 128 * p.fld aCoord fFAB_COORD_LY
  else p.px + 128 * p.py

/-! The journal (R453, R454, R457). -/

/-- R453: the 32 bytes of an entry. -/
def JEntry.bytes (e : JEntry) : List Byte :=
  let b := toBytes 4 e.seq ++ toBytes 8 e.ftc ++ toBytes 1 e.kind ++ toBytes 1 e.origin ++ toBytes 1 e.size
    ++ toBytes 1 (if e.persist then 1 else 0) ++ toBytes 4 e.off ++ toBytes 8 e.value
  b ++ toBytes 4 (crc32c b).toNat

/-- R388, R457: sizes that act as the nearer limit. -/
def clampTo (lo hi n : Nat) : Nat := max lo (min hi n)

/-- R454: a new entry: into the buffer, which holds 65,536; in a full one firmware's entry waits (writes of ports are held at the arbiter). -/
def Fw.journal (f : Fw) (e : JEntry) : Fw :=
  if f.jbuf.length < 65536 && f.jwait.isEmpty then { f with jseq := f.jseq + 1, jbuf := f.jbuf ++ [e] }
  else { f with jseq := f.jseq + 1, jwait := f.jwait ++ [e] }

/-- An entry is written to the buffer, and to the host's copy where one is set up. -/
def Pkg.jput (p : Pkg) (kind origin size : Nat) (persist : Bool) (off value : Nat) : Pkg :=
  let e : JEntry := ⟨p.fw.jseq % 2 ^ 32, p.ftc.now, kind, origin, size, persist, off, value⟩
  let p := { p with fw := p.fw.journal e }
  let sz := p.fld (rMGT_JRNL_CTRL.at 0 0 0) fMGT_JRNL_CTRL_SIZE_LOG2
  if sz ≠ 0 && p.hostMem then
    let n := p.fld (rMGT_JRNL_HEAD.at 0 0 0) fMGT_JRNL_HEAD_INDEX
    (p.hostWrite (p.rd64 (rMGT_JRNL_BASE.at 0 0 0) + 32 * (n % 2 ^ clampTo 8 24 sz)) e.bytes).bumpWrap
      (rMGT_JRNL_HEAD.at 0 0 0) fMGT_JRNL_HEAD_INDEX
  else p

/-- An entry as flash holds it; `none`: it fails its CHECK, or is erased (R456). -/
def JEntry.parse (b : List Byte) : Option JEntry :=
  let f (o n : Nat) : Nat := ofBytes ((b.drop o).take n)
  if b.length = 32 && f 28 4 = (crc32c (b.take 28)).toNat then
    some ⟨f 0 4, f 4 8, f 12 1, f 13 1, f 14 1, f 15 1 % 2 = 1, f 16 4, f 20 8⟩
  else none

/-- R455: the header of a base: MAGIC, GEN, P, COUNT, and the CRC-32C over it and the items. -/
def baseHeader (gen seq : Nat) (items : List (List Byte)) : List Byte :=
  let h := toBytes 4 0x45534142 ++ toBytes 4 gen ++ toBytes 4 seq ++ toBytes 4 items.length ++ toBytes 12 0
  h ++ toBytes 4 (crc32c (h ++ items.flatten)).toNat
/-- R453, R455: the KIND 5 entry that commits a base: GEN in OFFSET, P in VALUE. Its SEQ is P (log 14). -/
def markerOf (gen seq ftc : Nat) : JEntry := ⟨seq, ftc, 5, 3, 8, false, gen, seq⟩

def Area.erased : Area := ⟨[], [], [], []⟩
def Area.gen (a : Area) : Nat := ofBytes ((a.header.drop 4).take 4)
def Area.seq (a : Area) : Nat := ofBytes ((a.header.drop 8).take 4)
/-- An area with a base, before its marker is written, and with it. -/
def Area.based (gen seq : Nat) (items : List (List Byte)) : Area := ⟨baseHeader gen seq items, items, [], []⟩
def Area.marked (a : Area) (ftc : Nat) : Area := { a with marker := (markerOf a.gen a.seq ftc).bytes }
/-- R456: the marker passes its CHECK, and the base that it commits passes its CRC-32C and carries the same GEN and P. -/
def Area.valid (a : Area) : Bool :=
  match JEntry.parse a.marker with
  | some m => m.kind = 5 && m.off = a.gen && m.value = a.seq && a.header = baseHeader a.gen a.seq a.items
  | none => false
/-- R456: the entries up to the first one that fails its CHECK, or is erased. -/
def goodEntries : List (List Byte) → List JEntry
  | [] => []
  | b :: bs => match JEntry.parse b with | some e => e :: goodEntries bs | none => []
def Area.good (a : Area) : List JEntry := goodEntries a.entries

/-- R453, R455: firmware's items that are no register word (their numbers are the model's own, log 14): bindings, fenced
cores, the event SEQ. -/
def itemBind (n c : Nat) : Nat := 0xF0000000 + n * 64 + c
def itemFence (n c : Nat) : Nat := 0xF1000000 + n * 72 + c
def itemEvent : Nat := 0xF2000000

/-- A change that firmware makes to a field that resets from the store. -/
def Pkg.fwItem (p : Pkg) (item value : Nat) : Pkg := p.jput 3 3 8 true item value
def Pkg.fwSet (p : Pkg) (a : Nat) (f : Fld) (x : Nat) : Pkg :=
  let p := p.setFld a f x
  p.jput 3 3 4 true a (p.rd a).toNat

/-- R16, R392: a core is fenced, and falls due no more; a core is bound to a logical core, or none is. -/
def Pkg.fence (p : Pkg) (n c : Nat) : Pkg :=
  let p := p.updDie n (fun d => { d with fenced := if d.fenced.contains c then d.fenced else c :: d.fenced
                                         failedLast := if d.failedLast.contains c then d.failedLast else c :: d.failedLast })
  ({ p with fw := { p.fw with due := p.fw.due.del (coreKey n c) } }).fwItem (itemFence n c) 1
def Pkg.unfence (p : Pkg) (n c : Nat) : Pkg :=
  (p.updDie n (fun d => { d with fenced := d.fenced.filter (fun x => !(x = c))
                                 failedLast := d.failedLast.filter (fun x => !(x = c)) })).fwItem (itemFence n c) 0
def Pkg.bindTo (p : Pkg) (n lc : Nat) (c? : Option Nat) : Pkg :=
  let p := p.updDie n (fun d => { d with bind := match c? with | some c => d.bind.set lc c | none => d.bind.del lc })
  (p.bumpWrap (rCD_MAP_GEN.at n 0 0) fCD_MAP_GEN_GEN).fwItem (itemBind n lc) (c?.getD 0x7F)

/-- R387: a record with nothing that applies. -/
def Event.blank (code : Nat) : Event :=
  ⟨0, code, 0, 255, 255, 255, 255, 0, 0, 0, 0, 0, 0, 0, 0, 0, 0, 0⟩

/-- R387: the 64 bytes of a record. -/
def Event.bytes (e : Event) : List Byte :=
  toBytes 4 e.seq ++ toBytes 1 e.code ++ toBytes 1 e.action ++ toBytes 1 e.die ++ toBytes 1 e.lcore ++ toBytes 1 e.pcore
    ++ toBytes 1 e.unit ++ toBytes 2 e.job ++ toBytes 4 e.tag ++ toBytes 2 e.layer ++ toBytes 2 e.op ++ toBytes 4 e.detail
    ++ toBytes 8 e.ftc ++ toBytes 8 e.windowFrom ++ toBytes 8 e.addr ++ toBytes 4 e.diag ++ toBytes 4 0
    ++ toBytes 2 e.coord ++ toBytes 2 e.phys ++ toBytes 4 0

/-- R388, R442: the codes that the flash event log keeps. -/
def flashLogged (code : Nat) : Bool := (0x11 ≤ code && code ≤ 0x13) || 0x61 ≤ code

/-- R442: records of a collector that it has not acknowledged and that have been sent. -/
def Fw.sentTo (f : Fw) (k : Nat) : Nat := (f.unacked.filter (fun u => u.1 = k && u.2.2 ≠ 0)).length

/-- A record from memory, or from the flash event log. -/
def Fw.record (f : Fw) (seq : Nat) : Option Event := (f.events ++ f.flashEvents).find? (fun e => e.seq = seq % 2 ^ 32)

/-- R440, R441: the EVENT message of a record: TYPE 3, no FLAGS, STATUS 0, TAG the record's SEQ, LENGTH 64, and the record. -/
def Event.message (e : Event) : List Byte :=
  toBytes 1 3 ++ toBytes 1 0 ++ toBytes 2 0 ++ toBytes 4 e.seq ++ toBytes 4 64 ++ toBytes 4 0 ++ e.bytes
/-- A record that firmware still has is sent to a collector. -/
def Pkg.sendEvent (p : Pkg) (k seq : Nat) : Pkg :=
  match p.fw.record seq with
  | some e => { p with fw := { p.fw with sentAt := p.fw.sentAt.set (k * 2 ^ 32 + seq % 2 ^ 32) p.ftc.now },
                       outbox := .event k seq e.message :: p.outbox }
  | none => p

/-- R442: a record goes to a collector, or waits while 256 are unacknowledged. -/
def Pkg.toCollector (p : Pkg) (seq k : Nat) : Pkg :=
  let go := p.fw.sentTo k < 256 && !p.fw.unacked.any (fun u => u.1 = k && u.2.2 = 0)
  let p := { p with fw := { p.fw with unacked := p.fw.unacked ++ [(k, seq, if go then 1 else 0)] } }
  if go then p.sendEvent k seq else p

/-- R442: collectors in use. -/
def Pkg.collectors (p : Pkg) : List Nat :=
  [0, 1].filter (fun k => (List.range 4).any (fun w => p.rd (rMGT_COLL.at 0 0 k + 4 * w) ≠ 0#32))

/-- R387, R388, R442, R453: firmware records an event and sends it: over the management port to each collector in use and
over I3C, to the host ring where it is set up, and to the flash event log. -/
def Pkg.eventFrom (p : Pkg) (t : Nat) (e : Event) : Pkg :=
  let e := { e with seq := p.fw.eventSeq % 2 ^ 32, ftc := t, coord := p.coord, phys := p.px + 128 * p.py }
  let p := { p with fw := { p.fw with
      events := (e :: p.fw.events).take 4096, eventSeq := p.fw.eventSeq + 1, evTrace := p.fw.evTrace ++ [e]
      flashEvents := if flashLogged e.code then (e :: p.fw.flashEvents).take 4096 else p.fw.flashEvents } }
  let p := p.fwItem itemEvent p.fw.eventSeq
  let p := if p.fld (rMGT_NET_CTRL.at 0 0 0) fMGT_NET_CTRL_EN = 1 then p.collectors.foldl (fun p k => p.toCollector e.seq k) p else p
  let p := if p.mgt.i3cAddr.isSome then p.emit (.event 2 e.seq (toBytes 4 e.seq)) else p
  let sz := p.fld (rHS_EVT_CTRL.at 0 0 0) fHS_EVT_CTRL_SIZE_LOG2
  if sz ≠ 0 && p.hostMem then
    let idx := p.fld (rHS_EVT_HEAD.at 0 0 0) fHS_EVT_HEAD_INDEX
    let p : Pkg := p.hostWrite (p.rd64 (rHS_EVT_BASE.at 0 0 0) + 64 * (idx % 2 ^ clampTo 6 16 sz)) e.bytes
    let p : Pkg := p.setFld (rHS_EVT_HEAD.at 0 0 0) fHS_EVT_HEAD_INDEX (idx + 1)
    if p.fld (rRING_EVT_VEC.at 0 0 0) fRING_EVT_VEC_EN = 1 then
      p.raiseVector (p.fld (rRING_EVT_VEC.at 0 0 0) fRING_EVT_VEC_VECTOR)
    else p
  else p

/-- An event detected now. -/
def Pkg.event (p : Pkg) (e : Event) : Pkg := p.eventFrom p.ftc.now e

/-- R408: a package reset falls due; one already due or running keeps its cause. -/
def Pkg.wantReset (p : Pkg) (cause : Nat) : Pkg :=
  if p.fw.inReset || p.fw.resetReq ≠ none then p else { p with fw := { p.fw with resetReq := some cause } }

/-- R413: a reset that starts now would be replaced by drain and flag. -/
def Pkg.resetBarred (p : Pkg) (cause : Nat) : Bool :=
  cause ≠ 0x77 && 2 ≤ (p.fw.readies.filter (fun t => p.ftc.now < t + 3600 * 1000000000)).length

/-- R387, R413: ACTION of a package-level fault: the package reset, or the drain and flag that replace it. -/
def Pkg.faultAction (p : Pkg) (cause : Nat) : Nat :=
  if !p.fw.inReset && p.fw.resetReq = none && p.resetBarred cause then 48 else 8

/-- R386: a package-level fault of a die: the event, CD_FAULTED, the reset. -/
def Pkg.packageFault (p : Pkg) (code : Nat) (die : Option Nat) : Pkg :=
  let p := p.event { Event.blank code with die := die.getD 255, action := p.faultAction code }
  let p := match die with | some n => p.updDie n (fun d => { d with faulted := true }) | none => p
  p.wantReset code

/-! Drain and flag: flagging (R415). -/
def aHealth : Nat := rHS_HEALTH.at 0 0 0

def Pkg.flag (p : Pkg) (reason : Nat) : Pkg :=
  let p := (p.setFld aHealth fHS_HEALTH_FLAGGED 1).fwSet aHealth fHS_HEALTH_REASON reason
  p.event { Event.blank 0x95 with detail := reason }

/-! The address map (R28 to R31). -/

inductive Region where
  | hbm (die off : Nat)
  | ddr (die off : Nat)
  | bench (die core off : Nat)
  | hole
  deriving DecidableEq, Repr

def hbmBase (n : Nat) : Nat := 0x4000000000 * n
def ddrBase (n : Nat) : Nat := 0x20000000000 + 0x8000000000 * n
def benchBase (n c : Nat) : Nat := 0x100000000000 + 0x10000000 * n + 0x400000 * c

/-- R216: bytes of DDR5 populated on a die, from what the controllers map. -/
def Pkg.ddrBytes (p : Pkg) (n : Nat) : Nat :=
  2 ^ 30 * [2, 3].foldl (fun t m => t + p.fld (rMEM_STATUS.at n m 0) fMEM_STATUS_CAPACITY) 0

def Pkg.region (p : Pkg) (a : Nat) : Region :=
  if a < 0x20000000000 then
    let n := a / 0x4000000000
    let o := a % 0x4000000000
    if p.present n && o < 0x3000000000 then .hbm n o else .hole
  else if a < 0x60000000000 then
    let n := (a - 0x20000000000) / 0x8000000000
    let o := (a - 0x20000000000) % 0x8000000000
    if p.present n && o < p.ddrBytes n then .ddr n o else .hole
  else if 0x100000000000 ≤ a && a < 0x100080000000 then
    let n := (a - 0x100000000000) / 0x10000000
    let c := (a - 0x100000000000) % 0x10000000 / 0x400000
    let o := a % 0x400000
    if p.present n && o < 0x300000 then .bench n c o else .hole
  else .hole

/-- The die that owns a memory address. -/
def Pkg.owner (p : Pkg) (a : Nat) : Option Nat :=
  match p.region a with
  | .hbm n _ => some n
  | .ddr n _ => some n
  | _ => none

/-- R215: the DIMM of each channel after a cold reset of the model's board (log 5): 256 GiB, of x4 devices. -/
def Dimm.fitted : Dimm := ⟨true, 6400, false, 32, 2, 2, 7, 17⟩
/-- R215: GiB of a DIMM, and whether it is of a supported kind. -/
def Dimm.capacity (m : Dimm) : Nat := 64 / (if m.x8 then 8 else 4) * m.gbit / 8 * m.ranks * m.high
def Dimm.supported (m : Dimm) : Bool :=
  m.rdimm && m.speed = 6400 && (m.gbit = 16 || m.gbit = 24 || m.gbit = 32) && (m.ranks = 1 || m.ranks = 2) &&
    (m.high = 1 || m.high = 2 || m.high = 4) && m.ranks * m.high ≤ 8 && 16 ≤ m.capacity && m.capacity ≤ 256

/-- R214, R217: the controller, and the bank and channel that the tracker counts. -/
def Pkg.place (p : Pkg) (a : Nat) : Nat × Res × Res :=
  match p.region a with
  | .hbm _ o =>
    let g := o / 256
    let c := (g ^^^ (g / 128) ^^^ (g / 16384)) % 128
    let l := g / 128
    let b := ((l / 4) ^^^ (l / 256)) % 64
    (c / 64, .bank false (c * 64 + b), .chan false c)
  | .ddr n o =>
    let g := o / 256
    let both := p.fld (rMEM_STATUS.at n 2 0) fMEM_STATUS_CAPACITY ≠ 0 && p.fld (rMEM_STATUS.at n 3 0) fMEM_STATUS_CAPACITY ≠ 0
    let ch := if both then (g ^^^ (g / 256) ^^^ (g / 65536)) % 2
      else if p.fld (rMEM_STATUS.at n 2 0) fMEM_STATUS_CAPACITY ≠ 0 then 0 else 1
    let l := if both then g / 2 else g
    let sub := o / 64 % 2
    let bg := (l ^^^ (l / 256)) % 8
    let ba := ((l / 8) ^^^ (l / 2048)) % 4
    -- R217: o[7] and l >> 5 hold column, row and logical rank, with the widths of the DIMM's SPD
    let m := (p.board.dimms.find (n * 2 + ch)).getD Dimm.fitted
    let rank := (l / 32 * 2 + o / 128 % 2) / 2 ^ (m.colBits + m.rowBits)
    (2 + ch, .bank true ((((rank * 2 + ch) * 2 + sub) * 8 + bg) * 4 + ba), .chan true ch)
  | _ => (0, .tracker, .tracker)

def lineOf (a : Nat) : Nat := a / 64 * 64

/-! Memory contents. The bench cache is memory-side: `mem` holds the current contents (R182). -/

/-- R224, R184: a read of the line meets an uncorrectable error: poisoned in the bench cache, or bad in memory. -/
def Pkg.lineBad (p : Pkg) (line : Nat) : Bool :=
  match p.owner line with
  | none => false
  | some n =>
    match (p.die n).bcache.find line with
    | some b => b.poisoned
    | none => p.badLines.find line = some true

/-- R30: an unpopulated address reads as a free value. R18: a bench window of an unbound core reads 0. -/
def Pkg.readByte (p : Pkg) (a : Nat) : Byte :=
  match p.region a with
  | .bench n c o => match p.phys n c with | some k => (p.core k).bench.read o | none => 0#8
  | .hole => Config.freeByte 0 a
  | _ => p.mem.read a

def Pkg.readBytes (p : Pkg) (a : Nat) : Nat → List Byte
  | 0 => []
  | n + 1 => p.readByte a :: Pkg.readBytes p (a + 1) n

def Pkg.field (p : Pkg) (a n : Nat) : Nat := ofBytes (p.readBytes a n)

/-- Whether [a, a + n) meets an uncorrectable error, of memory or of a bench. -/
def Pkg.rangeBad (p : Pkg) (a n : Nat) : Bool :=
  match p.region a with
  | .bench d c o => match p.phys d c with | some k => (p.core k).benchBad o n | none => false
  | .hole => false
  | _ => (List.range ((a % 64 + n + 63) / 64)).any (fun i => p.lineBad (lineOf a + 64 * i))

/-- R20, R177: a failed bench read through a window raises CORE_UE on the owning core. -/
def Pkg.noteWindow (p : Pkg) (a n : Nat) : Pkg :=
  match p.region a with
  | .bench d c o => match p.phys d c with
    | some k => if (p.core k).benchBad o n then p.onKey k (fun x => x.noteUE true) else p
    | none => p
  | _ => p

/-- R361: an access to a line that the host may hold needs the host's answer first: BISnpInv for a write, BISnpData for a
read. -/
def Pkg.touch (p : Pkg) (n line : Nat) (write : Bool) : Pkg :=
  if !(p.die n).held.contains line then p
  else if !write && p.answered.contains line then { p with used := line :: p.used }
  else match p.touched with | some _ => p | none => { p with touched := some (line, write) }

/-- An access of the host itself waits for no answer of the host. -/
def Pkg.asBefore (q p : Pkg) : Pkg := { q with touched := p.touched }

/-- The snoop of an access that waits. -/
def Pkg.sendSnoop (p : Pkg) (line : Nat) (write : Bool) : Pkg :=
  if p.snoops.contains (line, write) then p
  else ({ p with snoops := p.snoops ++ [(line, write)] }).emit (.snoop line write)

/-- A set of the bench cache (R174: 65,536 sets of 24 ways). -/
def bset (line : Nat) : Nat := line / 64 % 65536

def Pkg.isDdr (p : Pkg) (a : Nat) : Bool := match p.region a with | .ddr .. => true | _ => false

/-- R42, R183: whether a line allocates: by DDR_ALLOC as it stood when the operation in progress had the line admitted. -/
def Pkg.allocates (p : Pkg) (n line : Nat) : Bool :=
  !p.isDdr line || (match p.admitted.find line with
    | some b => b
    | none => p.fld (rCD_BCACHE_CTRL.at n 0 0) fCD_BCACHE_CTRL_DDR_ALLOC = 1)

/-! The request tracker (R200 to R204). -/

/-- R204: a quota as it acts. -/
def Pkg.quota (p : Pkg) (n : Nat) : Res → Nat
  | .bank false _ => clampTo 1 256 (p.fld (rCD_TRK_QUOTA.at n 0 0) fCD_TRK_QUOTA_BANK_Q)
  | .bank true _ => clampTo 1 64 (p.fld (rCD_TRK_DDRQ.at n 0 0) fCD_TRK_DDRQ_BANK_Q)
  | .chan false _ => clampTo 1 1024 (p.fld (rCD_TRK_QUOTA.at n 0 0) fCD_TRK_QUOTA_PC_Q)
  | .chan true _ => clampTo 1 1024 (p.fld (rCD_TRK_DDRQ.at n 0 0) fCD_TRK_DDRQ_CH_Q)
  | .tracker => 16384

/-- R201: requests admitted against a resource. -/
def Pkg.inUse (p : Pkg) (n : Nat) (r : Res) : Nat :=
  ((p.die n).trk.filter (fun e =>
    match r with
    | .tracker => true
    | _ => (p.place e.line).2.1 = r || (p.place e.line).2.2 = r)).length

/-- R479: the memory clock of the die that serves the line is lost: requests to it wait. -/
def Pkg.memStopped (p : Pkg) (n line : Nat) : Bool := p.board.clkGone.contains (if p.isDdr line then 4 else 3, n)
def Pkg.resStopped (p : Pkg) (n : Nat) : Res → Bool
  | .bank ddr _ | .chan ddr _ => p.board.clkGone.contains (if ddr then 4 else 3, n)
  | .tracker => false

/-- R202: the first requester of a resource that was woken, for which a place is held. -/
def Die.wokenFor (d : Die) (r : Res) : Option Requester := (d.waits.find? (fun x => x.res = r && x.woken)).map Waiting.who

/-- R201, R202: the resource that refuses a request first, in the order of R201. A requester that was woken first has its
place held; while anyone waits for a resource, no new arrival passes. -/
def Pkg.refusal (p : Pkg) (n line : Nat) (w : Requester) : Option Res :=
  let pl := p.place line
  if p.memStopped n line then some pl.2.2 else
  [pl.2.1, pl.2.2, Res.tracker].find? (fun r =>
    (p.die n).wokenFor r ≠ some w && ((p.die n).waits.any (fun x => x.res = r) || p.quota n r ≤ p.inUse n r))

/-- The requester has all its requests admitted: it leaves the waiting lists. -/
def Pkg.depart (p : Pkg) (n : Nat) (w : Requester) : Pkg :=
  p.updDie n (fun d => { d with waits := d.waits.filter (fun x => !(x.who = w)) })

/-- R200: the request takes its entry. -/
def Pkg.enterTracker (p : Pkg) (n line : Nat) (w : Requester) (write : Bool) : Pkg :=
  p.updDie n (fun d => { d with trk := d.trk ++ [⟨line, w, write, p.allocates n line⟩], waits := d.waits.filter (fun x => !(x.who = w)) })

/-- R202: the request is returned to its requester, which joins the resource's waiting list. -/
def Pkg.refuse (p : Pkg) (n line : Nat) (w : Requester) (r : Res) : Pkg :=
  (p.bumpWrap (rCD_TRK_REFUSALS.at n 0 0) fCD_TRK_REFUSALS_COUNT).updDie n (fun d =>
    { d with waits := if d.waits.any (fun x => x.who = w && x.res = r) then d.waits else d.waits ++ [⟨line, w, r, false⟩] })

/-- Whether an access of a line goes to a memory controller (R182, R183, R200, R219): a read that misses; a write that misses, of
part of the line or of a line that does not allocate. `stored`: a SCRUB, which reads memory whatever the bench cache holds (R228). -/
inductive Asks where
  | read | write | stored | fill
  deriving DecidableEq, Repr

def Pkg.needsMemory (p : Pkg) (n a len : Nat) (k : Asks) : Bool :=
  let line := lineOf a
  let there := ((p.die n).bcache.find line).isSome
  match k with
  | .stored => true
  | .fill => !there
  | .read => !there
  | .write => !there && (!(a = line && len = 64) || !p.allocates n line)

/-- R200 to R203: the accesses of an operation are admitted one after the other; the first refusal parks it, and what was admitted
is not asked for again. -/
def Pkg.askFold (w : Requester) (k : Asks) : List (Nat × Nat) → Pkg → Pkg × Bool
  | [], p => (p, true)
  | x :: xs, p =>
    match p.owner x.1 with
    | none => Pkg.askFold w k xs p
    | some o =>
      if !p.needsMemory o x.1 x.2 k || (p.die o).grants.any (fun g => g.1 = w && g.2.1 = lineOf x.1) then Pkg.askFold w k xs p
      else
        match p.refusal o (lineOf x.1) w with
        | some r => (p.refuse o (lineOf x.1) w r, false)
        | none =>
          Pkg.askFold w k xs ((p.enterTracker o (lineOf x.1) w (k = .write || k = .fill)).updDie o (fun d =>
            { d with grants := d.grants ++ [(w, lineOf x.1, p.allocates o (lineOf x.1))] }))

/-- The operation goes on, or has ended: what was admitted for it is used, under DDR_ALLOC as it stood at the admission (R42). `mine`: its
requesters. -/
def Pkg.useGrantsBy (p : Pkg) (mine : Requester → Bool) : Pkg :=
  (List.range p.board.dies).foldl (fun p n =>
    if (p.die n).grants.any (fun g => mine g.1) || (p.die n).waits.any (fun x => mine x.who) then
      let gs := (p.die n).grants.filter (fun g => mine g.1 && g.2.2 ≠ p.allocates n g.2.1)
      { p.updDie n (fun d => { d with grants := d.grants.filter (fun g => !mine g.1), waits := d.waits.filter (fun x => !mine x.who) }) with
        admitted := gs.foldl (fun t g => t.set g.2.1 g.2.2) p.admitted }
    else p) p
def Pkg.useGrants (p : Pkg) (w : Requester) : Pkg := p.useGrantsBy (fun x => x = w)

/-- The reads and the writes of an operation, all admitted, or the operation parked. -/
def Pkg.askAll (p : Pkg) (w : Requester) (rd wr : List (Nat × Nat)) (k : Asks := .read) (kw : Asks := .write) : Pkg × Bool :=
  let q := Pkg.askFold w k rd p
  if !q.2 then q
  else
    let q := Pkg.askFold w kw wr q.1
    if q.2 then (q.1.useGrants w, true) else q

/-- R182, R185: the write-back of a line: a dirty line replaces the stored copy, a poisoned one with an uncorrectable pattern. -/
def Pkg.writeBack (p : Pkg) (n line : Nat) (b : BLine) : Pkg :=
  let p := p.updDie n (fun d => { d with bcache := d.bcache.del line, cnt := addCnt d.cnt (if p.isDdr line then 24 else 22) 64 })
  if b.poisoned then { p with badLines := p.badLines.set line true } else { p with badLines := p.badLines.del line }

/-- R182, R200, R203: a line leaves the bench cache: a clean one leaves memory as it was; the write-back of another needs a place in
the tracker, and is parked in its slice without one. -/
def Pkg.evict (p : Pkg) (n line : Nat) : Pkg :=
  match (p.die n).bcache.find line with
  | none => p
  | some b =>
    if !b.dirty && !b.poisoned then p.updDie n (fun d => { d with bcache := d.bcache.del line })
    else
      match p.refusal n line (.writeback line) with
      | some r => (p.refuse n line (.writeback line) r).updDie n (fun d => { d with bcache := d.bcache.set line { b with leaving := true } })
      | none => (p.enterTracker n line (.writeback line) true).writeBack n line b

/-- R182: a line enters the bench cache; where its set is full the set's lowest line leaves (replacement only affects
timing). -/
def Pkg.install (p : Pkg) (n line : Nat) (b : BLine) : Pkg :=
  let inSet := (p.die n).bcache.filter (fun e => bset e.1 = bset line && !(e.1 = line) && !e.2.leaving)
  let p := if 24 ≤ inSet.length then (match inSet with | e :: _ => p.evict n e.1 | [] => p) else p
  p.updDie n (fun d => { d with bcache := d.bcache.set line b })

/-- R225, R386: a memory fault event; the package is flagged at the 16th distinct failing line of one controller within
86,400 s. -/
def Pkg.memUE (p : Pkg) (n m line src tag : Nat) (ids : Ids) : Pkg :=
  let recent := (p.fw.ueLines.getD (n * 4 + m) []).filter (fun e => p.ftc.now < e.2 + 86400000000000)
  let isNew := !recent.any (fun e => e.1 = line)
  let now := (line, p.ftc.now) :: recent.filter (fun e => !(e.1 = line))
  let hit := isNew && now.length = 16
  let p := { p with fw := { p.fw with ueLines := p.fw.ueLines.set (n * 4 + m) now } }
  let p := p.event { Event.blank 0x31 with die := n, unit := m, tag := tag, detail := src, addr := line,
                                           job := ids.job, layer := ids.layer % 2 ^ 16, op := ids.op,
                                           action := if hit then 32 else 0 }
  if hit then p.flag 0x31 else p

/-- R224 to R226: the count, the error log and the event of a controller. SOURCE as the table gives it. -/
def Pkg.logUE (p : Pkg) (n line src tag : Nat) (ids : Ids) : Pkg :=
  let m := (p.place line).1
  let p := p.bumpSat (rMEM_ECC_UNCORR.at n m 0) fMEM_ECC_UNCORR_COUNT
  let a := rMEM_ERR_INFO.at n m 0
  let p := if p.fld a fMEM_ERR_INFO_VALID = 1 then p.setFld a fMEM_ERR_INFO_MORE 1
    else ((p.wr a (putFld (putFld 0#32 fMEM_ERR_INFO_VALID 1) fMEM_ERR_INFO_SOURCE src)).wr64 (rMEM_ERR_ADDR.at n m 0) line).wr
      (rMEM_ERR_TAG.at n m 0) (BitVec.ofNat 32 tag)
  p.memUE n m line src tag ids

/-- R420: memory bytes are counted when the bench cache accepts the request. -/
def Pkg.countMem (p : Pkg) (n a k : Nat) (write : Bool) (ids : Ids) : Pkg :=
  p.countDie n ((if p.isDdr a then 23 else 21) + (if write then 1 else 0)) k ids

/-- R222: what a decoder makes of an error in a line's stored copy. -/
inductive Verdict where
  | clean | corr | uncorr
  | wrong                    -- miscorrected or unseen: the data is wrong, and nothing reports it
  deriving DecidableEq, Repr

/-- R222: by the code of the tier, and for DDR5 by the width of the DIMM's devices. -/
def Pkg.verdict (p : Pkg) (line : Nat) (e : MemErr) : Verdict :=
  let beyond : Verdict := if e.seen then .uncorr else .wrong
  match p.region line with
  | .ddr n _ =>
    if ((p.board.dimms.find (n * 2 + ((p.place line).1 - 2))).getD Dimm.fitted).x8 then
      if e.halves = 0 then .clean else if e.halves = 1 then .corr else if e.devs ≤ 1 then .uncorr else beyond
    else if e.devs = 0 then .clean else if e.devs = 1 then .corr else if e.devs = 2 then .uncorr else beyond
  | _ => if e.bytes = 0 then .clean else if e.bytes ≤ 2 then .corr else beyond

/-- What a memory controller's decoder finds in the stored copy of a line (R222); where the bench cache does not hold the line, a miscorrected
one holds free values (log 8). -/
def Pkg.decodeAs (p : Pkg) (n line : Nat) (e : MemErr) : Pkg :=
  match p.verdict line e with
  | .clean => p
  | .corr => if p.badLines.find line = some true then p else { p with badLines := p.badLines.set line false }
  | .uncorr => { p with badLines := p.badLines.set line true }
  | .wrong =>
    if ((p.die n).bcache.find line).isSome then p
    else let x := p.fresh; { x.1 with mem := p.mem.scramble line (line + 64) (2 ^ 45 + x.2) }

/-- R184: an error in a line of the bench cache: one bit is corrected; a clean line that is beyond that is read again from memory; a
dirty one is poisoned. -/
def Pkg.cacheEcc (p : Pkg) (n line : Nat) (b : BLine) (double : Bool) : Pkg :=
  if !double then p.bumpSat (rCD_BCACHE_ECC.at n 0 0) fCD_BCACHE_ECC_CORR
  else if b.poisoned then p
  else if b.dirty then
    (p.bumpSat (rCD_BCACHE_ECC.at n 0 0) fCD_BCACHE_ECC_POISON).updDie n (fun d => { d with bcache := d.bcache.set line { b with poisoned := true } })
  else p.updDie n (fun d => { d with bcache := d.bcache.del line })

/-- The errors that an access meets come up in memory, or in the bench cache (log 23). -/
def Pkg.meets (p : Pkg) : Ecc → Pkg
  | .mem a e => match p.owner a with | some n => p.decodeAs n (lineOf a) e | none => p
  | .cache a double =>
    match p.owner a with
    | some n => match (p.die n).bcache.find (lineOf a) with | some b => p.cacheEcc n (lineOf a) b double | none => p
    | none => p
  | _ => p

/-- R223, R224, R182, R184: a line that missed is read from memory into the bench cache, where it allocates: the correctable and
uncorrectable outcomes; a poisoned line of the bench cache has the latter. `false`: the read is uncorrectable. -/
def Pkg.fillLine (p : Pkg) (n line src tag : Nat) (alloc : Bool) (ids : Ids) : Pkg × Bool :=
  match (p.die n).bcache.find line with
  | some b => if b.poisoned then (p.logUE n line src tag ids, false) else (p, true)
  | none =>
    match p.badLines.find line with
    | some true => (p.logUE n line src tag ids, false)
    | some false =>
      let p := p.bumpSat (rMEM_ECC_CORR.at n (p.place line).1 0) fMEM_ECC_CORR_COUNT
      (if alloc then p.install n line ⟨false, false, false⟩ else p, true)
    | none => (if alloc then p.install n line ⟨false, false, false⟩ else p, true)

def Pkg.hit (p : Pkg) (n : Nat) : Pkg := p.bumpWrap (rCD_BCACHE_HITS.at n 0 0) fCD_BCACHE_HITS_COUNT
def Pkg.miss (p : Pkg) (n : Nat) : Pkg := p.bumpWrap (rCD_BCACHE_MISSES.at n 0 0) fCD_BCACHE_MISSES_COUNT
/-- R211: an access of a line is counted as a hit or a miss. -/
def Pkg.countHit (p : Pkg) (n line : Nat) : Pkg := if ((p.die n).bcache.find line).isSome then p.hit n else p.miss n

/-- One read of a line through the bench cache of die `n`. -/
def Pkg.readLine (p : Pkg) (n line src tag : Nat) (ids : Ids) : Pkg × Bool :=
  let p := p.touch n line false
  (p.countHit n line).fillLine n line src tag (p.allocates n line) ids

/-- R182, R183, R219, R223: one write of a line or part of a line through the bench cache of die `n`. -/
def Pkg.writeLine (p : Pkg) (n a : Nat) (bs : List Byte) (src tag : Nat) (ids : Ids) : Pkg :=
  let line := lineOf a
  let p := (p.touch n line true).countHit n line
  let whole := a = line && bs.length = 64
  let data (p : Pkg) : Pkg := { p with mem := p.mem.write a bs }
  match (p.die n).bcache.find line with
  | some b => (data p).install n line ⟨true, if whole then false else b.poisoned, b.leaving⟩
  | none =>
    let stored := if whole then none else p.badLines.find line
    let p := match stored with
      | some true => p.logUE n line src tag ids
      | some false => p.bumpSat (rMEM_ECC_CORR.at n (p.place line).1 0) fMEM_ECC_CORR_COUNT
      | none => p
    if p.allocates n line || stored = some true then (data p).install n line ⟨true, stored = some true, false⟩
    else { (data p) with badLines := p.badLines.del line }

/-- A write of bytes at a package-local address, by any agent: memory through the owning bench cache, a bench through
its window; an unbound core's window discards (R18). A write of an unpopulated address, whose results R30 leaves unpredictable, changes
nothing (DESIGN CHOICE, log 42). SOURCE 7: a fill for a partial write; `tag` is that of the command that
writes, 0 for the host and for fabric (R226). -/
def Pkg.write (p : Pkg) (a : Nat) (bs : List Byte) (ids : Ids) (tag : Nat := 0) : Pkg :=
  match p.region a with
  | .bench n c o => match p.phys n c with | some k => p.onKey k (fun x => x.benchWr o bs) | none => p
  | .hole => p
  | _ =>
    (piecesOf a bs.length).foldl (fun p x =>
      match p.owner x.1 with
      | some n => (p.writeLine n x.1 ((bs.drop (x.1 - a)).take x.2) 7 tag ids).countMem n x.1 x.2 true ids
      | none => p) p

/-- A read of bytes by an agent, line by line in ascending order; the address of the first uncorrectable piece ends it. -/
def Pkg.readFold (src tag : Nat) (ids : Ids) : List (Nat × Nat) → Pkg → List Byte → Pkg × Except Nat (List Byte)
  | [], p, acc => (p, .ok acc)
  | x :: xs, p, acc =>
    match p.owner x.1 with
    | none =>
      if p.rangeBad x.1 x.2 then (p.noteWindow x.1 x.2, .error x.1)
      else Pkg.readFold src tag ids xs p (acc ++ p.readBytes x.1 x.2)
    | some n =>
      let (p, ok) := p.readLine n (lineOf x.1) src tag ids
      let p := p.countMem n x.1 x.2 false ids
      if ok then Pkg.readFold src tag ids xs p (acc ++ p.readBytes x.1 x.2) else (p, .error x.1)

def Pkg.readAt (p : Pkg) (a n src tag : Nat) (ids : Ids) : Pkg × Except Nat (List Byte) :=
  Pkg.readFold src tag ids (piecesOf a n) p []

end Sys2Proof.Machine
end

