-- ==== Sys2Proof/Machine/Descriptor.lean ====
section
/-! DEFINITION. Descriptors (R374 to R376): the fields of the commands in the command table. -/
namespace Sys2Proof.Machine

def Cmd.f (c : Cmd) (off n : Nat) : Nat := ofBytes ((c.d.drop off).take n)
def Cmd.ty (c : Cmd) : Nat := c.f 0 1
def Cmd.order (c : Cmd) : Bool := c.f 1 1 % 2 = 1
def Cmd.nocq (c : Cmd) : Bool := c.f 1 1 / 2 % 2 = 1
def Cmd.job (c : Cmd) : Nat := c.f 2 2
def Cmd.tag (c : Cmd) : Nat := c.f 4 4
def Cmd.ids (c : Cmd) : Ids := ⟨c.job, c.f 8 2, c.f 10 2⟩

/-- R375: the known types, and those of two slots. -/
def knownType (t : Nat) : Bool := 1 ≤ t && t ≤ 12
def twoSlots (t : Nat) : Bool := t = 4 || t = 7 || t = 10

def Cmd.isShare (c : Cmd) : Bool := c.ty = 9 && c.f 28 1 / 16 % 2 = 1 && c.f 28 1 / 32 % 2 = 1
def Cmd.isColl (c : Cmd) : Bool := c.ty = 7 || c.isShare
/-- The die of a COLLECTIVE or of a shared PHASE, and of an engine command. -/
def Cmd.collDie (c : Cmd) : Nat := if c.ty = 7 then c.f 28 1 / 16 % 8 else c.f 29 1 % 8
def Cmd.engDie (c : Cmd) : Nat := if c.ty = 3 then c.f 30 1 % 8 else c.f 28 1 % 8
def Cmd.collEpoch (c : Cmd) : Nat := if c.ty = 7 then c.f 34 2 else c.f 36 2

def Pkg.cmd (p : Pkg) (k : Nat) : Option Cmd := p.cmds.find k
def Pkg.updCmd (p : Pkg) (k : Nat) (f : Cmd → Cmd) : Pkg :=
  match p.cmds.find k with
  | some c => { p with cmds := p.cmds.set k (f c) }
  | none => p

/-! Fields of a COLLECTIVE, and of a PHASE that is shared (R264, R349). -/

def Cmd.collGroup (c : Cmd) : Nat := if c.ty = 7 then c.f 32 2 % 4096 else c.f 30 2 % 4096
def Cmd.collCid (c : Cmd) : Nat := if c.ty = 7 then c.f 36 4 else c.f 40 4
/-- OP; a shared PHASE runs an ALL_GATHER (R349). -/
def Cmd.collOp (c : Cmd) : Nat := if c.ty = 7 then c.f 28 1 % 4 else 1
def Cmd.ranked (c : Cmd) : Bool := c.ty = 7 && c.f 28 1 / 4 % 2 = 1 && c.f 28 1 % 4 = 0
def Cmd.topk (c : Cmd) : Nat := if c.collOp = 0 then c.f 30 1 else 0
def Cmd.slots (c : Cmd) : Nat := clampTo 1 16 (c.f 31 1 % 32)
def Cmd.elems (c : Cmd) : Nat := c.f 40 4
def Cmd.gatherBytes (c : Cmd) : Nat := if c.ty = 7 then c.f 64 8 else 64
def Cmd.gatherDst (c : Cmd) : Nat := if c.ty = 7 then c.f 72 8 else c.f 48 8
def Cmd.blocks (c : Cmd) : Nat := (c.elems + 255) / 256

end Sys2Proof.Machine
end

