-- ==== Sys2Proof/Machine/FabOps.lean ====
section
/-! DEFINITION. Sending on the fabric: route tables and their default (R310 to R315), virtual channels and credits (R305,
R306, R311), injection and the PSIG hold of a bank switch (R308, R317), UNREACH (R313), job entries (R327, R328). -/
namespace Sys2Proof.Machine

def aRtStatus : Nat := rFAB_RT_STATUS.at 0 0 0
def aDim : Nat := rFAB_DIM.at 0 0 0

/-- R301: 0 and values above 128 act as 128. -/
def dimOf (n : Nat) : Nat := if n = 0 || 128 < n then 128 else n

/-- R315: the default entry for a destination, at a package. -/
def defaultRoute (x y sx sy d : Nat) : Nat :=
  let dx := d % 128
  let dy := d / 128
  if sx ≤ dx || sy ≤ dy then 7
  else if dx ≠ x then
    if (dx + sx - x) % sx ≤ sx / 2 then (if x + 1 = sx then 8 else 0) else 1 + (if x = 0 then 8 else 0)
  else if dy ≠ y then
    if (dy + sy - y) % sy ≤ sy / 2 then 2 + (if y + 1 = sy then 8 else 0) else 3 + (if y = 0 then 8 else 0)
  else 4

/-- R310: entry `d` of a route bank: as written, or as firmware filled it. -/
def Pkg.route (p : Pkg) (bank d : Nat) : Nat :=
  match p.fab.routes.find (16384 * bank + d) with
  | some e => e
  | none => defaultRoute (p.fab.fill.1 % 128) (p.fab.fill.1 / 128) p.fab.fill.2.1 p.fab.fill.2.2 d

/-- R303, R304: the traffic class of a frame type: 0 CTL, 1 RDV, 2 REQ, 3 RSP. -/
def tcOf (ty : Nat) : Nat :=
  if ty = 0x10 then 1
  else if ty = 0x1A || ty = 0x1B || 0x20 ≤ ty then 0
  else if ty = 0x03 || ty = 0x04 || ty = 0x06 || ty = 0x07 || ty = 0x15 || ty = 0x16 || ty = 0x19 then 3
  else 2

/-- R305: the neighbour's buffer of a class, in 64-byte units. -/
def bufferUnits (tc : Nat) : Nat := if tc = 2 then 8192 else if tc = 3 then 2048 else 128

def Frame.units (f : Frame) : Nat := (32 + f.payload.length + 63) / 64

def Port.init : Port :=
  { groups := [], nbrOk := false, nbr := 0, held := false, nbrGroups := 0, txSeq := 0, rxFrames := [], out := [], again := [],
    sent := [], credit := [], given := [], freed := [], served := [], better := 0, adv := none, stamps := none, tx := [], theta := 0 }
def Group.init : Group := ⟨false, none, false, false, [], 0, [], 0, 0, false, 0, []⟩
def Pkg.tport (p : Pkg) (i : Nat) : Port := p.fab.ports.getD i Port.init
def Pkg.updPort (p : Pkg) (i : Nat) (f : Port → Port) : Pkg :=
  { p with fab := { p.fab with ports := p.fab.ports.set i (f (p.tport i)) } }

def Pkg.updGroup (p : Pkg) (i g : Nat) (f : Group → Group) : Pkg := p.updPort i (fun q => { q with groups := q.groups.upd g Group.init f })
def Port.group (q : Port) (g : Nat) : Group := q.groups.getD g Group.init

/-- R292: a port is up while one of its groups is up and it is not disabled. -/
def Port.upGroups (q : Port) : List Nat := (q.groups.filter (fun g => g.2.up)).map Prod.fst
def Pkg.portUp (p : Pkg) (i : Nat) : Bool :=
  !(p.tport i).upGroups.isEmpty && p.fld (rFAB_PORT_CTRL.at 0 0 i) fFAB_PORT_CTRL_DISABLE = 0

/-- A frame can leave or arrive on a port that is up and whose neighbour is the right one (R292, R296). -/
def Pkg.open' (p : Pkg) (i : Nat) : Bool := p.portUp i && (p.tport i).nbrOk

/-- R293: the lane group of a frame's flow, among the groups that are up. -/
def flowGroup (f : Frame) (up : List Nat) : Nat :=
  let h := (crc32c (toBytes 2 f.src ++ toBytes 2 f.dst ++ toBytes 1 f.srcDie ++ toBytes 1 f.dstDie
    ++ toBytes 1 (tcOf f.ty) ++ toBytes 1 f.bank)).toNat
  up.getD (h % up.length) 0

/-- R22, R293: the die that owns a port's lane group, by variant. -/
def groupDie (dies port g : Nat) : Nat :=
  if dies = 2 then (if port = 0 then 1 else if port = 1 then 0 else if port = 2 then 0 else 1)
  else if dies = 4 then
    (if port = 0 then [1, 3] else if port = 1 then [0, 2] else if port = 2 then [0, 1] else [2, 3]).getD g 0
  else (if port = 0 then [3, 3, 7, 7] else if port = 1 then [0, 0, 4, 4] else if port = 2 then [1, 1, 2, 2]
    else [5, 5, 6, 6]).getD g 0

/-- R22, R332: lane groups that a port has, by variant. -/
def groupCount (dies : Nat) : Nat := dies / 2

/-- R302: the header bytes of a frame, which an UNREACH carries. -/
def Frame.header (f : Frame) : List Byte :=
  toBytes 1 f.ty ++ toBytes 1 (f.bank + 4 * f.vc + 8 * f.dstDie) ++ toBytes 2 f.dst ++ toBytes 2 f.src ++ toBytes 1 f.srcDie
    ++ toBytes 1 f.hops ++ toBytes 2 f.job ++ toBytes 2 f.epoch ++ toBytes 2 f.group ++ toBytes 2 f.payload.length
    ++ toBytes 4 f.id ++ toBytes 4 f.seq ++ toBytes 8 f.aux

/-- The header that an UNREACH's payload holds. -/
def Frame.ofHeader (h : List Byte) : Frame :=
  let g (o n : Nat) : Nat := ofBytes ((h.drop o).take n)
  ⟨g 0 1, g 1 1 % 4, g 1 1 / 4 % 2, g 1 1 / 8 % 8, g 2 2, g 4 2, g 6 1 % 8, g 7 1, g 8 2, g 10 2, g 12 2 % 4096, g 16 4,
    g 20 4, g 24 8, []⟩

def Frame.bytes (f : Frame) : List Byte := f.header ++ f.payload

/-! Flits (R290, R291). The fields of the link header, which R290 only names, and filler are the model's own (log 15). -/

/-- Port frame sequence number, flit sequence number, acknowledgement, credit: the class and channel, and the units returned so far. -/
def flitHeader (no seq ack k units : Nat) : List Byte :=
  toBytes 6 (no % 2 ^ 11 + 2 ^ 11 * (seq % 2 ^ 10) + 2 ^ 21 * (ack % 2 ^ 10) + 2 ^ 31 * (k % 8) + 2 ^ 34 * (units % 2 ^ 14))

/-- A flit of up to 242 bytes of frame data, with its CRC-64. -/
def flitOf (header data : List Byte) : List Byte :=
  let b := header ++ data ++ List.replicate (242 - data.length) 0#8
  b ++ toBytes 8 (crc64 b).toNat

/-- A flit without frame data: acknowledgement and credit; with a request for a replay from the acknowledged number on. -/
def Pkg.idleFlit (p : Pkg) (i g k : Nat) (replay : Bool) : Pkg :=
  let q := p.tport i
  let x := q.group g
  p.emit (.flit i g (flitOf (flitHeader q.txSeq x.txSeq x.rxSeq k (q.freed.getD k 0)) [if replay then 0xFF#8 else 0#8]))

/-- R305: units of an input buffer are free again, and the neighbour's credit for them returns. -/
def Pkg.freeUnits (p : Pkg) (i : Nat) (f : Frame) (vc : Nat) : Pkg :=
  if 4 ≤ i then p
  else
    let k := tcOf f.ty * 2 + vc
    let p := p.updPort i (fun q => { q with freed := q.freed.upd k 0 (fun x => (x + f.units) % 2 ^ 14) })
    match (p.tport i).upGroups with
    | g :: _ => p.idleFlit i g k false
    | [] => p

/-! Frames on their way into flits (R290): those that a lane group sends stand back to back, across flits; the rest of a flit is filler where
nothing follows at once, or a frame whose port frame sequence number is not the next one (log 15). -/

def TxPart.none : TxPart := ⟨0, [], []⟩
/-- The frame of a number may follow in the same flit. -/
def TxPart.follows (x : TxPart) (no : Nat) : Bool := x.data.isEmpty || (x.no + x.ends.length) % 2 ^ 11 = no
def Pkg.txPart (p : Pkg) (i g : Nat) : TxPart := p.fab.tx.getD (4 * i + g) TxPart.none
def Pkg.setTx (p : Pkg) (i g : Nat) (x : TxPart) : Pkg :=
  { p with fab := { p.fab with tx := if x.data.isEmpty then p.fab.tx.del (4 * i + g) else p.fab.tx.set (4 * i + g) x } }

/-- A flit of the group's frame bytes goes out, and stays in the replay buffer (R291). -/
def Pkg.sendFlit (p : Pkg) (i g no : Nat) (data : List Byte) (ends : List Nat) : Pkg :=
  let q := p.tport i
  let x := q.group g
  let k := x.txSeq % 8
  let raw := flitOf (flitHeader no x.txSeq x.rxSeq k (q.freed.getD k 0)) data
  (p.updGroup i g (fun x => { x with txSeq := (x.txSeq + 1) % 2 ^ 10, rtx := x.rtx ++ [⟨x.txSeq, raw, ends⟩] })).emit (.flit i g raw)

/-- The whole flits of what a group has to send. -/
def Pkg.wholeFlits (i g : Nat) : Nat → TxPart → Pkg → Pkg
  | 0, x, p => p.setTx i g x
  | fuel + 1, x, p =>
    if x.data.length < 242 then p.setTx i g x
    else
      let done := x.ends.filter (fun e => e ≤ 242)
      Pkg.wholeFlits i g fuel ⟨(x.no + done.length) % 2 ^ 11, x.data.drop 242, (x.ends.drop done.length).map (· - 242)⟩
        (p.sendFlit i g x.no (x.data.take 242) ((List.range done.length).map (fun j => (x.no + j) % 2 ^ 11)))

/-- A flit that is not full is filled up, and goes out. -/
def Pkg.fillUp (p : Pkg) (i g : Nat) : Pkg :=
  let x := p.txPart i g
  if x.data.isEmpty then p
  else (p.sendFlit i g x.no x.data ((List.range x.ends.length).map (fun j => (x.no + j) % 2 ^ 11))).setTx i g TxPart.none
/-- That of every group, once nothing more follows at once. -/
def Pkg.fillFlits (p : Pkg) : Pkg := (p.fab.tx.map Prod.fst).foldl (fun p k => p.fillUp (k / 4) (k % 4)) p

/-- R290, R293: a frame of a port frame sequence number goes out on a lane group. `ids`: those under which its bytes count (R422). -/
def Pkg.sendOn (p : Pkg) (i g no : Nat) (f : Frame) (ids : Ids) : Pkg :=
  let x := p.txPart i g
  let p := if x.follows no then p else p.fillUp i g
  let x := p.txPart i g
  let bytes := x.data ++ f.bytes
  let p := p.updPort i (fun q => { q with sent := q.sent ++ [(no, g, f)] })
  (Pkg.wholeFlits i g (bytes.length / 242) ⟨if x.data.isEmpty then no else x.no, bytes, x.ends ++ [bytes.length]⟩ p).countDie
    (groupDie p.board.dies i g) 26 (32 + f.payload.length) ids

/-- R291: the replay buffer of the flow's lane group, of 512 flits, has room for the frame of a port frame sequence number. -/
def Pkg.replayRoom (p : Pkg) (i no : Nat) (f : Frame) : Bool :=
  let q := p.tport i
  let g := flowGroup f q.upGroups
  let x := p.txPart i g
  (q.group g).rtx.length + (if x.follows no then (x.data.length + f.bytes.length + 241) / 242 else 1 + (f.bytes.length + 241) / 242) ≤ 512

/-- R422: the IDs of a frame that carries a JOB only. -/
def Frame.ids (f : Frame) : Ids := ⟨f.job, 0, 0⟩

/-- R422: the IDs under which a frame's bytes count: of the command of this package that it serves, by TAG or by EPOCH, GROUP and CID; of a
core's PSIG, those of the core; of any other frame only its JOB is known (DESIGN CHOICE, log 44). -/
def Pkg.frameIds (p : Pkg) (f : Frame) : Ids :=
  let here := f.src = p.coord
  let of (g : Cmd → Bool) : Ids := match p.cmds.find? (fun e => e.2.job = f.job && g e.2) with | some e => e.2.ids | none => f.ids
  if 0x10 ≤ f.ty && f.ty ≤ 0x1A then of (fun c => c.isColl && c.collEpoch = f.epoch && c.collGroup = f.group && c.collCid = f.id)
  else if (f.ty = 5 && here) || (f.ty = 6 && !here) then
    if f.seq = 0 then of (fun c => c.tag = f.id) else (p.core (f.seq - 1)).cids
  else if ((f.ty = 1 || f.ty = 2) && here) || ((f.ty = 3 || f.ty = 4) && !here) then of (fun c => c.tag = f.id)
  else f.ids

/-- R22, R420: the frame crosses the dovetail mesh from where it stands to the die of the lane group on which it leaves. -/
def Pkg.toGroup (p : Pkg) (i input g : Nat) (f : Frame) : Pkg :=
  let q := p.tport input
  let a := if 4 ≤ input then input - 4 else groupDie p.board.dies input (flowGroup f q.upGroups)
  if a = groupDie p.board.dies i g then p else p.countDie a 25 (32 + f.payload.length) (p.frameIds f)

/-- R305: a waiting frame leaves on a port that has credit for the whole of it; the buffer it stood in is free again. -/
def Pkg.transmit (p : Pkg) (i : Nat) (e : OutFrame) : Pkg :=
  let q := p.tport i
  let k := tcOf e.f.ty * 2 + e.f.vc
  let g := flowGroup e.f q.upGroups
  let p := p.updPort i (fun q => { q with credit := q.credit.upd k 0 (· + e.f.units), txSeq := (q.txSeq + 1) % 2 ^ 11,
                                          served := q.served.set k e.input })
  ((p.toGroup i e.input g e.f).sendOn i g q.txSeq e.f (p.frameIds e.f)).freeUnits e.input e.f e.vc

def Pkg.hasCredit (p : Pkg) (i : Nat) (f : Frame) : Bool :=
  (p.tport i).credit.getD (tcOf f.ty * 2 + f.vc) 0 + f.units ≤ bufferUnits (tcOf f.ty) && p.replayRoom i (p.tport i).txSeq f

/-- R306: the class order CTL, RSP, RDV, REQ, VC1 before VC0. -/
def servePrio (f : Frame) : Nat := ([0, 2, 3, 1].getD (tcOf f.ty) 3) * 2 + (1 - f.vc)

/-- R306, R308: the frames that may be served: of each input, class and channel the first one that waits, where there is credit for it. -/
def Pkg.heads (p : Pkg) (i : Nat) : List (Nat × OutFrame) :=
  let out := (p.tport i).out
  out.zipIdx.filterMap (fun x =>
    let e := x.1
    if (out.take x.2).any (fun d => d.input = e.input && tcOf d.f.ty = tcOf e.f.ty && d.f.vc = e.f.vc) || !p.hasCredit i e.f then none
    else some (x.2, e))

/-- R306: how far an input stands behind the one served last. -/
def Port.turn (q : Port) (e : OutFrame) : Nat :=
  match q.served.find (tcOf e.f.ty * 2 + e.f.vc) with
  | some l => (e.input + 12 - l - 1) % 12
  | none => e.input

/-- The waiting frame to serve: strict order of classes, VC1 before VC0, inputs in turn. -/
def Pkg.nextOut (p : Pkg) (i : Nat) : Option (Nat × OutFrame) :=
  let q := p.tport i
  (p.heads i).foldl (fun b x => match b with
    | none => some x
    | some y => if servePrio x.2.f < servePrio y.2.f || (servePrio x.2.f = servePrio y.2.f && q.turn x.2 < q.turn y.2) then some x else b) none

/-- Serves waiting frames while credit lasts; those of a group that went down go first (R293). -/
def Pkg.drainOut (i : Nat) : Nat → Pkg → Pkg
  | 0, p => p
  | n + 1, p =>
    if !p.open' i then p
    else
      match (p.tport i).again with
      | (no, f) :: l =>
        if p.replayRoom i no f then
          Pkg.drainOut i n ((p.updPort i (fun q => { q with again := l })).sendOn i (flowGroup f (p.tport i).upGroups) no f (p.frameIds f))
        else p
      | [] =>
        match p.nextOut i with
        | none => p
        | some (k, e) => Pkg.drainOut i n ((p.updPort i (fun q => { q with out := listDel q.out k })).transmit i e)
def Pkg.serve (p : Pkg) (i : Nat) : Pkg := Pkg.drainOut i ((p.tport i).out.length + (p.tport i).again.length) p

/-- R306: a frame goes to an output port: at once where nothing before it waits and there is credit. -/
def Pkg.output (p : Pkg) (i : Nat) (e : OutFrame) : Pkg := (p.updPort i (fun q => { q with out := q.out ++ [e] })).serve i

/-- R310, R311: where a frame goes from this hop: delivered here (`none`), or a port and its virtual channel; or why it
is not delivered (R313). -/
def Pkg.nextHop (p : Pkg) (f : Frame) (from? : Option Nat) : Except Nat (Option (Nat × Nat)) :=
  let e := p.route f.bank f.dst
  let port := e % 8
  if port = 4 then (if f.dst = p.coord then .ok none else .error 4)
  else if 5 ≤ port then .error 1
  else if f.hops ≤ 1 then .error 3
  else if !p.open' port then .error 2
  else
    let sameDim := match from? with | some q => q / 2 = port / 2 | none => false
    .ok (some (port, if e / 8 % 2 = 1 || (f.vc = 1 && sameDim) then 1 else 0))

/-- A frame with everything zero but what a sender names. -/
def Frame.mk' (ty dst dstDie srcDie job : Nat) : Frame :=
  ⟨ty, 0, 0, dstDie, dst, 0, srcDie, 255, job, 0, 0, 0, 0, 0, []⟩

/-- R317: the bank that frames are injected with now: NEXT of a pending switch once AT has come. -/
def Pkg.switchDue (p : Pkg) : Bool := p.fld aRtStatus fFAB_RT_STATUS_PEND = 1 && p.rd64 (rFAB_RT_AT.at 0 0 0) ≤ p.ftc.now
def Pkg.bank (p : Pkg) : Nat := if p.switchDue then p.fld aRtStatus fFAB_RT_STATUS_PENDING else p.fld aRtStatus fFAB_RT_STATUS_CUR

/-- R313: a frame is not delivered: it is discarded and counted, and its source hears of it. -/
def Pkg.unreachOf (p : Pkg) (f : Frame) (reason : Nat) : Frame :=
  { Frame.mk' 7 f.src f.srcDie 0 f.job with src := p.coord, bank := p.bank, id := f.id, aux := reason, payload := f.header }

/-- A frame of this package to a destination, under a bank, without the checks of injection. -/
def Pkg.launch (p : Pkg) (f : Frame) : Pkg :=
  let here (f : Frame) : Pkg := { p with fab := { p.fab with inbox := p.fab.inbox ++ [(4, f)] } }
  if f.dst = p.coord then here f
  else
    match p.nextHop f none with
    | .ok (some (i, vc)) => p.output i ⟨4 + f.srcDie, 0, { f with vc := vc, hops := f.hops - 1 }⟩
    | .ok none => here f
    | .error r =>
      let p := p.bumpSat (rFAB_UNREACH.at 0 0 0) fFAB_UNREACH_COUNT
      -- the source is this package
      if tcOf f.ty = 0 || f.ty = 7 then p else { p with fab := { p.fab with inbox := p.fab.inbox ++ [(4, p.unreachOf f r)] } }

/-- Injection of a frame: source and bank filled in, HOPS 255; nothing is injected once a drain stopped it (R329). -/
def Pkg.inject (p : Pkg) (f : Frame) : Pkg :=
  if p.fab.stopped && f.dst ≠ p.coord then p
  else p.launch { f with src := p.coord, bank := p.bank, hops := 255, vc := 0 }

/-! Link-local frames (R303, R296, R321): their fields as the model lays them out (log 15). They leave beside the flits, and no flit's replay
holds them up; their bytes count on the first lane group that is up, or that trains. -/

def Pkg.localGroup (p : Pkg) (i : Nat) : Nat :=
  match (p.tport i).upGroups, (p.tport i).groups.find? (fun g => g.2.trainSince.isSome) with
  | g :: _, _ => g
  | [], some g => g.1
  | [], none => 0
/-- R293, R420, R422: they belong to no command. -/
def Pkg.countLocal (p : Pkg) (i k bytes : Nat) : Pkg := p.countDie (groupDie p.board.dies i (p.localGroup i)) k (32 + bytes) .absent
def Pkg.sendLocal (p : Pkg) (i : Nat) (f : Frame) : Pkg := (p.countLocal i 26 f.payload.length).emit (.linkLocal i f)

/-- R319: this package is set as grandmaster. -/
def Pkg.isGM (p : Pkg) : Bool := p.fld (rFTC_CTRL.at 0 0 0) fFTC_CTRL_GM = 1
/-- R320: what the package advertises: the GM index, and DEPTH. -/
def Pkg.advert (p : Pkg) : Nat × Nat :=
  if p.ftc.parent < 4 then (p.ftc.gm, p.ftc.depth) else if p.isGM then (p.coord, if p.ftc.serving then 0 else 255) else (p.ftc.gm, 255)

/-- LINK_ID: part code, group count, physical and logical coordinate, FAB_DIM. -/
def Pkg.sendLinkId (p : Pkg) (i : Nat) : Pkg :=
  let body := toBytes 2 (p.fld (rHS_IDENT.at 0 0 0) fHS_IDENT_PART) ++ toBytes 1 (groupCount p.board.dies) ++ toBytes 1 p.px ++ toBytes 1 p.py
    ++ toBytes 2 p.coord ++ toBytes 1 (p.fld aDim fFAB_DIM_SX) ++ toBytes 1 (p.fld aDim fFAB_DIM_SY)
  p.sendLocal i { Frame.mk' 0x22 0 0 0 0 with payload := body }

/-! Job entries (R327, R328). -/
def aJob (k : Nat) : Nat := rFAB_JOB.at 0 0 k
def Pkg.jobIn (p : Pkg) (job st : Nat) : Option Nat :=
  (List.range 16).find? (fun k => p.fld (aJob k) fFAB_JOB_JOB = job && p.fld (aJob k) fFAB_JOB_STATE = st)
/-- R328: a frame of an aborted job. -/
def Pkg.jobAborted (p : Pkg) (job : Nat) : Bool := (p.jobIn job 2).isSome

/-! PSIG (R162, R163, R308, R309). -/

/-- R308: PSIGs of the core toward the package that are outstanding under another bank. -/
def Pkg.psigHeld (p : Pkg) (core : Option Nat) (dst : Nat) : Bool :=
  core.isSome && (p.fab.psigs.any (fun x => x.core = core && x.dst = dst && x.bank ≠ p.bank) ||
    p.fab.heldPsigs.any (fun x => x.1.core = core && x.1.dst = dst))

/-- A PSIG names its core in SEQ, 0 for a command's SIGNAL, and PSIG_ACK repeats SEQ and AUX (log 15). -/
def coreSeq : Option Nat → Nat
  | some k => k + 1
  | none => 0

/-- R308: a PSIG to another package is injected, or held across a bank switch. -/
def Pkg.sendPsig (p : Pkg) (core : Option Nat) (f : Frame) : Pkg :=
  let o : PsigOut := ⟨f.srcDie, core, f.dst, p.bank, f.aux % 2 ^ 32, f.id⟩
  let f := { f with seq := coreSeq core }
  if p.psigHeld core f.dst then { p with fab := { p.fab with heldPsigs := p.fab.heldPsigs ++ [(o, f)] } }
  else ({ p with fab := { p.fab with psigs := p.fab.psigs ++ [o] } }).inject f

/-- A PSIG frame, or its acknowledgement, belongs to an outstanding PSIG. -/
def PsigOut.is (o : PsigOut) (die dst seq aux tag : Nat) : Bool :=
  o.die = die && o.dst = dst && coreSeq o.core = seq && o.target = aux % 2 ^ 32 && o.tag = tag

/-- R317: own frames that still wait in their injection queues leave under the bank of now; a PSIG waits for those of its core that left
under the other one (R308). The copies of an ABORT are not routed, and stay (R326). -/
def Pkg.reinject (p : Pkg) : Pkg :=
  let own (e : OutFrame) : Bool := 4 ≤ e.input && e.f.ty < 0x20
  let es := (List.range 4).flatMap (fun i => (p.tport i).out.filter own)
  let p := (List.range 4).foldl (fun p i => p.updPort i (fun q => { q with out := q.out.filter (fun e => !own e) })) p
  let ps := es.filter (fun e => e.f.ty = 5)
  let p : Pkg := { p with fab := { p.fab with psigs := ps.foldr (fun e l =>
    (removeFirst (fun o => PsigOut.is o e.f.srcDie e.f.dst e.f.seq e.f.aux e.f.id) l.reverse).reverse) p.fab.psigs } }
  es.foldl (fun p e => if e.f.ty = 5 then p.sendPsig (if e.f.seq = 0 then none else some (e.f.seq - 1)) e.f else p.inject e.f) p

/-- R18, R160: an increment of a local peg; one of an unbound core is discarded. -/
def Pkg.addLocal (p : Pkg) (n c q k : Nat) : Pkg :=
  match p.phys n c with
  | some key => p.onKey key (fun x => x.addPeg q k)
  | none => p

/-- R162: N is added to the peg that SCOPE (1 to 4) and TARGET name. `core`: the sending core, where one sends;
`die`, `job`: of the sender. -/
def Pkg.signalPeg (p : Pkg) (core : Option Nat) (die job tag scope target k : Nat) : Pkg :=
  let coord := target / 2 ^ 18 % 2 ^ 14
  let sc := if 3 ≤ scope && coord = p.coord then scope - 2 else scope
  let n := target / 2 ^ 15 % 8
  if sc = 1 then p.addLocal n (target / 2 ^ 9 % 64) (target % 64) k
  else if sc = 2 then (if p.present n then p.addDpeg n (target % 256) k else p)
  else
    let f : Frame := { Frame.mk' 5 coord n die job with id := tag, aux := target + 2 ^ 32 * k + 2 ^ 48 * sc }
    p.sendPsig core f

end Sys2Proof.Machine
end

