-- ==== Sys2Proof/Machine/Commands.lean ====
section
/-! DEFINITION. Commands: traces (R428 to R430), completion and SIGNAL (R170, R379, R381),
fault policy and ABORT (R325 to R327, R389, R390), drain and flag (R414, R415), traps and aborts of cores (R170, R208,
R399), firing at arbitration points (R167 to R169, R339). -/
namespace Sys2Proof.Machine

/-! Traces (R428 to R430). -/

/-- R361: a line of a record that the host may hold. -/
def Pkg.heldLine (p : Pkg) (x : Posted) : Option Nat :=
  ((piecesOf x.addr x.data.length).map (fun y => lineOf y.1)).find? (fun l => match p.owner l with | some n => (p.die n).held.contains l | none => false)

/-- R350: the record in whose place alone a record is written still stands there; firmware reads it through the bench cache, and of a line
that cannot be read it knows nothing (log 44). -/
def Pkg.stillThere (p : Pkg) (x : Posted) : Pkg × Bool :=
  match x.was with
  | none => (p, true)
  | some old =>
    match p.readAt x.addr old.length 5 0 .absent with
    | (p, .ok bs) => (p, bs = old)
    | (p, .error _) => (p, false)

/-- A record lands in package-local memory, and then its HEAD advances (R426). It carries no IDs (R422). -/
def Pkg.landRecord (p : Pkg) (x : Posted) : Pkg :=
  let q := p.stillThere x
  let p := if q.2 then q.1.write x.addr x.data .absent else q.1
  match x.head with
  | some h => p.wr h.1 (BitVec.ofNat 32 h.2)
  | none => p

/-- R202: a record of the headstock that the tracker refused waits until it is woken. -/
def Pkg.headstockWaits (p : Pkg) : Bool :=
  (List.range p.board.dies).any (fun n => (p.die n).waits.any (fun w => w.who = .headstock && !w.woken))

/-- Records that wait land in order, until one needs a line that the host may hold: its snoop goes out (R361); or until the tracker refuses its
accesses (R200). -/
def Pkg.landPosted : Nat → Pkg → Pkg
  | 0, p => p
  | fuel + 1, p =>
    match p.posted with
    | [] => p
    | x :: xs =>
      match p.heldLine x with
      | some l => p.sendSnoop l true
      | none =>
        if p.headstockWaits then p
        else
          let l := piecesOf x.addr x.data.length
          let q := p.askAll .headstock (if x.was.isSome then l else []) l
          if q.2 then Pkg.landPosted fuel (({ q.1 with posted := xs }).landRecord x) else q.1

/-- A record for device memory lands, or waits. -/
def Pkg.post (p : Pkg) (x : Posted) : Pkg :=
  let q : Pkg := { p with posted := p.posted ++ [x] }
  Pkg.landPosted q.posted.length q

/-- R357, R426: a ring in host memory takes records while host memory can be reached; one that it cannot take is dropped (log 44). -/
def Pkg.ringOpen (p : Pkg) (sp : Nat) : Bool := sp ≠ 1 || p.hostMem

/-- A record into a ring in local or host memory (SP 1: host), and the HEAD that then advances. -/
def Pkg.ringWrite (p : Pkg) (sp a : Nat) (bs : List Byte) (head : Option (Nat × Nat)) : Pkg :=
  if sp = 1 then
    let p := p.hostWrite a bs
    match head with | some h => p.wr h.1 (BitVec.ofNat 32 h.2) | none => p
  else p.post ⟨a, bs, head, none⟩

/-- Where a ring's next record goes: HEAD, with the records that wait. -/
def Pkg.headNow (p : Pkg) (reg : Nat) : Nat :=
  ((p.posted.filterMap (fun x => x.head)).filter (fun h => h.1 = reg)).foldl (fun _ h => h.2) (p.rd reg).toNat
/-- R427, R430: a ring is emptied; the records that wait leave its HEAD at 0. -/
def Pkg.emptyRing (p : Pkg) (head tail : Nat) : Pkg :=
  let ps : List Posted := p.posted.map (fun x => if x.head.map Prod.fst = some head then { x with head := none } else x)
  (({ p with posted := ps }).wr head 0#32).wr tail 0#32

def traceBytes (ftc kind die core code job ring tag : Nat) (ids : Ids) (detail : Nat) : List Byte :=
  toBytes 8 ftc ++ toBytes 1 kind ++ toBytes 1 die ++ toBytes 1 core ++ toBytes 1 code ++ toBytes 2 job ++ toBytes 2 ring
    ++ toBytes 4 tag ++ toBytes 2 ids.layer ++ toBytes 2 ids.op ++ toBytes 8 detail

/-- One record into the trace ring, where it has room and the rate of the microsecond allows it. -/
def Pkg.tracePut (p : Pkg) (bs : List Byte) : Pkg × Bool :=
  let size := 2 ^ clampTo 12 31 (p.fld (rOBS_TRC_CTRL.at 0 0 0) fOBS_TRC_CTRL_SIZE_LOG2)
  let head := p.headNow (rOBS_TRC_HEAD.at 0 0 0)
  let tail := p.fld (rOBS_TRC_TAIL.at 0 0 0) fOBS_TRC_TAIL_TAIL
  let us := p.ftc.now / 1000
  let used := if p.fw.trcUs.1 = us then p.fw.trcUs.2 else 0
  let sp := p.fld (rOBS_TRC_CTRL.at 0 0 0) fOBS_TRC_CTRL_SP
  if size < (head + 2 ^ 32 - tail) % 2 ^ 32 + 32 || 64 ≤ used || !p.ringOpen sp then (p, false)
  else
    let p := p.ringWrite sp (p.rd64 (rOBS_TRC_BASE.at 0 0 0) + head % size) bs
      (some (rOBS_TRC_HEAD.at 0 0 0, (head + 32) % 2 ^ 32))
    ({ p with fw := { p.fw with trcUs := (us, used + 1) } }, true)

def Pkg.traceDrop (p : Pkg) : Pkg :=
  let p := { p with fw := { p.fw with trcLost := p.fw.trcLost + 1 } }
  p.bumpSat (rOBS_TRC_STATUS.at 0 0 0) fOBS_TRC_STATUS_LOST

/-- R428 to R430: a trace record of a kind; after records were dropped, a LOST record stands before it. -/
def Pkg.trace (p : Pkg) (kind die core code job ring tag : Nat) (ids : Ids) (detail : Nat) : Pkg :=
  let want := p.fld (rOBS_TRC_JOB.at 0 0 0) fOBS_TRC_JOB_JOB
  if p.fld (rOBS_TRC_CTRL.at 0 0 0) fOBS_TRC_CTRL_SIZE_LOG2 = 0 then p
  else if p.fld (rOBS_TRC_CTRL.at 0 0 0) fOBS_TRC_CTRL_KINDS / 2 ^ kind % 2 = 0 then p
  else if want ≠ 0 && want ≠ job then p
  else
    let r : Pkg × Bool :=
      if p.fw.trcLost = 0 then (p, true)
      else
        let q := p.tracePut (traceBytes p.ftc.now 15 255 255 0 0 0 0 .zero p.fw.trcLost)
        if q.2 then ({ q.1 with fw := { q.1.fw with trcLost := 0 } }, true) else (p, false)
    if r.2 then
      let q := r.1.tracePut (traceBytes r.1.ftc.now kind die core code job ring tag ids detail)
      if q.2 then q.1 else r.1.traceDrop
    else p.traceDrop

def Pkg.traceCmd (p : Pkg) (c : Cmd) (kind code detail : Nat) : Pkg := p.trace kind 255 255 code c.job c.ring c.tag c.ids detail

/-! Completion. -/

/-- R401: progress of a job. -/
def Pkg.progress (p : Pkg) (job : Nat) : Pkg := { p with fw := { p.fw with jobFtc := p.fw.jobFtc.set job p.ftc.now } }

/-- R166, R374: SIGNAL is applied. -/
def Pkg.applySignal (p : Pkg) (c : Cmd) : Pkg :=
  let s := c.f 20 8
  if s / 2 ^ 63 = 1 then p.signalPeg none 0 c.job c.tag (s / 2 ^ 56 % 8) (s % 2 ^ 32) (s / 2 ^ 32 % 2 ^ 16) else p

/-- R381: the statuses with which SIGNAL is applied. -/
def signals (status : Nat) : Bool := status = 0 || status = 3 || status = 4

/-- R420: the die on which counter 30 counts a command. -/
def Pkg.countedOn (p : Pkg) (c : Cmd) : Nat :=
  if c.ty = 1 || c.ty = 2 then ((List.range 8).find? (fun n => c.f 28 1 / 2 ^ n % 2 = 1)).getD 0
  else if c.ty = 3 || c.ty = 4 || c.ty = 10 then c.engDie
  else if c.ty = 5 || c.ty = 6 then (p.owner (c.f 32 8)).getD 0
  else if c.isColl then c.collDie
  else if c.ty = 11 then c.f 28 1 % 8
  else 0

def aLedgerCtrl : Nat := rHS_LEDGER_CTRL.at 0 0 0
/-- R350, R355: records are stored; where record `n` stands. -/
def Pkg.ledgerOn (p : Pkg) : Bool := p.fld aLedgerCtrl fHS_LEDGER_CTRL_SIZE_LOG2 ≠ 0
def Pkg.ledgerAt (p : Pkg) (n : Nat) : Nat :=
  p.rd64 (rHS_LEDGER_BASE.at 0 0 0) / 64 * 64 % 2 ^ 48 + 64 * (n % 2 ^ clampTo 6 20 (p.fld aLedgerCtrl fHS_LEDGER_CTRL_SIZE_LOG2))

/-- R264: the address for a further die: the same offset in the same tier. -/
def Pkg.otherDie (a n m : Nat) : Nat := if a < 0x20000000000 then a - hbmBase n + hbmBase m else a - ddrBase n + ddrBase m

/-- The dies that receive a copy; bit DIE is implied. -/
def Pkg.copyDies (p : Pkg) (n : Nat) (c : Cmd) : List Nat :=
  (List.range p.board.dies).filter (fun m => m = n || (c.ty = 7 && c.f 29 1 / 2 ^ m % 2 = 1))

/-- R277, R287: what a collective of `cnt` members that has halted or aborted leaves unpredictable: address and length. -/
def Pkg.collRanges (p : Pkg) (c : Cmd) (cnt : Nat) : List (Nat × Nat) :=
  let everyDie (len : Nat) : List (Nat × Nat) :=
    (p.copyDies c.collDie c).map (fun m => (if m = c.collDie then c.gatherDst else Pkg.otherDie c.gatherDst c.collDie m, len))
  if c.collOp = 1 then everyDie (cnt * c.gatherBytes)
  else if c.collOp = 2 then (c.f 88 8, 1600 * ((c.blocks + cnt - 1) / cnt)) :: everyDie (4 * c.elems)
  else if c.ranked then [(c.f 72 8, 4 * c.elems), (c.f 88 8, c.slots * (4 * c.elems))]
  else (c.f 72 8, 1600 * c.blocks) :: (if c.topk = 0 then [] else [(c.f 80 8, 4 * (cnt * c.elems))])

/-- N of the group of a collective; of one that has not started, as its group record has it (R262, log 42). -/
def Pkg.groupSize (p : Pkg) (c : Cmd) : Nat :=
  if c.prog ≠ 0 then c.prog else clampTo 1 65536 (p.field (p.rd64 (rHS_GROUP_BASE.at 0 0 0) % 2 ^ 48 + 64 * c.collGroup) 4)

def Pkg.collLost (p : Pkg) (c : Cmd) : Pkg :=
  (p.collRanges c (p.groupSize c)).foldl (fun p r =>
    let x := p.fresh
    { x.1 with mem := p.mem.scramble r.1 (r.1 + r.2) (2 ^ 44 + x.2) }) p

/-- R350: a stored ledger record is written again, as `new`, unless a newer record stands in its place. -/
def Pkg.rewriteRecord (p : Pkg) (place : Option Nat) (old new : List Byte) : Pkg :=
  match place with
  | some a => { p with posted := p.posted ++ [⟨a, new, none, some old⟩] }
  | none => p

/-- R348: SHARE_FAIL set. -/
def shareFailed (r : List Byte) : List Byte := listSet r 5 (r.getD 5 0#8 ||| 0x10#8)

/-- R269, R348, R402: what the end of a collective leaves: its ready records are released, one that ended with HANG is remembered; one
that halted or aborted leaves its destinations unpredictable (R287), and a share that failed marks its ledger record. -/
def Pkg.collEnded (p : Pkg) (c : Cmd) (status : Nat) : Pkg :=
  if !c.isColl then p
  else
    let p := p.updDie c.collDie (fun d => { d with
      ready := d.ready.filter (fun r => !(r.epoch = c.collEpoch && r.group = c.collGroup && r.cid = c.collCid))
      hung := if status = 10 then (c.collEpoch, c.collGroup, c.collCid) :: d.hung else d.hung })
    let p := if status = 5 || status = 6 then p.collLost c else p
    if c.ty = 9 && (status = 5 || status = 6) then p.rewriteRecord c.recAt c.record (shareFailed c.record)
    else if c.ty = 9 && status = 0 then
      { p with fw := { p.fw with shares := p.fw.shares ++ [⟨c.record, c.recAt, c.prog, c.f 48 8, c.suspect⟩] } }
    else p

/-- R167, R382: the arbitration point at which what happens now is evaluated. -/
def Pkg.point (p : Pkg) : Nat := (p.ftc.now + 7) / 8

/-- R166 to R170, R366, R379, R381: a command ends with a status. SIGNAL comes before the completion entry, which falls
due (none where NOCQ is set and the status is OK: the entry of the table is released at once). -/
def Pkg.finish (p : Pkg) (k status d0 d1 : Nat) : Pkg :=
  match p.cmds.find k with
  | none => p
  | some c =>
    if c.fin ≠ none then p
    else
      let el := match c.fire with | some t => min (p.ftc.now - t) 0xFFFFFFFF | none => 0
      let p := if signals status then p.applySignal c else p
      let p := p.collEnded c status
      let p := (p.countDie (p.countedOn c) 30 1 c.ids).progress c.job
      if c.nocq && status = 0 then { p with cmds := p.cmds.del k }
      else
        let p := p.traceCmd c 3 status el    -- R429: a completion entry is due
        { p with cmds := p.cmds.set k { c with stage := .done, fin := some ⟨status, d0, d1, el, p.point, 0⟩ } }

/-! Stopping cores (R170, R208, R390). -/

/-- R208, steps 1 and 3, and R170: the core issues no word after the one that stands in its next beat, its GTH
operations abort without their pegs, and data returned for them is discarded. -/
def Core.stop (c : Core) : Core :=
  { c with seq := { c.seq with stopping := true }, threads := []
           fillA := c.fillA.filter (fun f => f.stream = none), fillB := c.fillB.filter (fun f => f.stream = none)
           reqs := c.reqs.map (fun r => { r with waiters := [] }) }

/-- R245, R420: an UPDATE ends on a core: its working space is unpredictable. -/
def Core.endUpd (c : Core) (ids : Ids) (seed now : Nat) : Core :=
  { (c.countAs ids 20 (c.ran now)) with bench := c.bench.scramble 0x280000 0x300000 seed
                                        benchUE := ueClear c.benchUE 0x280000 0x80000, upd := none }
def Pkg.endUpdOn (p : Pkg) (c : Cmd) (key code : Nat) : Pkg :=
  let x := p.fresh
  (x.1.onKey key (fun q => q.endUpd c.ids (2 ^ 40 + x.2) p.ftc.now)).trace 5 (key / 72) (((p.die (key / 72)).logical (key % 72)).getD 255) code
    c.job c.ring c.tag c.ids 0

/-- The command whose program or UPDATE a core runs. -/
def Core.cmdNo (c : Core) : Nat := match c.upd with | some u => u.1 | none => c.seq.cmd

/-- Every core of a command stops: a running program stops, an UPDATE ends, one still in a start queue is taken out. -/
def Pkg.stopCores (p : Pkg) (k : Nat) (but : Option Nat) : Pkg :=
  match p.cmds.find k with
  | none => p
  | some c =>
    let p := c.left.foldl (fun p x =>
      match p.phys (x / 64) (x % 64) with
      | none => p
      | some key =>
        if some key = but then p
        else if (p.core key).upd.isSome && (p.core key).cmdNo = k then p.endUpdOn c key 2
        else if (p.core key).seq.running && (p.core key).seq.cmd = k then p.onKey key Core.stop
        else p.onKey key (fun q => { q with startq := q.startq.filter (fun e => !(e.cmd = k)) })) p
    p.updCmd k (fun c => { c with left := c.left.filter (fun x =>
      match p.phys (x / 64) (x % 64) with
      | some key => (p.core key).seq.running && (p.core key).seq.cmd = k
      | none => false) })

/-- R382: the order of endings; the lower one is reported. -/
def endingRank (status : Nat) : Nat :=
  if status = 9 then 0 else if status = 10 then 1 else if status = 6 || status = 7 then 2 else if status = 1 then 3
  else if status = 2 then 4 else if status = 5 then 5 else 6

/-- R170, R382: of two endings, the first is reported; of two of one arbitration point the stronger one, then that of the lower
package-wide logical core. -/
def Ending.first (old new : Ending) : Ending :=
  if old.point = new.point && (endingRank new.status < endingRank old.status ||
      (endingRank new.status = endingRank old.status && new.core < old.core)) then new else old

/-- The trap or abort that a command reports once it has ended. `core`: the logical core it comes from. -/
def Pkg.failCmd (p : Pkg) (k status d0 d1 : Nat) (core : Nat := 0) : Pkg :=
  let e : Ending := ⟨status, d0, d1, 0, p.point, core⟩
  p.updCmd k (fun c => { c with fail := some (match c.fail with | none => e | some old => old.first e) })

/-- R382: another ending reaches a command that has failed at the same arbitration point, and whose entry is still due. -/
def Pkg.lateEnding (p : Pkg) (k status d0 d1 : Nat) : Pkg :=
  p.updCmd k (fun c => { c with fin := c.fin.map (fun e =>
    if signals e.status then e else { e.first ⟨status, d0, d1, e.elapsed, p.point, 0⟩ with elapsed := e.elapsed }) })

/-- R170: a KERNEL or UPDATE ends once its program has ended on every core of its set. -/
def Pkg.endIfDone (p : Pkg) (k : Nat) : Pkg :=
  match p.cmds.find k with
  | some c =>
    if c.left.isEmpty && c.stage = .running then
      match c.fail with
      | some e => p.finish k e.status e.d0 e.d1
      | none => p.finish k 0 0 0
    else p
  | none => p

/-! Ending a job (R390). -/

/-- Takes a command out of the queues and engines of the dies. -/
def Die.drop (d : Die) (k : Nat) : Die :=
  { d with engs := d.engs.filter (fun e => !(e.2 = k)), engParked := d.engParked.filter (fun e => d.engs.find e ≠ some k), engq := d.engq.filter (fun x => !(x = k))
           scrub := if d.scrub = some k then none else d.scrub, scrubParked := d.scrubParked && d.scrub ≠ some k, scrubq := d.scrubq.filter (fun x => !(x = k))
           streams := d.streams.filter (fun e => !(e.2.cmd = k)), collq := d.collq.filter (fun x => !(x = k)) }

/-- A command leaves engines, queues and streams; nothing that it asked another package for comes in any more (R402). -/
def Pkg.dropCmd (p : Pkg) (k : Nat) : Pkg :=
  let p := (List.range p.board.dies).foldl (fun p n => p.updDie n (fun d => d.drop k)) p
  { p with fab := { p.fab with reads := p.fab.reads.filter (fun r => !(r.cmd = k)), writes := p.fab.writes.filter (fun r => !(r.cmd = k)) } }

def aEpoch : Nat := rHS_EPOCH.at 0 0 0

/-- R390: one command ends with the given statuses: `coll` for COLLECTIVE, EPOCH and PHASE with SHARE, `other` for the
rest. A running program ends under R170; everything else ends at once. -/
def Pkg.endCmd (p : Pkg) (coll other d0 d1 : Nat) (k : Nat) : Pkg :=
  match p.cmds.find k with
  | none => p
  | some c =>
    if c.fin ≠ none then p.lateEnding k (if c.isColl || c.ty = 8 then coll else other) d0 d1
    else if c.stage = .running && (c.ty = 1 || c.ty = 2) then
      let p := (p.failCmd k other d0 d1).stopCores k none
      p.endIfDone k
    else
      let p := p.dropCmd k
      let p : Pkg := if c.ty = 8 && p.fw.epochCmd = some k then
          { (p.setFld aEpoch fHS_EPOCH_PENDING (p.fld aEpoch fHS_EPOCH_CUR)) with
            fw := { p.fw with epochCmd := none, epochSent := false } }
        else p
      p.finish k (if c.isColl || c.ty = 8 then coll else other) d0 d1

/-- R269, R327, R390: the job's commands end, and its ready records are released. `late`: of commands that are complete, too, the ending of the
same arbitration point is weighed (R382); the ABORT of a fault policy follows them, and does not affect them (R389). -/
def Pkg.abortJob (p : Pkg) (job origin : Nat) (late : Bool := true) : Pkg :=
  let ks := (p.cmds.filter (fun e => e.2.job = job && (late || e.2.fin = none))).map Prod.fst
  let p := ks.foldl (fun p k => p.endCmd 6 7 origin 0 k) p
  let p := (List.range p.board.dies).foldl (fun p n =>
    p.updDie n (fun d => { d with ready := d.ready.filter (fun r => !(r.job = job)) })) p
  { p with fw := { p.fw with abortPend := if p.fw.abortPend.contains job then p.fw.abortPend else p.fw.abortPend ++ [job] } }

/-- R327: an ABORT for a job reaches this package: an armed entry of it goes to state 2 and the job ends. JOB 0 is no job
(R374). -/
def Pkg.takeAbort (p : Pkg) (job origin : Nat) (late : Bool := true) : Pkg :=
  if job = 0 then p
  else match p.jobIn job 1 with
  | none => p
  | some k =>
    let p := p.setFld (aJob k) fFAB_JOB_STATE 2
    let p : Pkg := { p with fab := { p.fab with origins := p.fab.origins.set job origin } }
    let p := p.wr (rFAB_ABORT_LAST.at 0 0 0) (putFld (putFld 0#32 fFAB_ABORT_LAST_JOB job) fFAB_ABORT_LAST_ORIGIN origin)
    p.abortJob job origin late

/-- R326: a key is remembered; where the table of 64 is full the oldest is replaced. -/
def Pkg.rememberKey (p : Pkg) (job origin seq : Nat) : Pkg :=
  let ks := if 64 ≤ p.fab.keys.length then p.fab.keys.drop 1 else p.fab.keys
  { p with fab := { p.fab with keys := ks ++ [(job, origin, seq, p.ftc.now)] } }

/-- R326: an ABORT frame goes out on every port that is up with NBR_OK, but the one it came from. -/
def Pkg.flood (p : Pkg) (f : Frame) (from? : Option Nat) : Pkg :=
  (List.range 4).foldl (fun p i =>
    if some i ≠ from? && p.open' i then p.output i ⟨4, 0, { f with hops := f.hops - 1, vc := 0 }⟩ else p) p

/-- R325, R327: this package originates an ABORT for a job; it applies the same steps to itself. -/
def Pkg.sendAbort (p : Pkg) (job : Nat) (late : Bool := true) : Pkg :=
  let s := p.fab.abortSeq % 2 ^ 16
  let f : Frame := { Frame.mk' 0x20 0 0 0 job with src := p.coord, bank := p.bank, seq := s, aux := p.coord }
  let p := { p with fab := { p.fab with abortSeq := p.fab.abortSeq + 1 } }
  let p := (p.rememberKey job p.coord s).flood f none
  p.takeAbort job p.coord late

/-- R386, R389: an event under a bit of HS_FAULT_POLICY: it is sent, and an ABORT originates where the bit is 1 and the
command has a job. -/
def Pkg.policyAborts (p : Pkg) (bit : Fld) (job : Nat) : Bool := p.fld (rHS_FAULT_POLICY.at 0 0 0) bit = 1 && job ≠ 0
def Pkg.policyEvent (p : Pkg) (bit : Fld) (e : Event) : Pkg :=
  let go := p.policyAborts bit e.job
  let p := p.event { e with action := if go then 4 else 0 }
  if go then p.sendAbort e.job false else p

/-- R386, R389: the same of a command whose programs still run: the event is sent now, and the ABORT follows the command's end, so that
the command ends with the status of its own event. -/
def Pkg.policyLater (p : Pkg) (bit : Fld) (k : Nat) (e : Event) : Pkg :=
  let go := p.policyAborts bit e.job
  let p := p.event { e with action := if go then 4 else 0 }
  if go then p.updCmd k (fun c => { c with abortDue := true }) else p

/-- R389: the ABORTs of commands that have ended. -/
def Pkg.abortsDue (p : Pkg) : Pkg :=
  (p.cmds.filter (fun e => e.2.abortDue && e.2.fin ≠ none)).foldl (fun p e =>
    (p.updCmd e.1 (fun c => { c with abortDue := false })).sendAbort e.2.job false) p

/-! Drain and flag (R329, R414, R415). -/
/-- R329, steps 1 and 2: ABORT for every armed entry, and injection stops. -/
def Pkg.drain (p : Pkg) : Pkg :=
  let p := (List.range 16).foldl (fun p k =>
    if p.fld (aJob k) fFAB_JOB_STATE = 1 then p.sendAbort (p.fld (aJob k) fFAB_JOB_JOB) else p) p
  { p with fab := { p.fab with stopped := true }, fw := { p.fw with draining := true } }

def Pkg.drainFlag (p : Pkg) (reason : Nat) : Pkg := p.drain.flag reason

/-! What a core's act brings with it. -/

/-- The logical core of a physical core's key. -/
def Pkg.lcore (p : Pkg) (key : Nat) : Option Nat := (p.die (key / 72)).logical (key % 72)

def Trap.cause : Trap → Nat
  | .none => 0 | .fetchEcc => 1 | .fetchBound => 2 | .raise _ => 3
def Trap.code : Trap → Nat
  | .raise c => c
  | _ => 0

def coreEvent (p : Pkg) (key code : Nat) : Event :=
  let c := p.core key
  let cmd := p.cmds.find c.cmdNo
  let ids := if c.upd.isSome then (cmd.map Cmd.ids).getD .zero else c.seq.ids
  { Event.blank code with die := key / 72, lcore := (p.lcore key).getD 255, pcore := key % 72,
                          job := (cmd.map Cmd.job).getD 0, tag := if c.upd.isSome then (cmd.map Cmd.tag).getD 0 else c.seq.tag,
                          layer := ids.layer, op := ids.op }

/-- R170, R172, R381: a core has trapped: the command ends with TRAP, the other cores stop. -/
def Pkg.trapped (p : Pkg) (key : Nat) : Pkg :=
  let c := p.core key
  let d0 := 2 ^ 29 * (key / 72) + 2 ^ 23 * (p.lcore key).getD 0 + 2 ^ 16 * c.seq.trap.cause + c.seq.trap.code
  let p := (p.failCmd c.seq.cmd 1 d0 c.seq.pc (64 * (key / 72) + (p.lcore key).getD 0)).stopCores c.seq.cmd (some key)
  p.policyLater fHS_FAULT_POLICY_TRAP c.seq.cmd { coreEvent p key 0x21 with detail := c.seq.trap.cause }

/-- R208, R209, R381: a GTH operation has aborted: every core of the command stops. -/
def Pkg.gathered (p : Pkg) (key : Nat) : Pkg :=
  let c := p.core key
  let g := c.gfault
  let d1 := 2 ^ 60 * g.cause + 2 ^ 57 * (key / 72) + 2 ^ 51 * (p.lcore key).getD 0 + g.desc / 64
  let p := (p.failCmd c.seq.cmd 2 g.pos d1 (64 * (key / 72) + (p.lcore key).getD 0)).stopCores c.seq.cmd none
  p.policyLater fHS_FAULT_POLICY_GATHER c.seq.cmd { coreEvent p key 0x22 with detail := g.cause, addr := g.addr }

/-- R386, R399: CORE_UE: the core is fenced; a running program's job is ended (JOB 0: the package resets). -/
def Pkg.coreUE (p : Pkg) (key : Nat) : Pkg :=
  let c := p.core key
  let n := key / 72
  let e := coreEvent p key 0x11
  let run := c.seq.running || c.upd.isSome
  let job := (p.cmds.find c.cmdNo).map Cmd.job |>.getD 0
  let p := p.fence n (key % 72)
  -- R17: rebind, or drain and flag where no spare is left
  let spare := if (p.nextSpare n).isSome then 2 else 48
  if run then
    let p := (p.event { e with action := if job = 0 then 1 + p.faultAction 0x11 else 5 + spare, windowFrom := match c.upd with | some u => u.2 | none => c.seq.startFtc }).onKey key Core.stop
    let p : Pkg := { p with fw := { p.fw with rebindAfter := p.fw.rebindAfter.set key c.cmdNo } }
    if job = 0 then p.wantReset 0x11 else p.sendAbort job
  else p.event { e with action := 1 + spare, job := 0, tag := 0, layer := 0, op := 0 }

/-- The act of a physical core, with what it raises: CORE_UE (R177), a trap (R172), a gather abort (R208). -/
def Pkg.act (p : Pkg) (key : Nat) (f : Core → Core) : Pkg :=
  let old := p.core key
  let p := p.onKey key f
  let new := p.core key
  let p := if new.ue && !old.ue then (p.onKey key (fun c => { c with ue := false })).coreUE key else p
  let p := if new.seq.trap ≠ .none && old.seq.trap = .none then p.trapped key else p
  if new.aborted && !old.aborted then p.gathered key else p

/-- R317: a pending bank switch takes place once its FTC value has come. -/
def Pkg.switchBank (p : Pkg) : Pkg :=
  let new := p.fld aRtStatus fFAB_RT_STATUS_PENDING
  let p := (p.setFld aRtStatus fFAB_RT_STATUS_PEND 0).fwSet aRtStatus fFAB_RT_STATUS_CUR new
  ((p.bumpWrap aRtStatus fFAB_RT_STATUS_SWITCHES).trace 9 255 255 new 0 0 0 .zero (p.rd64 (rFAB_RT_AT.at 0 0 0))).reinject
def Pkg.switchNow (p : Pkg) : Pkg := if p.switchDue then p.switchBank else p

/-- What a command leaves to be done at once: a bank switch whose time has come (R317), uncorrectable words that an agent read from a bench (R177, R386), the ABORTs that
follow the end of a command (R389), records that waited (R200, R361), the trace of the event records sent (R429, kind 8), and flits that are not full (R290). -/
def Pkg.settle (p : Pkg) : Pkg :=
  let p := p.switchNow.abortsDue
  let p := Pkg.landPosted p.posted.length p
  let p := (p.cores.filter (fun e => e.2.ue)).foldl (fun p e => (p.onKey e.1 (fun c => { c with ue := false })).coreUE e.1) p
  let es := p.fw.evTrace
  let p : Pkg := { p with fw := { p.fw with evTrace := [] }, admitted := []
                          answered := p.answered.filter (fun l => !p.used.contains l), used := [] }
  (es.foldl (fun p e => p.trace 8 e.die e.lcore e.code e.job 0 e.tag ⟨e.job, e.layer, e.op⟩ e.seq) p).fillFlits

/-! Firing (R167 to R169, R339). -/

/-- R168: the counts of a command's WAITs on one die peg, summed. -/
def Cmd.waits (c : Cmd) : List (Nat × Nat × Nat) :=
  [c.f 12 4, c.f 16 4].filterMap (fun w => if w / 2 ^ 31 % 2 = 1 then some (w / 2 ^ 28 % 8, w / 2 ^ 20 % 256, w % 65536) else none)

def Pkg.waitsOk (p : Pkg) (c : Cmd) : Bool :=
  c.waits.all (fun w => p.present w.1 &&
    (c.waits.filter (fun v => v.1 = w.1 && v.2.1 = w.2.1)).foldl (fun t v => t + v.2.2) 0 ≤ p.dpeg w.1 w.2.1)

/-- R168: each count is subtracted from its peg. -/
def Pkg.takeWaits (p : Pkg) (c : Cmd) : Pkg := c.waits.foldl (fun p w => p.setDpeg w.1 w.2.1 (p.dpeg w.1 w.2.1 - w.2.2)) p

/-- R166: the logical cores of a KERNEL or UPDATE, in rank order, on the dies present (R385). -/
def Pkg.coreSet (p : Pkg) (c : Cmd) : List Nat :=
  ((List.range 8).filter (fun n => c.f 28 1 / 2 ^ n % 2 = 1 && p.present n)).flatMap (fun n =>
    (List.range (c.f 30 1)).map (fun i => n * 64 + c.f 29 1 + i))

/-- R98: the width a die presents. -/
def Pkg.width (p : Pkg) (n : Nat) : Nat :=
  if p.fld (rCORE_KERF_POLICY.at n 0 0) fCORE_KERF_POLICY_WIDTH = 1 then 120 else 128

/-- R169: every start queue of the set has room. -/
def Pkg.roomFor (p : Pkg) (c : Cmd) : Bool :=
  (p.coreSet c).all (fun x => match p.phys (x / 64) (x % 64) with
    | some key => (p.core key).startq.length < 4
    | none => true)

/-- R59: a request joins the governor's queue: in order of arrival, those of one arbitration point by logical core. A spare under test has no
logical number, and stands last, as number 64 (DESIGN CHOICE, log 44). -/
def Pkg.govAsk (p : Pkg) (n c : Nat) (wake : Bool) : Pkg :=
  p.updDie n (fun d =>
    let lc (r : GovReq) : Nat := (d.logical r.core).getD 64
    let x : GovReq := ⟨c, wake, p.point⟩
    { d with gov := d.gov.takeWhile (fun r => r.point < x.point || (r.point = x.point && lc r ≤ lc x))
        ++ x :: d.gov.dropWhile (fun r => r.point < x.point || (r.point = x.point && lc r ≤ lc x)) })

/-- R57, R59, R61: work for a core: a gated core's wake-up joins the governor queue; a core that only waits to be gated
stays awake, and its request is withdrawn. -/
def Pkg.wake (p : Pkg) (key : Nat) : Pkg :=
  let c := p.core key
  if c.pwr = .gated then (p.setCore key { c with pwr := .wakeQueued }).govAsk (key / 72) (key % 72) true
  else if c.pwr = .gateQueued then
    (p.setCore key { c with pwr := .awake }).updDie (key / 72) (fun d => { d with gov := d.gov.filter (fun r => !(r.core = key % 72)) })
  else p

/-- R18, R169: a fired KERNEL or UPDATE is placed in the start queue of every bound core of its set, where its program starts as
usual; an unbound core traps at once with cause UNBOUND, and so a program that starts issues no word. -/
def Pkg.place2 (p : Pkg) (k : Nat) (c : Cmd) : Pkg :=
  let set := p.coreSet c
  let p := set.zipIdx.foldl (fun p x =>
    match p.phys (x.1 / 64) (x.1 % 64) with
    | none => p
    | some key =>
      let e : StartEntry := { cmd := k, upd := c.ty = 2, ring := c.ring, rank := x.2, cores := set.length, image := c.f 32 8,
                              arg0 := BitVec.ofNat 64 (c.f 40 8), arg1 := BitVec.ofNat 64 (c.f 48 8),
                              iflush := c.ty = 1 && c.f 31 1 % 2 = 1, tag := c.tag, ids := c.ids, width := p.width (x.1 / 64) }
      (p.onKey key (fun q => { q with startq := q.startq ++ [e] })).wake key) p
  let p := p.updCmd k (fun c => { c with stage := .running, left := set.filter (fun x => (p.phys (x / 64) (x % 64)).isSome) })
  match set.find? (fun x => (p.phys (x / 64) (x % 64)).isNone) with
  | some x =>
    let p := p.failCmd k 1 (2 ^ 29 * (x / 64) + 2 ^ 23 * (x % 64) + 4 * 2 ^ 16) 0 x
    let p := p.policyLater fHS_FAULT_POLICY_TRAP k { Event.blank 0x21 with
      die := x / 64, lcore := x % 64, job := c.job, tag := c.tag, layer := c.ids.layer, op := c.ids.op, detail := 4 }
    p.endIfDone k
  | none => p.endIfDone k

/-- R169: commands that fired and wait for start queues, in firing order; one that shares a core with an earlier waiter
waits behind it. -/
def Pkg.placeWaiting (p : Pkg) : List Nat → List Nat → Pkg
  | [], _ => p
  | k :: ks, busy =>
    match p.cmds.find k with
    | none => Pkg.placeWaiting p ks busy
    | some c =>
      let set := p.coreSet c
      if set.any busy.contains || !p.roomFor c then Pkg.placeWaiting p ks (busy ++ set)
      else Pkg.placeWaiting (p.place2 k c) ks busy

/-- R281: epoch `e` is newer than the current one. -/
def newerEpoch (e cur : Nat) : Bool := let d := (e + 65536 - cur % 65536) % 65536; 1 ≤ d && d ≤ 32767

/-- R339: a class-3 KERNEL or UPDATE fires only onto idle cores, onto which nothing of class 0 to 2 fires now. -/
def Pkg.class3Ok (p : Pkg) (c : Cmd) (hit : List Nat) : Bool :=
  (p.coreSet c).all (fun x => !hit.contains x && (match p.phys (x / 64) (x % 64) with
    | some key => (p.core key).startq.isEmpty && !(p.core key).seq.running && (p.core key).upd.isNone
    | none => true))

/-- R433: whether an arm entry names the tensor and step of a DUMP. -/
def Pkg.dumpArmed (p : Pkg) (c : Cmd) : Bool :=
  c.f 31 1 % 2 = 1 || (List.range 16).any (fun i =>
    let a := rOBS_DUMP_ARM.at 0 0 i
    let v := p.rd64 a
    v / 2 ^ 32 = c.f 32 4 && c.f 32 4 ≠ 0 && (v % 2 ^ 32 = c.f 36 4 || v % 2 ^ 32 = 0xFFFFFFFF))

/-- The conditions of a command at its firing stage but for its pegs. An absent die leaves it unfired (R385). -/
def Pkg.mayFire (p : Pkg) (c : Cmd) (hit : List Nat) : Bool :=
  if c.ty = 1 || c.ty = 2 then c.prio ≠ 3 || p.class3Ok c hit
  else if c.isColl then !newerEpoch c.collEpoch (p.fld aEpoch fHS_EPOCH_CUR) && p.present c.collDie
  else if c.ty = 3 || c.ty = 4 || c.ty = 10 then p.present c.engDie
  else if c.ty = 11 then p.present (c.f 28 1 % 8)
  else if c.ty = 8 then p.fw.epochCmd = none
  else true

/-- R167, R168, R373: a command fires: its pegs are subtracted, its FTC taken, and it goes where its type runs. -/
def Pkg.fire (p : Pkg) (k : Nat) (c : Cmd) : Pkg :=
  let p := (p.takeWaits c).progress c.job
  let p := (p.updCmd k (fun c => { c with fire := some p.ftc.now, stage := .fired })).traceCmd c 2 c.ty 0
  if c.ty = 3 || c.ty = 4 || (c.ty = 10 && p.dumpArmed c) then
    (p.updDie c.engDie (fun d => { d with engq := d.engq ++ [k] })).updCmd k (fun c => { c with stage := .queued })
  else if c.ty = 5 || c.ty = 6 then
    match p.owner (c.f 32 8) with
    | some n => (p.updDie n (fun d => { d with scrubq := d.scrubq ++ [k] })).updCmd k (fun c => { c with stage := .queued })
    | none => p
  else if c.ty = 7 then
    (p.updDie c.collDie (fun d => { d with collq := d.collq ++ [k] })).updCmd k (fun c => { c with stage := .queued })
  else if c.ty = 8 then
    { (p.setFld aEpoch fHS_EPOCH_PENDING (c.f 28 2)) with fw := { p.fw with epochCmd := some k, epochSent := false } }
  else if c.ty = 9 then
    (p.updCmd k (fun c => { c with idx := if p.ftc.st = .locked then 0 else 1 })).traceCmd c 7 (c.f 28 1 / 16 % 2)
      (2 ^ 32 * c.f 32 4 + c.f 28 1 % 16)
  else p

/-- Commands at the firing stage by class, then by arrival (R168). -/
def firesBefore (a b : Nat × Cmd) : Bool := a.2.prio < b.2.prio || (a.2.prio = b.2.prio && a.2.arr ≤ b.2.arr)

def insertBy {α : Type} (lt : α → α → Bool) (x : α) : List α → List α
  | [] => [x]
  | y :: ys => if lt x y then x :: y :: ys else y :: insertBy lt x ys
def sortBy {α : Type} (lt : α → α → Bool) (l : List α) : List α := l.foldr (insertBy lt) []

/-- R168, R339: the candidates of one arbitration point in order; `hit`: cores onto which a class 0 to 2 command fired. -/
def Pkg.fireAll : List (Nat × Cmd) → List Nat → Pkg → Pkg
  | [], _, p => p
  | (k, c) :: xs, hit, p =>
    if p.waitsOk c && p.mayFire c hit then
      Pkg.fireAll xs (if (c.ty = 1 || c.ty = 2) && c.prio ≠ 3 then hit ++ p.coreSet c else hit) (p.fire k c)
    else Pkg.fireAll xs hit p

/-- R374: an ORDER command may be dispatched: every earlier command of its ring has completed, its entry written or none due. -/
def Pkg.orderOk (p : Pkg) (k : Nat) (c : Cmd) : Bool :=
  !c.order || !(p.cmds.any (fun e => e.1 < k && e.2.ring = c.ring))

/-- R373: no command fetched earlier has still to reach its firing stage, those that ORDER keeps back apart. -/
def Pkg.dispatchTurn (p : Pkg) (k : Nat) : Bool :=
  !p.cmds.any (fun e => e.1 < k && e.2.stage = .fetched && e.2.fin = none && p.orderOk e.1 e.2)

/-- R373: a command reaches its firing stage. -/
def Pkg.dispatch (p : Pkg) (k : Nat) : Pkg :=
  { (p.updCmd k (fun c => { c with stage := .firing, arr := p.arrivals })) with arrivals := p.arrivals + 1 }

/-- R169: KERNELs and UPDATEs that fired and wait for start queues, in firing order. -/
def Pkg.startWaiters (p : Pkg) : List (Nat × Cmd) :=
  sortBy (fun a b : Nat × Cmd => a.2.fire.getD 0 < b.2.fire.getD 0 || (a.2.fire = b.2.fire && firesBefore a b))
    (p.cmds.filter (fun e => e.2.stage = .fired && (e.2.ty = 1 || e.2.ty = 2)))

/-- R167: the arbitration point at the FTC value of now. -/
def Pkg.arbitrateNow (p : Pkg) : Pkg :=
  if p.fw.inReset then p
  else
    let late := (p.cmds.filter (fun e => e.2.stage = .fetched && e.2.fin = none && p.orderOk e.1 e.2)).map Prod.fst
    let p := late.foldl (fun p k => p.dispatch k) p
    let p := Pkg.fireAll (sortBy firesBefore (p.cmds.filter (fun e => e.2.stage = .firing))) [] p
    p.placeWaiting (p.startWaiters.map Prod.fst) []

end Sys2Proof.Machine
end

