-- ==== Sys2Proof/Machine/Clock.lean ====
section
/-! DEFINITION. What passes with the clock: windows of 1 µs (R53), TSYNCs (R321), arbitration points (R167), bank switches (R317), slewing
(R322); and how a command that takes time moves the FTC past them (log 2). -/
namespace Sys2Proof.Machine

/-- R53: at a multiple of 1,000 ticks the next window of 1 µs begins on every die. That windows follow each other, where the rule bounds any
1 µs, is the model's choice (DESIGN CHOICE, log 44). -/
def Pkg.newWindows (p : Pkg) : Pkg :=
  { p with cores := List.map (fun e : Nat × Core => (e.1, { e.2 with windowBeats := 0 })) p.cores }

/-- TSYNC: the stamps of the neighbour's last one, the send stamp, the advertisement, whether the FTC is LOCKED or in HOLDOVER. -/
def Pkg.sendTsync (p : Pkg) (i : Nat) : Pkg :=
  let q := p.tport i
  let t3 : Int := 32 * (p.ftc.now : Int)
  let i64 (z : Int) : List Byte := toBytes 8 (z % 2 ^ 64).toNat
  let echo := match q.stamps with | some s => i64 s.1 ++ i64 s.2 ++ [1#8] | none => toBytes 17 0
  let steady : Byte := if p.ftc.st = .locked || p.ftc.st = .holdover then 1#8 else 0#8
  let body := echo ++ i64 t3 ++ toBytes 2 p.advert.1 ++ toBytes 1 p.advert.2 ++ [steady]
  (p.updPort i (fun q => { q with tx := (t3 :: q.tx).take 4 })).sendLocal i { Frame.mk' 0x21 0 0 0 0 with payload := body }

/-- R295, R321: a port sends TSYNCs: it is up with NBR_OK, or a group of it trains and is past step 4. -/
def Pkg.sendsTsync (p : Pkg) (i : Nat) : Bool :=
  p.open' i || (p.tport i).groups.any (fun g => g.2.trainSince.isSome && g.2.idSeen)
/-- Every 1,000 ticks. -/
def Pkg.sendTsyncs (p : Pkg) : Pkg := (List.range 4).foldl (fun p i => if p.sendsTsync i then p.sendTsync i else p) p

/-- The FTC stands at tick `t`: a bank switch whose time has come takes place (R317); at a multiple of 1,000 a window of 1 µs has ended (R53),
and TSYNCs go out (R321); at one of 8 the commands that may fire do (R167). Nothing of this moves the clock, and no act of it needs a line that
the host may hold. -/
def Pkg.atTick (p : Pkg) (t : Nat) : Pkg :=
  let q := ({ p with ftc := { p.ftc with now := t } } : Pkg).switchNow
  let q := if t % 1000 = 0 then q.newWindows.sendTsyncs else q
  let q := (if t % 8 = 0 then q.arbitrateNow else q).settle
  { q with touched := p.touched, answered := p.answered, used := p.used, ftc := { q.ftc with now := t } }

/-- The FTC counts one tick. What follows 2^64 - 1 is not given: the model counts on, FTC_NOW shows the low 64 bits, and times are compared whole
(DESIGN CHOICE, log 44). -/
def Pkg.count (p : Pkg) : Pkg := p.atTick (p.ftc.now + 1)

/-- R322: the direction in which slewing moves the clock: toward the parent; in HOLDOVER as it last was (log 33). -/
def Ftc.slewing (t : Ftc) : Int := if t.st = .holdover then t.rate else t.slew.sign
/-- What remains to be taken out by slewing after `n` ticks of it. -/
def Ftc.took (t : Ftc) (n now : Nat) : Ftc :=
  { t with slew := if t.st = .holdover then t.slew else t.slew - n * t.slew.sign, slewAt := now }

/-- R322: a tick of slewing, at most one in 5,000 (200 ppm): the clock gains a tick, or stands for one. With the ticks that it then counts. -/
def Ftc.slewed (t : Ftc) : Ftc × Nat :=
  if t.slewing = 0 || t.now < t.slewAt + 5000 then (t, 1) else (t.took 1 t.now, if 0 < t.slewing then 2 else 0)

/-- The same of a clock that moves on to `now` at once: a tick of slewing every 5,000. -/
def Ftc.slewTo (t : Ftc) (now : Nat) : Ftc :=
  let first := max t.now (t.slewAt + 5000)
  if t.slewing = 0 || now < first then t
  else
    let n := (now - first) / 5000 + 1
    let n := if t.st = .holdover then n else min n t.slew.natAbs
    t.took n (first + 5000 * (n - 1))

/-- R322: one tick of the clock, as slewing has it. -/
def Pkg.tick (p : Pkg) : Pkg :=
  let x := p.ftc.slewed
  iterate Pkg.count x.2 { p with ftc := x.1 }

def insertTick (t : Nat) : List Nat → List Nat
  | [] => [t]
  | y :: ys => if t < y then t :: y :: ys else if t = y then y :: ys else y :: insertTick t ys

/-- The ticks up to `t` at which something is due: the arbitration points while commands wait (each moves one on at least, or none after it
does), the multiples of 1,000 at which TSYNCs go out (without any, the last one ends the windows of 1 µs), the FTC value of a bank switch. -/
def Pkg.duePoints (p : Pkg) (t : Nat) : List Nat :=
  let now := p.ftc.now
  let waiting := (p.cmds.filter (fun e => e.2.stage = .fetched || e.2.stage = .firing || e.2.stage = .fired)).length
  let arb := if waiting = 0 then [] else
    (List.range (min (3 * waiting + 1) (t / 8 - now / 8))).map (fun i => 8 * (now / 8 + 1 + i))
  let us := if (List.range 4).any p.sendsTsync then (List.range (t / 1000 - now / 1000)).map (fun i => 1000 * (now / 1000 + 1 + i))
    else if now / 1000 < t / 1000 then [1000 * (t / 1000)] else []
  let at' := p.rd64 (rFAB_RT_AT.at 0 0 0)
  let sw := if p.fld aRtStatus fFAB_RT_STATUS_PEND = 1 && now < at' && at' ≤ t then [at'] else []
  (arb ++ sw ++ us).foldr insertTick []

/-- The clock moves on to `t`, past what is due before, and never backward (log 2, R322). -/
def Pkg.until (p : Pkg) (t : Nat) : Pkg :=
  if t ≤ p.ftc.now then p
  else
    let q := (p.duePoints t).foldl Pkg.atTick p
    { q with ftc := { p.ftc.slewTo t with now := t } }
def Pkg.after (p : Pkg) (dt : Nat) : Pkg := p.until (p.ftc.now + dt)

/-- ARBITRATION_POINT (R167): the next FTC value that is a multiple of 8. -/
def Pkg.arbitrate (p : Pkg) : Pkg :=
  let t := (p.ftc.now / 8 + 1) * 8
  (p.until (t - 1)).atTick t

end Sys2Proof.Machine
end

