-- ==== Sys2Proof/Machine/Suspect.lean ====
section
/-! DEFINITION. Suspect units: trim and ceiling steps (R54 to R56), the suspect action (R400), the action for slowness
(R353), and the rates that raise it (R396). -/
namespace Sys2Proof.Machine

/-- R52: the fixed-mode base voltage, in mV. -/
def Pkg.vfixed (p : Pkg) (n : Nat) : Nat := clampTo 550 850 (p.fld (rCD_VCTRL.at n 0 0) fCD_VCTRL_VFIXED)
def Pkg.fixedMode (p : Pkg) (n : Nat) : Bool := p.fld (rCD_VCTRL.at n 0 0) fCD_VCTRL_MODE = 1

/-- R54: the effective trim, and the base voltage in force: up to the next control period by the MODE and VFIXED before a commit (R64). -/
def Pkg.trim (p : Pkg) (n : Nat) : Nat := min 5 (p.fld (rCD_VTRIM.at n 0 0) fCD_VTRIM_TRIM)
def Pkg.base (p : Pkg) (n : Nat) : Nat :=
  match (p.die n).oldVctrl with
  | some x => if x.1 = 1 then clampTo 550 850 x.2 else (p.die n).baseMv
  | none => if p.fixedMode n then p.vfixed n else (p.die n).baseMv

/-- R54: a voltage step would exceed TRIM 5 or 0.85 V on some die. -/
def Pkg.needsCeiling (p : Pkg) : Bool :=
  (List.range p.board.dies).any (fun n => 5 < p.trim n + 1 || 850 < p.base n + 10 * (p.trim n + 1))

/-! Commits of a die's clamp register (R11, R40, R42). -/

/-- R40: the block of a word that holds CL fields, as its clamp register's k. -/
def clampOf : Blk → Nat → Nat
  | .hs, _ => 0 | .ring, _ => 1 | .fab, _ => 2 | .ftc, _ => 3 | .mgt, _ => 4 | .obs, _ => 5 | .mtr, _ => 16
  | _, n => 8 + n
def clampAt (a : Nat) : Nat := match locOf a with | some l => clampOf l.blk l.die | none => 16

/-- Column groups that a die's cores must present (R93, R98). -/
def Pkg.groupsNeeded (p : Pkg) (n : Nat) : Nat := p.width n / 8

/-- R97: a core takes the committed runtime map. -/
def aKerfRt (key : Nat) : Nat := rCORE_KERF_RT.at (key / 72) (key % 72) 0
def Pkg.takeKerf (p : Pkg) (key : Nat) : Pkg :=
  let x := p.fresh
  let rt := p.fld (aKerfRt key) fCORE_KERF_RT_MASK
  x.1.setCore key ((p.core key).applyKerf ((p.die (key / 72)).kerfFuse.getD (key % 72) 0) rt (p.groupsNeeded (key / 72)) (2 ^ 41 + x.2))

/-- R64: CEIL changes; the old one stays in force to the end of the window. -/
def Die.keepCeil (d : Die) (old window : Nat) : Die :=
  { d with oldCeil := match d.oldCeil with | some x => if x.1 = window then d.oldCeil else some (window, old) | none => some (window, old) }

/-- R92: CORE_OPA_CTRL changes: a RUN that has reached the head of the queue keeps the old value. -/
def Core.keepCtl (c : Core) (old : Nat) : Core :=
  match c.queue with
  | e :: es => { c with queue := { e with ctl := some (e.ctl.getD old) } :: es }
  | [] => c

/-- What a commit of a word of a CD block does beyond its new value. OVER_ALLOC is cleared where the committed MODE differs from the
one in effect (log 42). -/
def Pkg.committedCd (p : Pkg) (l : Loc) (old new : Word) : Pkg :=
  match l.blk with
  | .kerf => let key := coreKey l.die l.unit; if ((p.die l.die).logical l.unit).isNone then p.takeKerf key else p
  | .core => if l.off = 0x200 && p.cores.any (fun e => e.1 = coreKey l.die l.unit) then p.onKey (coreKey l.die l.unit) (fun c => c.keepCtl old.toNat) else p
  | .cd =>
    if l.off = 0x1010 && old ≠ new then
      let p := p.updDie l.die (fun d => { d with oldVctrl := some (d.oldVctrl.getD (bits old 16 1, bits old 0 10)) })
      if bits old 16 1 ≠ bits new 16 1 then p.setFld (rCD_VSTATUS.at l.die 0 0) fCD_VSTATUS_OVER_ALLOC 0 else p
    else if l.off = 0x1008 && bits old 0 8 ≠ bits new 0 8 then p.updDie l.die (fun d => d.keepCeil (bits old 0 8) (p.ftc.now / 1000))
    else if l.off = 0x1000 && old ≠ new then
      p.updDie l.die (fun d => { d with oldGate := some (d.oldGate.getD (bits old 16 8)), oldSlew := some (d.oldSlew.getD (bits old 8 8)) })
    else p
  | _ => p

/-- The CL fields of one shadow word take their values. -/
def Pkg.takeShadow (p : Pkg) (e : Nat × Word) (w : WordSpec) : Pkg :=
  let cl := BitVec.ofNat 32 w.cl
  p.wr e.1 ((p.rd e.1 &&& ~~~cl) ||| (e.2 &&& cl))

/-- One shadow word of a CD block takes effect. -/
def Pkg.commitCdWord (p : Pkg) (e : Nat × Word) : Pkg :=
  match wordSpec e.1, locOf e.1 with
  | some w, some l => let q := p.takeShadow e w; q.committedCd l (p.rd e.1) (q.rd e.1)
  | _, _ => p

/-- A commit of CD n: every shadow copy of the block takes effect together, and the commit is counted (R40, R41). -/
def Pkg.commitCd (p : Pkg) (n : Nat) : Pkg :=
  let mine := p.shadow.filter (fun e => clampAt e.1 = 8 + n)
  let p := { p with shadow := p.shadow.filter (fun e => !(clampAt e.1 = 8 + n)) }
  (mine.foldl Pkg.commitCdWord p).bumpWrap (rHS_CLAMP.at 0 0 (8 + n)) fHS_CLAMP_COUNT

/-- R41, R453: firmware writes a CL field of CD n and commits; what others wrote to the block's shadow copies takes effect with it. -/
def Pkg.fwCommit (p : Pkg) (n a : Nat) (f : Fld) (x : Nat) : Pkg :=
  let v := putFld ((p.shadow.find a).getD (p.rd a)) f x
  let p := ({ p with shadow := p.shadow.set a v }).jput 3 3 4 true a v.toNat
  (p.jput 2 3 4 false (rHS_CLAMP.at 0 0 (8 + n)) 1).commitCd n

/-- R54: a voltage step on every die. -/
def Pkg.voltageStep (p : Pkg) : Pkg :=
  (List.range p.board.dies).foldl (fun p n => p.fwCommit n (rCD_VTRIM.at n 0 0) fCD_VTRIM_TRIM (p.trim n + 1)) p

/-- R55: a ceiling step on every die. -/
def Pkg.ceilingStep (p : Pkg) : Pkg :=
  (List.range p.board.dies).foldl (fun p n =>
    p.fwCommit n (rCD_RATE_CEIL.at n 0 0) fCD_RATE_CEIL_CEIL (max 50 (p.fld (rCD_RATE_CEIL.at n 0 0) fCD_RATE_CEIL_CEIL - 10))) p

def Pkg.ceilingSpent (p : Pkg) : Bool :=
  (List.range p.board.dies).any (fun n => p.fld (rCD_RATE_CEIL.at n 0 0) fCD_RATE_CEIL_CEIL ≤ 50)

def Pkg.suspectAction (p : Pkg) : Nat := p.fld (rHS_SUSPECT.at 0 0 0) fHS_SUSPECT_ACTION

/-- R400: INTERMITTENT and INTEGRITY_RATE: the event, with the action it takes. -/
def Pkg.suspect (p : Pkg) (code n count : Nat) : Pkg :=
  let e := { Event.blank code with die := n, detail := count }
  if p.suspectAction = 0 then (p.event { e with action := 48 }).drainFlag code
  else if !p.needsCeiling then (p.event { e with action := 64 }).voltageStep
  else if p.ceilingSpent then (p.event { e with action := 48 }).drainFlag code
  else (p.event { e with action := 128 }).ceilingStep

/-- R352, R353: SLOW: the event, with the action it takes; never a ceiling step. -/
def Pkg.slowAction (p : Pkg) : Pkg :=
  let e := Event.blank 0x81
  if p.suspectAction = 0 || p.needsCeiling then (p.event { e with action := 48 }).drainFlag 0x81
  else ((p.event { e with action := 64 }).voltageStep).bumpSat (rHS_SLOW_STATUS.at 0 0 0) fHS_SLOW_STATUS_TRIM_STEPS

/-- Times within the last `span` ticks, and now. -/
def Pkg.recent (p : Pkg) (l : List Nat) (span : Nat) : List Nat := p.ftc.now :: l.filter (fun t => p.ftc.now < t + span)

/-- R233, R386, R396: a data-path integrity event of a die. -/
def Pkg.datapath (p : Pkg) (n addr : Nat) : Pkg :=
  let l := p.recent (p.fw.datapath.getD n []) 3600000000000
  let p := { p with fw := { p.fw with datapath := p.fw.datapath.set n l } }
  let p := p.event { Event.blank 0x41 with die := n, addr := addr }
  if 4 ≤ l.length then p.suspect 0x83 n l.length else p

/-- R396: an unreproduced failure of a die. -/
def Pkg.unreproduced (p : Pkg) (n : Nat) : Pkg :=
  let l := p.recent (p.fw.unrepro.getD n []) 86400000000000
  let p := { p with fw := { p.fw with unrepro := p.fw.unrepro.set n l } }
  if 2 ≤ l.length then p.suspect 0x82 n l.length else p

end Sys2Proof.Machine
end

