-- ==== Sys2Proof/Machine/Power.lean ====
section
/-! DEFINITION. Power and time of a die (chapter 2): the control loop (R50 to R53, R63, R476), the beat-rate ceiling, rail
and temperature limits (R49), the start governor (R57 to R61). -/
namespace Sys2Proof.Machine

/-- What a control period reads (R50, R63, R476): the regulator's and the sensors' reports. -/
structure Telemetry where
  power : Nat                -- sustained power of the die over the last ms, mW
  predicted : Nat            -- predicted power at 10 mV more, mW
  tj : Nat                   -- °C
  answered : Bool            -- the AVSBus answered
  rate : Nat                 -- measured rate of the die, Mbeat/s
  others : Nat               -- mean measured rate of the other dies
  fastest : Nat
  slowest : Nat
  deriving DecidableEq, Repr

/-- R25: allocation of a die in mW, by variant. -/
def allocation (dies : Nat) : Nat := if dies = 2 then 535000 else if dies = 4 then 552500 else 555000

/-- R49, R53, R64: the effective ceiling, in units of 10 Mbeat/s. -/
def Pkg.ceiling (p : Pkg) (n : Nat) : Nat :=
  if (p.die n).tripped then 50
  else
    let ceil := p.fld (rCD_RATE_CEIL.at n 0 0) fCD_RATE_CEIL_CEIL
    max 50 (min (match (p.die n).oldCeil with | some x => if x.1 = p.ftc.now / 1000 then x.2 else ceil | none => ceil) (p.die n).fwCeil)

/-- R53: beats that a core may complete in a window of 1 µs. -/
def Pkg.windowLimit (p : Pkg) (n : Nat) : Nat := 10 * p.ceiling n

/-- CEILING_WINDOW: the next window begins; a committed CEIL takes effect (R64). -/
def Pkg.ceilingWindow (p : Pkg) (n : Nat) : Pkg :=
  let p := p.until (1000 * (p.ftc.now / 1000 + 1))
  { p with cores := p.cores.map (fun e => (e.1, if e.1 / 72 = n then { e.2 with windowBeats := 0 } else e.2)) }

/-- R50, R63: the next base voltage in adaptive mode. A die that R63 raises is raised up to 100 °C, beyond the 95 °C of R50, and lowered above
(DESIGN CHOICE, log 44). -/
def nextBase (d : Die) (t : Telemetry) (alloc trim : Nat) : Nat :=
  if alloc < t.power || 100 < t.tj then max 550 (d.baseMv - 10)
  else if d.baseMv + 10 * trim < 850 && t.predicted ≤ alloc && (t.tj ≤ 95 || d.raising) then d.baseMv + 10
  else d.baseMv

/-- R50, R52: the firmware ceiling. -/
def nextCeil (old : Nat) (lower : Bool) : Nat := if lower then max 50 (old - 5) else min 255 (old + 5)

def aPower : Nat := rHS_POWER_STATUS.at 0 0 0

/-- R476: VR_FAIL bit n. -/
def Pkg.setVrFail (p : Pkg) (n : Nat) (b : Bool) : Pkg :=
  let old := p.fld aPower fHS_POWER_STATUS_VR_FAIL
  p.setFld aPower fHS_POWER_STATUS_VR_FAIL (putBit old n b)
where putBit (x i : Nat) (b : Bool) : Nat := x - x / 2 ^ i % 2 * 2 ^ i + (if b then 2 ^ i else 0)

/-- CONTROL_PERIOD (R50 to R52, R63, R476): 1 ms of a die's control loop. -/
def Pkg.controlPeriod (p : Pkg) (n : Nat) (t : Telemetry) : Pkg :=
  if !p.present n || p.fw.inReset then p
  else
    let alloc := allocation p.board.dies
    let trim := p.trim n
    let p := p.wr (rCD_BEAT_RATE.at n 0 0) (BitVec.ofNat 32 (65536 * (t.fastest % 65536) + t.slowest % 65536))
    let p := p.updDie n (fun d => { d with oldVctrl := none })
    let d := p.die n
    let missed := if t.answered then 0 else d.avsMissed + 1
    let slow := if 100 * t.rate < 97 * t.others then d.slowFor + 1 else 0
    let raising := (d.raising || 16 ≤ slow) && 100 * t.rate < 97 * t.others && d.baseMv + 10 * trim < 850 && t.predicted ≤ alloc
    let p := p.setVrFail n (3 ≤ missed)
    let d := { d with avsMissed := missed, slowFor := slow, raising := raising, tj := t.tj }
    if p.fixedMode n then
      let set := clampTo 550 850 (p.vfixed n + 10 * trim)
      let p := if alloc < t.power then p.bumpSat (rCD_VSTATUS.at n 0 0) fCD_VSTATUS_OVER_ALLOC else p
      p.updDie n (fun _ => { d with raising := false, slowFor := 0
                                    setMv := if t.answered then set else d.setMv
                                    fwCeil := if 3 ≤ missed then 50 else nextCeil d.fwCeil (100 < t.tj) })
    else
      let v := nextBase d t alloc trim
      p.updDie n (fun _ => { d with baseMv := v
                                    setMv := if t.answered then min 850 (v + 10 * trim) else d.setMv
                                    fwCeil := if 3 ≤ missed then 50
                                              else nextCeil d.fwCeil (v = 550 && (alloc < t.power || 100 < t.tj)) })

/-! R49. -/
def Pkg.droop (p : Pkg) (n : Nat) : Pkg := p.bumpSat (rCD_DROOP.at n 0 0) fCD_DROOP_COUNT
def Pkg.thermal (p : Pkg) (n : Nat) : Pkg := (p.updDie n (fun d => { d with tripped := true })).packageFault 0x73 (some n)

/-! The start governor. -/

/-- R57, R64: admissions per µs, now in effect. -/
def Pkg.govN (p : Pkg) (n : Nat) : Nat :=
  max 1 (min 4 (max 12 ((p.die n).oldSlew.getD (p.fld (rCD_GOV_CTRL.at n 0 0) fCD_GOV_CTRL_SLEW)) * 2 / 25))

/-- A core that has no work. -/
def Core.idle (c : Core) : Bool := !c.seq.running && c.startq.isEmpty && c.upd.isNone

/-- R64: IDLE_GATE as the governor has it. -/
def Pkg.idleGate (p : Pkg) (n : Nat) : Nat := (p.die n).oldGate.getD (p.fld (rCD_GOV_CTRL.at n 0 0) fCD_GOV_CTRL_IDLE_GATE)

/-- GATE_DOWN (R57): a core without work for IDLE_GATE × 1,024 beats asks to be gated. -/
def Pkg.gateDown (p : Pkg) (n c : Nat) : Pkg :=
  let key := coreKey n c
  let q := p.core key
  if c < 72 && p.present n && q.idle && q.pwr = .awake && p.idleGate n ≠ 0 &&
      (p.fw.tests.find key).isNone then
    (p.setCore key { q with pwr := .gateQueued }).govAsk n c false
  else p

/-- ADMISSION (R57, R59, R64): the first request is admitted, at its spacing and not before its arbitration point, unless work of the core
withdraws it until then (R61); committed settings of the governor are in force from here on. -/
def Pkg.admission (p : Pkg) (n : Nat) : Pkg :=
  match (p.die n).gov with
  | [] => p
  | r :: rs =>
    let key := coreKey n r.core
    if !r.wake && (p.core key).pwr ≠ .gateQueued then p.updDie n (fun d => { d with gov := rs })
    else
      let p := p.until (max (p.die n).govNext (8 * r.point))
      if (p.die n).gov.head? ≠ some r then p
      else
        let t := p.ftc.now
        let p := p.updDie n (fun d => { d with gov := d.gov.drop 1, oldGate := none, oldSlew := none })
        let p := p.updDie n (fun d => { d with govNext := t + 1000 / p.govN n })
        p.setCore key { p.core key with pwr := if r.wake then .ungating t else .gated }

/-- UNGATE (R60): 800 ns after its admission. -/
def Pkg.ungate (p : Pkg) (n c : Nat) : Pkg :=
  let key := coreKey n c
  match (p.core key).pwr with
  | .ungating t =>
    let p := p.until (t + 800)
    p.setCore key { p.core key with pwr := .ramp }
  | _ => p

/-- ROW_GROUP_RAMP (R60): 64 beats of the array; the OPA's idle beats count from its end. -/
def Pkg.rowGroupRamp (p : Pkg) (n c : Nat) : Pkg :=
  let key := coreKey n c
  let q := p.core key
  if q.pwr = .ramp then p.setCore key { q.unhold with pwr := .awake, half := q.half + 128, opaActive := q.half + 128 } else p

end Sys2Proof.Machine
end

