-- ==== Sys2Proof/Machine/Tracker.lean ====
section
/-! DEFINITION. The request tracker of a die (R200 to R204): counts against the quotas, refusals and waiting lists, and
the dovetail path between dies (R20, R21). -/
namespace Sys2Proof.Machine

/-! The dovetail meshes. -/

/-- R20: the dies that a path from one die to another passes, both ends included. -/
def pathDies (dies a b : Nat) : List Nat :=
  let k := dies / 2
  let row := a / k * k
  let lo := min (a % k) (b % k)
  let hi := max (a % k) (b % k)
  (List.range (hi + 1 - lo)).map (fun i => row + lo + i) ++ [b]

/-- R20: headstock traffic enters and leaves through the column-0 die of the row. -/
def headPath (dies b : Nat) : List Nat := pathDies dies (b / (dies / 2) * (dies / 2)) b

/-- R21, R207: the path to a die has a package-level fault. -/
def Pkg.pathBad (p : Pkg) (a b : Nat) : Bool := a ≠ b && (pathDies p.board.dies a b).any (fun n => (p.die n).faulted)
def Pkg.headBad (p : Pkg) (b : Nat) : Bool := (headPath p.board.dies b).any (fun n => (p.die n).faulted)

/-- R178, R199: the die of a package-local address: of its memory, or of its bench window. -/
def Pkg.homeDie (p : Pkg) (a : Nat) : Option Nat :=
  match p.region a with
  | .hbm n _ => some n
  | .ddr n _ => some n
  | .bench n _ _ => some n
  | .hole => none
def Pkg.wayBad (p : Pkg) (n a : Nat) : Bool := match p.homeDie a with | some o => p.pathBad n o | none => false

/-- R420: dovetail bytes that a die sends toward another. -/
def Pkg.dovetail (p : Pkg) (src dst k : Nat) (ids : Ids) : Pkg := if src = dst then p else p.countDie src 25 k ids
/-- Bytes that die `n` sends to an address, or receives from it. -/
def Pkg.sendWay (p : Pkg) (n a k : Nat) (ids : Ids) : Pkg := match p.homeDie a with | some o => p.dovetail n o k ids | none => p
def Pkg.takeWay (p : Pkg) (n a k : Nat) (ids : Ids) : Pkg := match p.homeDie a with | some o => p.dovetail o n k ids | none => p

/-- R20: bytes that die `n` sends to the headstock. -/
def Pkg.headSend (p : Pkg) (n k : Nat) (ids : Ids) : Pkg := p.countDie n 25 k ids

/-- R233: a parity failure on the way of a read is reported, and counts as an uncorrectable read. -/
def Pkg.parityFail (p : Pkg) (n a : Nat) (ecc : Ecc) : Pkg := if ecc = .parity then p.datapath n a else p

/-! Host CXL.mem requests (R224, R361, R363). -/

/-- R361: the host may hold a line from now on. -/
def Pkg.hostHolds (p : Pkg) (n line : Nat) (holds : Bool) : Pkg :=
  p.updDie n (fun d => { d with held := if holds then (if d.held.contains line then d.held else d.held ++ [line])
                                        else d.held.filter (fun l => !(l = line)) })

/-- R230, R233: what a host's read of bytes answers: its data by the headstock's path (R20), or poison. -/
def Pkg.answerHost (p : Pkg) (n : Nat) (r : HostReq) (ok : Bool) : Pkg :=
  if ok then (p.emit (.hostData r.addr (p.readBytes r.addr r.len) false)).headSend n r.len .absent else p.emit (.hostData r.addr [] true)

/-- R178, R362, R30: a request of a bench window, or of an unpopulated address of the die's range, which no tracker and no directory takes in. -/
def Pkg.hostUncached (p : Pkg) (n : Nat) (r : HostReq) (ecc : Ecc) : Pkg :=
  match r.data with
  | some bs => p.write r.addr bs .absent
  | none =>
    let bad := p.rangeBad r.addr r.len
    let q := if bad then p.noteWindow r.addr r.len else p
    (q.parityFail n r.addr ecc).answerHost n r (!bad && ecc ≠ .parity)

/-- R203, R224, R233: one request is served, memory through the bench cache; `false`: the tracker refuses it. Over a failed dovetail path a
write is lost, and a read answers poison (log 42). What a write brings is discarded where its check fails. -/
def Pkg.serveHost (p : Pkg) (n : Nat) (r : HostReq) (ecc : Ecc) : Pkg × Bool :=
  let line := lineOf r.addr
  if p.headBad n then (if r.data.isNone then p.emit (.hostData r.addr [] true) else p, true)
  else if r.data.isSome && ecc = .parity then (p.datapath n r.addr, true)
  else if (p.owner r.addr).isNone then (p.hostUncached n r ecc, true)
  else
    let l := match r.data with | some bs => [(r.addr, bs.length)] | none => []
    let q := (p.meets ecc).askAll .host (if r.data.isNone then [(line, 64)] else []) l
    if !q.2 then q
    else
      match r.data with
      | some bs => (((q.1.write r.addr bs .absent).hostHolds n line r.holds).asBefore p, true)
      | none =>
        let x := q.1.readLine n line 5 0 .absent
        let q := ((x.1.countMem n line 64 false .absent).hostHolds n line r.holds).parityFail n line ecc
        ((q.answerHost n r (x.2 && ecc ≠ .parity)).asBefore p, true)

/-- R203: the host queue of a die is served in order until the tracker refuses again. -/
def Pkg.serveQueue (n : Nat) : List HostReq → Pkg → Pkg
  | [], p => p.updDie n (fun d => { d with hostq := [] })
  | r :: rs, p =>
    let x := p.serveHost n r .keep
    if x.2 then Pkg.serveQueue n rs x.1 else x.1.updDie n (fun d => { d with hostq := r :: rs })

/-- R203: what a woken requester resumes. -/
def Pkg.resume (p : Pkg) (n : Nat) : Requester → Pkg
  | .thread k t => p.onKey k (fun c =>
      { c with threads := match c.threads.find t with
          | some th => c.threads.set t { th with parked := none }
          | none => c.threads })
  | .fetch k => p.onKey k (fun c => c.unhold)
  | .engine e => p.updDie (e / 8) (fun d => { d with engParked := d.engParked.filter (fun x => !(x = e % 8)) })
  | .scrub m => p.updDie m (fun d => { d with scrubParked := false })
  | .writeback line => p.evict n line
  | .stream i => p.updDie (i / 16) (fun d => { d with streams := match d.streams.find (i % 16) with
      | some s => d.streams.set (i % 16) { s with parked := false }
      | none => d.streams })
  | .host => Pkg.serveQueue n (p.die n).hostq p
  | _ => p

/-- A requester that still waits; an aborted or ended one has left. -/
def Pkg.stillWaits (p : Pkg) (n : Nat) : Requester → Bool
  | .thread k t => match (p.core k).threads.find t with | some th => th.parked ≠ none || th.retry ≠ none | none => false
  | .fetch k =>
    let c := p.core k
    if c.seq.running then !c.seq.ended && !c.seq.stopping && c.seq.trap = .none else !c.startq.isEmpty
  | .engine e => ((p.die (e / 8)).engs.find (e % 8)).isSome
  | .scrub m => (p.die m).scrub.isSome
  | .stream i => ((p.die (i / 16)).streams.find (i % 16)).isSome || !(p.die (i / 16)).collq.isEmpty
  | .host => !(p.die n).hostq.isEmpty
  | .headstock => !p.posted.isEmpty
  | .firmware => !p.fw.shares.isEmpty
  | .answer line => p.snoops.any (fun s => s.1 = line)
  | .writeback line => match (p.die n).bcache.find line with | some b => b.leaving | none => false
  | .update k _ =>
    match (p.core k).upd, (p.core k).startq with
    | some u, _ => (p.cmds.find u.1).any (fun c => c.fin = none)
    | none, e :: _ => e.upd
    | none, [] => false
  | .command k => match p.cmds.find k with | some c => c.fin = none | none => false
  | .fabric m => p.fab.inbox.any (fun x => (x.2.ty = 1 || x.2.ty = 2) && x.2.dstDie = m)

/-- Marks the first entry that meets a test as woken. -/
def wakeFirst (r : Res) : List Waiting → List Waiting × Option Requester
  | [] => ([], none)
  | x :: xs => if x.res = r && !x.woken then ({ x with woken := true } :: xs, some x.who)
      else let y := wakeFirst r xs; (x :: y.1, y.2)

/-- The waiting lists without those that have left. -/
def Pkg.waitsNow (p : Pkg) (n : Nat) : Pkg := p.updDie n (fun d => { d with waits := d.waits.filter (fun x => p.stillWaits n x.who) })

/-- TRACKER_WAKE: a resource's count is below its quota, and no freed place is held already: the first requester that waits is
woken, and its retry is the next request that the resource admits (R202). None is woken for a memory whose clock is lost (R479). -/
def Pkg.trackerWake (p : Pkg) (n : Nat) (r : Res) : Pkg :=
  let p := p.waitsNow n
  if ((p.die n).wokenFor r).isNone && p.inUse n r < p.quota n r && !p.resStopped n r then
    let y := wakeFirst r (p.die n).waits
    match y.2 with
    | some w => (p.updDie n (fun d => { d with waits := y.1 })).resume n w
    | none => p
  else p

end Sys2Proof.Machine
end

