-- ==== Sys2Proof/Machine/Program.lean ====
section
/-! DEFINITION. Programs on cores (chapter 5): start (R165, R169), instruction fetch (R171, R172) and end (R170). -/
namespace Sys2Proof.Machine

/-- R15, R171, R189: the caches are set-associative; a full set loses its lowest line (replacement affects timing only). -/
def cacheSet (sets ways : Nat) (t : Tbl (List Byte)) (line : Nat) (bs : List Byte) : Tbl (List Byte) :=
  let inSet := t.filter (fun e => e.1 / 64 % sets = line / 64 % sets && !(e.1 = line))
  let t := if ways ≤ inSet.length then (match inSet with | e :: _ => t.del e.1 | [] => t) else t
  t.set line bs

/-- R134, R165, R169: the registers, the sequencer and the IDs when a program starts. -/
def Core.begin (c : Core) (e : StartEntry) (n lc image length entry ftc : Nat) : Core :=
  let s : Tbl Dword := [(1, BitVec.ofNat 64 (64 * n + lc)), (2, BitVec.ofNat 64 e.rank), (3, BitVec.ofNat 64 e.cores),
    (4, e.arg0), (5, e.arg1)]
  { c with seq := { Seq.init with running := true, image := image, length := length, pc := entry, tag := e.tag,
                                  ids := e.ids, cmd := e.cmd, ring := e.ring, width := e.width, startBeat := c.beat,
                                  startFtc := ftc, tickFrom := ftc }
           s := s, v := [], pend := [], startq := c.startq.drop 1, dcache := [], gfault := .none, aborted := false,
           icache := if e.iflush then [] else c.icache, cids := e.ids }

/-- R18: a program of a command that has already failed starts, and issues no word. -/
def Core.halt (c : Core) (b : Bool) : Core := if b then { c with seq := { c.seq with stopping := true } } else c

/-- The core's fetch traps FETCH_ECC (R172). -/
def Core.fetchEcc (c : Core) : Core := { c with seq := { c.seq with trap := .fetchEcc } }

/-! When a core's test falls due (R392). -/

/-- Ticks of PERIOD; 0 stops rotation. -/
def Pkg.katTicks (p : Pkg) (n : Nat) : Nat := p.fld (rCD_KAT_CTRL.at n 0 0) fCD_KAT_CTRL_PERIOD * 1000000000
def Pkg.dueAt (p : Pkg) (n c : Nat) : Option Nat :=
  (p.fw.due.find (coreKey n c)).bind (fun d => if p.katTicks n = 0 then none else some (d.since + d.num * p.katTicks n / d.den))

/-- R392: a die runs one test at a time, a rotation test or a full one. -/
def Fw.testing (f : Fw) (n : Nat) : Bool := f.tests.any (fun e => e.1 / 72 = n) || f.fullTests.any (fun e => e.1 / 72 = n)

/-- R392: a core's test may start once it is due: it is functional, the die's unit is free, and a bound core stands at a program boundary. -/
def Pkg.testable (p : Pkg) (n c : Nat) : Bool :=
  let q := p.core (coreKey n c)
  p.present n && (p.die n).functional.contains c && (p.dueAt n c).isSome && !p.fw.testing n && !p.fw.inReset && !q.seq.running && q.upd.isNone

/-- Its turn: cores that fall due together are taken in ascending order. -/
def Pkg.testTurn (p : Pkg) (n c : Nat) : Bool :=
  p.testable n c && !(List.range c).any (fun x => p.testable n x && p.dueAt n x = p.dueAt n c)

/-- R169, R392, R393: a program may start on the core: none runs, no test does, and none is due that could start now. -/
def Pkg.startable (p : Pkg) (key : Nat) : Bool :=
  let q := p.core key
  !q.seq.running && q.upd.isNone && q.pwr = .awake && !p.fw.inReset && (p.fw.tests.find key).isNone &&
    !(p.die (key / 72)).fenced.contains (key % 72) &&
    !(p.testTurn (key / 72) (key % 72) && (match p.dueAt (key / 72) (key % 72) with | some t => t ≤ p.ftc.now | none => false))

/-- PROGRAM_START (R165, R169): the header is read through the tracker; refused, the core is held as for a fetch (R203). `ecc`: what the read
meets. -/
def Pkg.programStart (p : Pkg) (n lc : Nat) (ecc : Ecc) : Pkg :=
  match p.phys n lc with
  | none => p
  | some key =>
    match (p.core key).startq with
    | [] => p
    | e :: _ =>
      if e.upd || !p.startable key then p
      else
        let image := hbmBase n + e.image
        let x := (p.meets ecc).askAll (.fetch key) [(image + 8, 8)] []
        if !x.2 then x.1.onKey key (fun c => c.hold 5) else
        let r := x.1.readAt (image + 8) 8 0 e.tag e.ids
        let p := ((r.1.parityFail n (image + 8) ecc).updCmd e.cmd (fun c => { c with started := (n * 64 + lc) :: c.started })).progress e.ids.job
        let p := p.trace 4 n lc 0 e.ids.job e.ring e.tag e.ids e.image
        match (if ecc = .parity then .error image else r.2) with
        | .ok bs =>
          let len := ofBytes (bs.take 4)
          let entry := ofBytes (bs.drop 4)
          let halted := match p.cmds.find e.cmd with | some c => c.fail.isSome | none => true
          p.act key (fun q => (q.begin e n lc image len entry p.ftc.now).halt halted)
        | .error _ => p.act key (fun q => (q.begin e n lc image 0 0 p.ftc.now).fetchEcc)

/-! Instruction fetch. -/

/-- The address of a parcel of the body. -/
def Seq.parcelAt (s : Seq) (i : Nat) : Nat := s.image + 64 + 4 * i

/-- The header of the word at PC, where its line is present. -/
def Core.headerAt (c : Core) : Option Word :=
  let a := c.seq.parcelAt c.seq.pc
  (c.icache.find (lineOf a)).map (fun bs => BitVec.ofNat 32 (ofBytes ((bs.drop (a % 64)).take 4)))

/-- R141: parcels of a word with this header. -/
def slotParcels : List Nat := [2, 2, 1, 1, 1, 3, 2, 2]
def headerParcels (h : Word) : Nat :=
  1 + bits h 8 1 + (List.range 8).foldl (fun t k => t + bits h k 1 * slotParcels.getD k 0) 0

/-- The lines that the word about to issue needs. -/
def Core.neededLines (c : Core) : List Nat :=
  match c.headerAt with
  | none => [lineOf (c.seq.parcelAt c.seq.pc)]
  | some h => linesOf (c.seq.parcelAt c.seq.pc) (4 * headerParcels h)

/-- R158: the next word lies within the image. -/
def Core.wordInside (c : Core) : Bool :=
  c.seq.pc < c.seq.length &&
    (match c.headerAt with | some h => c.seq.pc + headerParcels h ≤ c.seq.length | none => true)

/-- The fetch of the next word traps FETCH_BOUND (R158, R172). -/
def Core.fetchBound (c : Core) : Core := { c with seq := { c.seq with trap := .fetchBound } }

/-- The parcels of the next word, once every line it needs is present. -/
def Core.fetchedWord (c : Core) : Option (List Word) :=
  match c.headerAt with
  | none => none
  | some h =>
    if c.neededLines.all (fun l => (c.icache.find l).isSome) then
      some ((List.range (headerParcels h)).map (fun i =>
        let a := c.seq.parcelAt (c.seq.pc + i)
        BitVec.ofNat 32 (ofBytes (((c.icache.getD (lineOf a) []).drop (a % 64)).take 4))))
    else none

/-- A line returns: the core's word is no longer held for it, and the next two lines are asked for (R171). -/
def Core.gotLine (c : Core) (line : Nat) (bs : List Byte) : Core :=
  { c.unhold with
    icache := cacheSet 512 4 c.icache line bs
    seq := { c.unhold.seq with prefetch := (c.seq.prefetch.filter (fun l => !(l = line)))
      ++ ([line + 64, line + 128].filter (fun l => !c.seq.prefetch.contains l && (c.icache.find l).isNone)) } }

/-- A line cannot be read: a prefetch of it is dropped (R171). -/
def Core.lostLine (c : Core) (line : Nat) : Core :=
  { c with seq := { c.seq with prefetch := c.seq.prefetch.filter (fun l => !(l = line)) } }

/-- INSTRUCTION_FETCH: a line fill that the core waits for, or that a prefetch asked for, returns (R171, R172, R203); `ecc`: what it
meets. A line that the cache holds with a parity error is dropped, and so fetched again (R172). From an unpopulated address no line
ever returns (log 42). -/
def Pkg.instructionFetch (p : Pkg) (n lc line : Nat) (ecc : Ecc) : Pkg :=
  match p.phys n lc with
  | none => p
  | some key =>
    let q := p.core key
    let line := lineOf line
    let need := q.wordInside && q.neededLines.contains line
    if (q.icache.find line).isSome then
      (if ecc = .parity then p.onKey key (fun c => { c with icache := c.icache.del line }) else p)
    else if !q.seq.running || q.seq.ended || q.seq.stopping || q.seq.trap ≠ .none then p
    else if !(need || q.seq.prefetch.contains line) then p
    else
      match p.owner line with
      | none => p
      | some o =>
        let x := (p.meets ecc).askAll (.fetch key) [(line, 64)] []
        if !x.2 then x.1.onKey key (fun c => if need then c.hold 5 else c)
        else
          let x := x.1.readLine o line 0 q.seq.tag q.seq.ids
          let p := (x.1.countMem o line 64 false q.seq.ids).parityFail n line ecc
          if x.2 && ecc ≠ .parity then
            let bs := p.readBytes line 64
            p.onKey key (fun c => c.gotLine line bs)
          else if need then p.act key Core.fetchEcc
          else p.onKey key (fun c => c.lostLine line)

/-! The end of a program. -/

/-- R170, R208: the program has ended: after its END word every condition of QWAIT holds; after a trap, its asynchronous
operations have retired or aborted; on another core's trap or an abort, whether END has issued or not, its ARR and FBF operations have retired. A trapped program does not wait for its
PSIGs to be applied (log 42). -/
def Core.mayEnd (c : Core) : Bool :=
  let arr := c.queue.isEmpty && c.spec = none && c.fillA.isEmpty && c.fillB.isEmpty
  c.seq.running &&
    (if c.seq.trap ≠ .none || c.seq.stopping then arr && c.threads.isEmpty else c.seq.ended && c.qwaitOk 0x1F)

/-- R399: a core that a CORE_UE has stopped waits for its command to be ended: its program ends with no status of its own. -/
def Pkg.mayEnd (p : Pkg) (key : Nat) : Bool :=
  let q := p.core key
  q.mayEnd && (q.seq.ended || q.seq.trap ≠ .none ||
    (match p.cmds.find q.seq.cmd with | some c => c.fail.isSome | none => true))

/-- The program is over: the core runs nothing, and counter 20 has the ticks that it ran (R420). -/
def Core.leaves (c : Core) (now : Nat) : Core :=
  let c := (c.settle).countAs c.seq.ids 20 (c.ran now)
  { c with seq := { c.seq with running := false, hold := 0, mid := false } }

/-- The job of a command that is there. -/
def Pkg.jobOf (p : Pkg) (k : Nat) : Nat := match p.cmds.find k with | some c => c.job | none => 0

/-- A command has ended on a core. -/
def Pkg.leave (p : Pkg) (k x : Nat) : Pkg := (p.updCmd k (fun c => { c with left := c.left.filter (fun y => !(y = x)) })).endIfDone k

/-- PROGRAM_END (R170, R366, R420). -/
def Pkg.programEnd (p : Pkg) (n lc : Nat) : Pkg :=
  match p.phys n lc with
  | none => p
  | some key =>
    let q := p.core key
    if !p.mayEnd key then p
    else
      let code := if q.seq.trap ≠ .none then 1 else if q.seq.stopping then 2 else 0
      let p := p.onKey key (fun c => c.leaves p.ftc.now)
      let p := p.trace 5 n lc code (p.jobOf q.seq.cmd) q.seq.ring q.seq.tag q.seq.ids
        (q.beat - q.seq.startBeat)
      p.leave q.seq.cmd (n * 64 + lc)

end Sys2Proof.Machine
end

