-- ==== Sys2Proof/Machine/Gather.lean ====
section
/-! DEFINITION. The gather unit of a core (R186 to R209): descriptors, thread choice, accesses, line returns, retirement
and aborts; and the completion of tracked accesses (R200, R205). -/
namespace Sys2Proof.Machine

/-! Descriptors (R191 to R197). -/

/-- A field of the descriptor bytes. -/
def dfield (d : List Byte) (o n : Nat) : Nat := ofBytes ((d.drop o).take n)

/-- The descriptor of a GTH operation. -/
def GDesc.read (kind : GthKind) (d : List Byte) : GDesc :=
  let z : GDesc := { kind := kind, src := dfield d 0 8, rowStride := 0, rowBytes := 0, index := 0, count := 0, limit := 0,
                     dest := 0, destStride := 0, idxMem := false, idx64 := false, cache := false, sent := false, tgt := 0,
                     b := false, slot := 0, fmt := 0, start := 0 }
  let flags (x : GDesc) (o : Nat) : GDesc :=
    let f := dfield d o 1
    { x with idxMem := f % 2 = 1, idx64 := f / 2 % 2 = 1, cache := f / 4 % 2 = 1, sent := f / 8 % 2 = 1 }
  match kind with
  | .gather => flags { z with rowStride := dfield d 8 4, rowBytes := dfield d 12 4, index := dfield d 16 8, count := dfield d 24 4,
                              limit := dfield d 28 4, dest := dfield d 32 4, destStride := dfield d 36 4 } 40
  | .stream =>
    let t := dfield d 32 1
    flags { z with rowStride := dfield d 8 4, index := dfield d 16 8, count := dfield d 24 4, limit := dfield d 28 4, b := t % 2 = 1,
                   slot := t / 2 % 2, fmt := dfield d 33 1, start := dfield d 34 2,
                   rowBytes := rowSize (fmtOf (dfield d 33 1)) } 36
  | .copy => { z with dest := dfield d 8 8, rowBytes := dfield d 16 4, count := dfield d 20 4, rowStride := dfield d 24 4,
                      destStride := dfield d 28 4 }
  | .prefetch => { z with rowBytes := dfield d 8 4, count := 1, dest := dfield d 12 4, tgt := dfield d 16 1 }

/-- Reserved bytes of the descriptor, by kind. -/
def reservedZero (kind : GthKind) (d : List Byte) : Bool :=
  let z (o n : Nat) : Bool := dfield d o n = 0
  match kind with
  | .gather => z 41 23 && dfield d 40 1 < 16
  | .stream => z 12 4 && z 37 27 && dfield d 36 1 < 16 && dfield d 32 1 < 4 && dfield d 33 1 < 16
  | .copy => z 32 32
  | .prefetch => z 17 47 && dfield d 16 1 < 4

/-- R196: a byte of a COPY's source rows lies in one of its destination rows: for each source row, the first destination row
that ends after its start is looked at. -/
def GDesc.overlaps (g : GDesc) : Bool :=
  (List.range g.count).any (fun r =>
    let a := g.src + r * g.rowStride
    let q := if a < g.dest + g.rowBytes then 0
      else if g.destStride = 0 then g.count else (a - g.dest - g.rowBytes) / g.destStride + 1
    q < g.count && g.dest + q * g.destStride < a + g.rowBytes)

/-- R191, R193, R196: a descriptor that is no program error. -/
def GDesc.ok (g : GDesc) (d : List Byte) : Bool :=
  let m4 (x : Nat) : Bool := x % 4 = 0
  let addr (x : Nat) : Bool := x < 2 ^ 48
  addr g.src && m4 g.src && m4 g.rowStride && m4 g.index && m4 g.dest && m4 g.destStride && reservedZero g.kind d &&
  (match g.kind with
   | .gather => 4 ≤ g.rowBytes && g.rowBytes ≤ 65536 && m4 g.rowBytes && g.count < 2 ^ 24 && addr g.index &&
       (g.count = 0 || g.dest + (g.count - 1) * g.destStride + g.rowBytes ≤ 0x300000) &&
       (g.count ≤ 1 || g.rowBytes ≤ g.destStride) &&
       (g.idxMem || g.index + g.count * (if g.idx64 then 8 else 4) ≤ 0x300000)
   | .stream => g.count ≤ 1024 && (g.fmt < 5 || g.fmt = 11 || g.fmt = 12) && g.start + g.count ≤ (fmtOf g.fmt).depth &&
       addr g.index && (g.idxMem || g.index + g.count * (if g.idx64 then 8 else 4) ≤ 0x300000)
   | .copy => 4 ≤ g.rowBytes && g.rowBytes ≤ 2 ^ 24 && m4 g.rowBytes && addr g.dest && !g.overlaps
   | .prefetch => m4 g.rowBytes && g.tgt < 3 && (g.tgt ≠ 1 || g.dest + g.rowBytes ≤ 0x300000))

/-! Issue (R153, R186, R191, R195). -/

/-- The lowest-numbered free thread. -/
def Core.freeThread (c : Core) : Option Nat := (List.range 16).find? (fun t => (c.threads.find t).isNone)

/-- R208, R209: the operation on thread `t` aborts; the first fault of the command is recorded. -/
def Core.gthFault (c : Core) (t desc cause pos addr : Nat) : Core :=
  { c with aborted := true, threads := c.threads.del t
           gfault := if c.gfault.valid then { c.gfault with more := true } else ⟨true, cause, false, t, desc, pos, addr⟩ }

/-- What becomes of the word of a GTH operation. -/
inductive GthIssue where
  | held (bit : Nat)
  | bad
  | go (c : Core)

/-- A GTH operation issues. `own`: the address of the core's own bench window. A fault met in the descriptor read has POS 0 (log 42). -/
def Core.gthIssue (c : Core) (kind : GthKind) (a : GthArg) (own : Nat) : GthIssue :=
  let at' := c.benchAddr a.areg a.off
  let d := c.benchRd at' 64
  let g := GDesc.read kind d
  match c.freeThread with
  | none => .held 4
  | some t =>
    if at' % 64 ≠ 0 || 0x300000 < at' + 64 || 64 ≤ a.peg.getD 0 then .bad
    else if c.benchBad at' 64 then .go ((c.noteUE true).gthFault t at' 2 0 (own + at'))
    else if !g.ok d then .bad
    else
      let th : Thread := { d := g, desc := at', peg := a.peg, ids := c.seq.ids, k := 0, off := 0, idx := none, out := 0,
                           parked := none, retry := none, buf := [], written := 0, seg := [], toWrite := [], puts := [] }
      let c' := { c with threads := c.threads.set t th }
      match kind with
      | .stream =>
        if 2 ≤ (c.fills g.b).length then .held 3
        else .go (c'.enqueueFill g.b ⟨some t, g.slot, g.fmt, 0, 0, g.start, g.count, none, 0, 0, c.seq.ids⟩)
      | _ => .go c'

/-! What a thread does next. -/

inductive GthAct where
  | none
  | write (w : PutLine)                      -- a COPY's write of a line, or of part of one (R188)
  | zeros                                    -- a sentinel row (R193, R195)
  | range                                    -- index k is out of range (R193)
  | piece (x : Piece)
  deriving DecidableEq, Repr

def GDesc.idxLen (g : GDesc) : Nat := if g.idx64 then 8 else 4

/-- A prefetch of TGT 1 is a copy of one row to the bench. -/
def Thread.pieceTo (th : Thread) : PieceTo :=
  match th.d.kind with
  | .gather => .bench (th.d.dest + th.k * th.d.destStride + th.off)
  | .stream => .row th.k th.off
  | .copy => .memory (th.d.dest + th.k * th.d.destStride + th.off)
  | .prefetch => if th.d.tgt = 1 then .bench (th.d.dest + th.off) else .install

/-- R209: the position of a byte offset of the row in progress. -/
def Thread.posAt (th : Thread) (off : Nat) : Nat := if th.d.kind = .prefetch then off / 64 * 64 else th.k

/-- R232: the next access of the row whose source is `base`: its segment is the part of the row in one 256-byte block. -/
def Thread.pieceAt (th : Thread) (base : Nat) : Piece :=
  let a := base + th.off
  let lo := max base (a / 256 * 256)
  let hi := min (base + th.d.rowBytes) (a / 256 * 256 + 256)
  ⟨a, min (th.d.rowBytes - th.off) (64 - a % 64), th.pieceTo, th.posAt th.off, lo, hi - lo⟩

/-- R192 to R197: the next access of a thread; a write that is due comes first, but for a refused read. `own`: the address of the
core's own bench window. -/
def Thread.next (th : Thread) (own : Nat) : GthAct :=
  let g := th.d
  match (if th.retry = some false then none else th.toWrite.head?) with
  | some w => .write w
  | none =>
    if g.count ≤ th.k then .none
    else if g.kind = .gather || g.kind = .stream then
      if g.kind = .stream && th.written + 16 ≤ th.k then .none
      else
        match th.idx with
        | none =>
          let base := (if g.idxMem then 0 else own) + g.index + th.k * g.idxLen
          let a := base + th.off
          if g.idxLen ≤ th.off then .none else .piece ⟨a, min (g.idxLen - th.off) (64 - a % 64), .index, th.k, base, g.idxLen⟩
        | some i =>
          if g.sent && i = 2 ^ (8 * g.idxLen) - 1 then .zeros
          else if g.limit ≠ 0 && g.limit ≤ i then .range
          else .piece (th.pieceAt ((g.src + i * g.rowStride) % 2 ^ 48))
    else if g.kind = .prefetch && g.rowBytes ≤ th.off then .none
    else .piece (th.pieceAt (g.src + th.k * g.rowStride))

/-- The thread has asked for a piece: of an index, or of a row. -/
def Thread.asked (th : Thread) (x : Piece) : Thread :=
  let th := { th with retry := none }
  let len := x.len
  if x.dst = .index then { th with off := th.off + len, out := th.out + 1 }
  else if th.d.rowBytes ≤ th.off + len then { th with k := th.k + 1, off := 0, idx := none, out := th.out + 1 }
  else { th with off := th.off + len, out := th.out + 1 }

/-- R187, R188, R203: a thread is ready. -/
def Core.ready (c : Core) (t : Nat) : Bool :=
  match c.threads.find t with
  | some th => th.parked = none && th.next 0 ≠ .none && c.reqs.length < 256
  | none => false

/-- R187: the thread served in this beat. -/
def Core.serve (c : Core) : Option Nat :=
  let order := (List.range 16).map (fun i => (c.lastThread + 1 + i) % 16)
  let pre (t : Nat) : Bool := match c.threads.find t with | some th => th.d.kind = .prefetch | none => false
  let others := order.filter (fun t => c.ready t && !pre t)
  if c.ready c.lastThread && c.lastHit && c.streak < 64 && (others.isEmpty || !pre c.lastThread) then some c.lastThread
  else match others with
    | t :: _ => some t
    | [] => (order.filter c.ready).head?

/-- R187: what the choice of the next beat depends on. -/
def Core.served (c : Core) (t : Nat) (hit : Bool) : Core :=
  { c with streak := if t = c.lastThread && c.lastHit then c.streak + 1 else 1, lastThread := t, lastHit := hit }

def Core.updThread (c : Core) (t : Nat) (f : Thread → Thread) : Core :=
  match c.threads.find t with
  | some th => { c with threads := c.threads.set t (f th) }
  | none => c

/-- R189: reads that go through the data cache. -/
def Thread.usesCache (th : Thread) (x : Piece) : Bool :=
  (th.d.cache && (th.d.kind = .gather || th.d.kind = .stream)) || (x.dst = .install && th.d.tgt = 0)

/-! Delivery (R193, R196, R205, R232). -/

/-- R420, R423: the bytes that the gather unit itself requested. -/
def Core.countGth (c : Core) (ddr : Bool) (ids : Ids) (k : Nat) (write : Bool) : Core :=
  c.countAs ids ((if ddr then 23 else 21) + (if write then 1 else 0)) k

/-- R232: two pieces of one segment. -/
def Thread.sameSeg (th : Thread) (x y : Piece) : Bool :=
  x.segAt = y.segAt && decide (x.dst = .index) = decide (y.dst = .index) && (th.d.kind = .prefetch || x.pos = y.pos)

/-- The bytes of a whole segment, in source order. -/
def segBytes (l : List (Piece × List Byte)) (at' len : Nat) : List Byte :=
  let all : Tbl Byte := l.foldl (fun t y => t.setRun y.1.src y.2) []
  (List.range len).map (fun i => all.getD (at' + i) 0#8)

/-- The writes of a segment of a COPY that goes to `a` (R188). -/
def Piece.puts (x : Piece) (a : Nat) (bs : List Byte) : List PutLine :=
  (piecesOf a bs.length).map (fun w =>
    ⟨x.pos, x.segAt + (w.1 - a), x.segAt, w.1, (bs.drop (w.1 - a)).take w.2, w.1 + w.2 = a + bs.length, none⟩)

/-- A segment, whole and verified, goes where its row goes (R232); `x`: one piece of it. What a COPY writes is verified at its destination. -/
def Core.gotSeg (c : Core) (t : Nat) (x : Piece) (bs : List Byte) : Core :=
  let d := x.src - x.segAt
  match x.dst with
  | .index => c.updThread t (fun th => { th with idx := some (ofBytes bs), off := 0 })
  | .bench o => c.benchWr (o - d) bs
  | .memory a => c.updThread t (fun th => { th with toWrite := th.toWrite ++ x.puts (a - d) bs })
  | .row k o => c.updThread t (fun th => { th with
      buf := th.buf.upd k [] (fun l => l ++ bs.zipIdx.map (fun y => (o - d + y.2, y.1))) })
  | .install => c

/-- A piece of thread `t` arrives; nothing of its segment is committed before all of it is there (R232). -/
def Core.got (c : Core) (t : Nat) (x : Piece) (bs : List Byte) : Core :=
  match c.threads.find t with
  | none => c
  | some th =>
    let all := th.seg ++ (if x.dst = .install then [] else [(x, bs)])
    let mine := all.filter (fun y => th.sameSeg x y.1)
    let whole := x.segLen ≤ mine.foldl (fun n y => n + y.2.length) 0
    let c := c.updThread t (fun th => { th with
      out := th.out - 1, seg := if whole then all.filter (fun y => !th.sameSeg x y.1) else all })
    if whole && x.dst ≠ .install then c.gotSeg t x (segBytes mine x.segAt x.segLen) else c

/-- R207: the cause of an uncorrectable read of a piece. A prefetch into a cache never aborts. -/
def Piece.cause (x : Piece) : Option Nat :=
  match x.dst with
  | .index => some 1
  | .install => none
  | _ => some 2

/-- R209: the address of the access that failed; of an index, the address at which it is read. -/
def Piece.failedAt (x : Piece) : Nat := if x.dst = .index then x.segAt else x.src

/-- R207, R209, R233: the read of a piece has failed; `crc`: its segment does not match its CRC-32C at the destination. -/
def Core.failPiece (c : Core) (t : Nat) (x : Piece) (crc : Bool) : Core :=
  match c.threads.find t with
  | none => c
  | some th =>
    match x.cause with
    | none => c.updThread t (fun th => { th with out := th.out - 1 })
    | some k =>
      if crc then c.gthFault t th.desc 2 (if th.d.kind = .prefetch then (x.segAt - th.d.src) / 64 * 64 else x.pos) x.segAt
      else c.gthFault t th.desc k x.pos x.failedAt

/-- R209: reads that fail in one beat are recorded by ascending thread. -/
def byThread (l : List (Nat × Piece)) : List (Nat × Piece) := (List.range 16).flatMap (fun t => l.filter (fun y => y.1 = t))
def Pkg.failPieces (p : Pkg) (key : Nat) (l : List (Nat × Piece)) (crc : Bool) : Pkg :=
  p.act key (fun c => (byThread l).foldl (fun c y => c.failPiece y.1 y.2 crc) c)

/-- R233: the die whose check finds that a piece's segment does not match its CRC-32C: that of its destination. -/
def Pkg.checkDie (p : Pkg) (n : Nat) (x : Piece) : Nat := match x.dst with | .memory a => (p.homeDie a).getD n | _ => n

/-- A line arrives for the pieces that wait for it, with what its way and its checks make of it (R230 to R233). -/
def Pkg.arrived (p : Pkg) (key : Nat) (l : List (Nat × Piece)) (ecc : Ecc) (bytes : Piece → List Byte) : Pkg :=
  let dma := l.filter (fun y => y.2.dst ≠ .install)
  match ecc with
  | .parity => ((l.head?.map (fun y => p.datapath (key / 72) y.2.src)).getD p).failPieces key l false
  | .crc =>
    let p := l.foldl (fun p y => if y.2.dst = .install then p.onKey key (fun c => c.got y.1 y.2 []) else p) p
    ((dma.head?.map (fun y => p.datapath (p.checkDie (key / 72) y.2) y.2.segAt)).getD p).failPieces key dma true
  | _ => l.foldl (fun p y => p.onKey key (fun c => c.got y.1 y.2 (bytes y.2))) p

/-! GATHER_ACCESS (R187, R188, R189, R195, R199, R201 to R203). -/

/-- R203: a thread whose request is refused is parked; it retries that request first. -/
def Thread.park (th : Thread) (o : Nat) (r : Res) (write : Bool) : Thread := { th with parked := some (o, r), retry := some write }

/-- R188, R184: the read of a line that the core has requested already waits for that request; what it gets is the line as it stands now
(R182). A line that has become bad since its data was taken is not part of that request: its read fails on its own. -/
def Core.mergeReq (c : Core) (line : Nat) (now : Option (List Byte)) (t : Nat) (x : Piece) : Option Core :=
  (c.reqs.findIdx? (fun r => r.line = line && r.writer = none && (match r.data with
    | none => true
    | some d => d.isSome && now.isSome))).map (fun i =>
    { c with reqs := listUpd c.reqs i (fun r => { r with waiters := r.waiters ++ [(t, x)], data := r.data.map (fun _ => now) }) })

/-- A piece whose source is memory: the data cache, an outstanding request of the same line, the bench cache, or the tracker.
From the data cache comes the line as it was installed, whatever has been written since (R190, log 42). A line of it with a parity error
is dropped, and read again (R233). -/
def Pkg.askMemory (p : Pkg) (key t : Nat) (th : Thread) (x : Piece) (o : Nat) (ecc : Ecc) : Pkg :=
  let n := key / 72
  let line := lineOf x.src
  let cached := o = n && th.usesCache x
  let take (c : Core) (hit : Bool) : Core := (c.updThread t (fun th => th.asked x)).served t hit
  let found := if cached then (p.core key).dcache.find line else none
  match (if ecc = .parity then none else found) with
  | some bs =>
    (p.onKey key (fun c => { take c true with dhits := (c.dhits + 1) % 2 ^ 32 })).arrived key [(t, x)] ecc
      (fun x => (bs.drop (x.src % 64)).take x.len)
  | none =>
    let p := if cached then p.onKey key (fun c => { c with dmisses := (c.dmisses + 1) % 2 ^ 32, dcache := c.dcache.del line }) else p
    let p := if found.isSome then p else p.meets ecc
    let p := p.touch o line false
    let now : Option (List Byte) := if p.lineBad line then none else some (p.readBytes line 64)
    match (p.core key).mergeReq line now t x with
    | some _ => p.onKey key (fun c => take ((c.mergeReq line now t x).getD c) false)
    | none =>
      let own (p : Pkg) : Pkg := (p.countMem o x.src x.len false th.ids).onKey key (fun c => c.countGth (p.isDdr x.src) th.ids x.len false)
      let request (data : Option (Option (List Byte))) (c : Core) : Core :=
        let c := take c false
        { c with reqs := c.reqs ++ [⟨line, data, [(t, x)], none, th.ids⟩] }
      if ((p.die o).bcache.find line).isSome then
        let r := (own (p.depart o (.thread key t))).readLine o line 1 (p.core key).seq.tag th.ids
        r.1.onKey key (request (some (if r.2 then some (r.1.readBytes line 64) else none)))
      else
        match p.refusal o line (.thread key t) with
        | some res => (p.refuse o line (.thread key t) res).onKey key (fun c => (c.updThread t (fun th => th.park o res false)).served t false)
        | none => (((own p).miss o).enterTracker o line (.thread key t) false).onKey key (request none)

/-- A piece whose source is a bench, through its window or the core's own, or an unpopulated address (R30, R178). -/
def Pkg.askOther (p : Pkg) (key t : Nat) (th : Thread) (x : Piece) (ecc : Ecc) : Pkg :=
  let p := p.onKey key (fun c => (c.updThread t (fun th => th.asked x)).served t false)
  let p := p.takeWay (key / 72) x.src x.len th.ids
  if p.rangeBad x.src x.len then (p.noteWindow x.src x.len).failPieces key [(t, x)] false
  else p.arrived key [(t, x)] ecc (fun x => p.readBytes x.src x.len)

/-- R197, R207: the way to a source, or to the destination of its row, has failed. -/
def Pkg.pieceBad (p : Pkg) (n : Nat) (x : Piece) : Bool :=
  p.wayBad n x.src || (match x.dst with | .memory a => p.wayBad n a | _ => false)

/-- R197: lines that a prefetch into a cache leaves out: outside memory; with TGT 0, of other dies; that cannot be reached. -/
def Pkg.skips (p : Pkg) (n : Nat) (th : Thread) (x : Piece) : Bool :=
  x.dst = .install && ((p.owner x.src).isNone || (th.d.tgt = 0 && p.owner x.src ≠ some n) || p.pieceBad n x)

/-- R200: a write that no tracker has admitted needs an entry. -/
def Pkg.putAsks (p : Pkg) (w : PutLine) : Bool :=
  w.alloc = none && (match p.owner w.addr with | some o => p.needsMemory o w.addr w.data.length .write | none => false)

/-- R232: a segment is committed, whole: its lines, each as DDR_ALLOC had it at its admission (R42). -/
def Pkg.commitSeg (p : Pkg) (key t : Nat) (ids : Ids) (ls : List PutLine) : Pkg :=
  let n := key / 72
  let tag := (p.core key).seq.tag
  let p := { p with admitted := ls.foldl (fun m (w : PutLine) => match w.alloc with | some b => m.set (lineOf w.addr) b | none => m) p.admitted }
  let p := p.onKey key (fun c => c.updThread t (fun th => { th with toWrite := th.toWrite.drop 1, puts := [], retry := none }))
  ls.foldl (fun p w =>
    let p := if (p.owner w.addr).isSome then p.onKey key (fun c => c.countGth (p.isDdr w.addr) ids w.data.length true) else p
    (p.sendWay n w.addr w.data.length ids).write w.addr w.data ids tag) p

/-- R196, R199, R201, R232: a COPY's write, of a line or of part of one, or of a bench through its window, is asked for; with the last one of
a segment the segment is committed. A check that fails on the way there discards the segment (R230, R233). -/
def Pkg.putLine (p : Pkg) (key t : Nat) (th : Thread) (w : PutLine) (ecc : Ecc) : Pkg :=
  let n := key / 72
  let who : Requester := .thread key t
  if p.wayBad n w.addr then p.act key (fun c => (c.served t false).gthFault t th.desc 4 w.pos w.addr)
  else if ecc = .parity || ecc = .crc then
    let at' := if ecc = .crc then w.segAt else w.src
    (p.datapath ((p.homeDie w.addr).getD n) at').act key (fun c => (c.served t false).gthFault t th.desc 2 w.pos at')
  else
    let p := (p.meets ecc).onKey key (fun c => c.served t false)
    -- at the end of a segment a line of it that has left the bench cache since is asked for
    let ls := if w.last then th.puts ++ [w] else [w]
    let commit (p : Pkg) (ls : List PutLine) : Pkg :=
      let p := if (p.owner w.addr).isSome then
        p.onKey key (fun c => { c with reqs := c.reqs ++ [⟨lineOf w.addr, some (some []), [], some t, th.ids⟩] }) else p
      if w.last then p.commitSeg key t th.ids ls
      else p.onKey key (fun c => c.updThread t (fun th =>
        { th with toWrite := th.toWrite.drop 1, puts := th.puts ++ ls, retry := none }))
    match ls.findIdx? p.putAsks with
    | none => commit (((p.homeDie w.addr).map (fun o => p.depart o who)).getD p) ls
    | some i =>
      let a := (ls.getD i w).addr
      let o := (p.owner a).getD n
      match p.refusal o (lineOf a) who with
      | some res => (p.refuse o (lineOf a) who res).onKey key (fun c => c.updThread t (fun th => th.park o res true))
      | none =>
        let ls := listUpd ls i (fun w => { w with alloc := some (p.allocates o (lineOf a)) })
        let p := p.enterTracker o (lineOf a) who true
        if ls.any p.putAsks then
          p.onKey key (fun c => c.updThread t (fun th => { th with toWrite := ls.drop (ls.length - 1) ++ th.toWrite.drop 1, puts := ls.take (ls.length - 1) }))
        else commit p ls

/-- GATHER_ACCESS: one beat of the gather unit; `ecc`: what its access meets. -/
def Pkg.gatherAccess (p : Pkg) (n lc : Nat) (ecc : Ecc) : Pkg :=
  match p.phys n lc with
  | none => p
  | some key =>
    let c := p.core key
    match c.serve with
    | none => p
    | some t =>
      match c.threads.find t with
      | none => p
      | some th =>
        let g := th.d
        let own := benchBase n lc
        match th.next own with
        | .none => p
        | .write w => p.putLine key t th w ecc
        | .range =>
          p.act key (fun c => (c.served t false).gthFault t th.desc 3 th.k
            ((if g.idxMem then 0 else own) + g.index + th.k * g.idxLen))
        | .zeros =>
          let row := List.replicate g.rowBytes 0#8
          p.onKey key (fun c =>
            let c := (c.updThread t (fun th => { th with k := th.k + 1, off := 0, idx := none, retry := none })).served t true
            match th.pieceTo with
            | .bench o => c.benchWr o row
            | .row k _ => c.updThread t (fun th => { th with buf := th.buf.set k (row.zipIdx.map (fun y => (y.2, y.1))) })
            | _ => c)
        | .piece x =>
          if p.skips n th x then
            p.onKey key (fun c => (c.updThread t (fun th => { (th.asked x) with out := th.out })).served t false)
          else if p.pieceBad n x then p.act key (fun c => (c.served t false).gthFault t th.desc 4 x.pos x.failedAt)
          else
            match p.owner x.src with
            | some o => p.askMemory key t th x o ecc
            | none => p.askOther key t th x ecc

/-! MEMORY_ACCESS_COMPLETE (R200, R205, R224) and LINE_RETURN (R188). -/

/-- The data of a line is there for the request that waits for it; `none`: the read is uncorrectable. -/
def Core.hasData (c : Core) (line : Nat) (data : Option (List Byte)) : Core :=
  match c.reqs.findIdx? (fun r => r.line = line && r.data.isNone) with
  | some j => { c with reqs := listUpd c.reqs j (fun r => { r with data := some data }) }
  | none => c

/-- Entry `i` of a die's tracker is free again (R200). -/
def Pkg.complete (p : Pkg) (n i : Nat) : Pkg := p.updDie n (fun d => { d with trk := listDel d.trk i })

/-- Entry `i` of a die's tracker completes: the read of a gather thread brings its line into the bench cache, where DDR_ALLOC as it stood
at the admission lets it (R42), and the data as it stands now is what the waiting request delivers (R205). The data of other
requesters was taken at the admission (log 26). While the memory's clock is lost nothing completes (R479). -/
def Pkg.accessComplete (p : Pkg) (n i : Nat) (ecc : Ecc) : Pkg :=
  match (p.die n).trk[i]? with
  | none => p
  | some e =>
    if p.memStopped n e.line then p else
    let p := p.complete n i
    match e.who, e.write with
    | .thread key t, false =>
      let ids := match (p.core key).threads.find t with | some th => th.ids | none => (p.core key).seq.ids
      let r := ((p.meets ecc).touch n e.line false).fillLine n e.line 1 (p.core key).seq.tag e.alloc ids
      let p := r.1.parityFail n e.line ecc
      p.onKey key (fun c => c.hasData e.line (if r.2 && ecc ≠ .parity then some (p.readBytes e.line 64) else none))
    | _, _ => p

/-- R189: a line is installed in the data cache where one of the pieces asks for that. -/
def Pkg.cacheLine (p : Pkg) (key line : Nat) (l : List (Nat × Piece)) (bs : List Byte) : Pkg :=
  if p.owner line = some (key / 72) &&
      l.any (fun y => match (p.core key).threads.find y.1 with | some th => th.usesCache y.2 | none => false) then
    p.onKey key (fun c => { c with dcache := cacheSet 512 8 c.dcache line bs })
  else p

/-- LINE_RETURN: request `i` of a core returns, is checked, delivered and freed; what returns for an aborted operation is
discarded (R208). `ecc`: what it meets on its way. -/
def Pkg.lineReturn (p : Pkg) (n lc i : Nat) (ecc : Ecc) : Pkg :=
  match p.phys n lc with
  | none => p
  | some key =>
    match (p.core key).reqs[i]? with
    | none => p
    | some r =>
      match r.data with
      | none => p
      | some data =>
        let p := p.onKey key (fun c => { c with reqs := listDel c.reqs i })
        if r.writer.isSome || r.waiters.isEmpty then p
        else
          match data with
          | none => p.failPieces key r.waiters false
          | some bs =>
            let p := p.takeWay n r.line 64 r.ids
            let p := if ecc = .parity then p else p.cacheLine key r.line r.waiters bs
            p.arrived key r.waiters ecc (fun x => (bs.drop (x.src % 64)).take x.len)

/-! GTH_RETIRE (R193 to R198). -/

/-- Every write of the operation has taken effect. -/
def Thread.finished (th : Thread) : Bool :=
  match th.d.kind with
  | .stream => th.d.count ≤ th.written
  | .prefetch => (th.d.rowBytes ≤ th.off || 1 ≤ th.k) && th.out = 0
  | _ => th.d.count ≤ th.k && th.out = 0 && th.toWrite.isEmpty

def Core.gthRetire (c : Core) (t : Nat) : Core :=
  match c.threads.find t with
  | some th => if th.finished then { c.signal th.peg with threads := c.threads.del t } else c
  | none => c

end Sys2Proof.Machine
end

