-- ==== Sys2Proof/Machine/Rings.lean ====
section
/-! DEFINITION. Rings (R367 to R373), completion entries and interrupts (R379, R380), and the commands that the headstock
itself runs (R375): KERNEL's way to its firing stage, PEGSET, NOP. -/
namespace Sys2Proof.Machine

def Ring.init : Ring := ⟨false, 0, 4, 0, 0, 0, 0⟩
def Cq.init : Cq := ⟨false, 0, 6, 0xFFFF, 1, 0, 0, 0, 0, 0⟩
def Pkg.ring (p : Pkg) (r : Nat) : Ring := p.rings.getD r Ring.init
def Pkg.cq (p : Pkg) (c : Nat) : Cq := p.cqs.getD c Cq.init

/-! Doorbells (R359, R369, R379). -/

/-- The value of a doorbell is read back as the last one accepted. -/
def Pkg.bell (p : Pkg) (k v : Nat) : Pkg := { p with port := { p.port with bells := p.port.bells.set k (v % 2 ^ 32) } }

/-- R369: the tail of a command ring; a disabled ring discards it. BAR2 is claimed once memory space is enabled (log 13). -/
def Pkg.commandBell (p : Pkg) (r v : Nat) : Pkg :=
  if !p.port.memSpace || 32768 ≤ r || !(p.ring r).en then p
  else { (p.bell r v) with rings := p.rings.set r { p.ring r with tail := v % 2 ^ 32 } }

/-- R379: the head of a completion ring. -/
def Pkg.completionBell (p : Pkg) (c v : Nat) : Pkg :=
  if !p.port.memSpace || 4096 ≤ c then p
  else { (p.bell (32768 + c) v) with cqs := p.cqs.set c { p.cq c with head := v % 2 ^ 32 } }

/-! Contexts (R367, R368). -/
def aCtxLoad : Nat := rRING_CTX_LOAD.at 0 0 0
def aCtxStatus : Nat := rRING_CTX_STATUS.at 0 0 0

/-- The context that RING_CTX_LOAD named last, and ERR. -/
def Pkg.named (p : Pkg) (kind op index : Nat) (err : Bool) : Pkg :=
  (p.wr aCtxLoad (BitVec.ofNat 32 (2 ^ 31 * kind + 2 ^ 29 * op + index))).setFld aCtxStatus fRING_CTX_STATUS_ERR (if err then 1 else 0)

/-- R359: a word that a read of BAR2 returns: the last value that its doorbell accepted; 0 anywhere else. -/
def Pkg.bar2Word (p : Pkg) (o : Nat) : Word :=
  if o % 8 < 4 && o < 0x48000 then BitVec.ofNat 32 (p.port.bells.getD (o / 8) 0) else 0#32

def Pkg.hostField (p : Pkg) (a n : Nat) : Nat := ofBytes (p.hostRead a n)

/-- The address of a context. -/
def Pkg.ringCtx (p : Pkg) (r : Nat) : Nat := 4096 * (p.rd64 (rRING_CTX_BASE.at 0 0 0) / 4096) + 32 * r
def Pkg.cqCtx (p : Pkg) (c : Nat) : Nat := 4096 * (p.rd64 (rRING_CQ_BASE.at 0 0 0) / 4096) + 32 * c

def Pkg.loadRing (p : Pkg) (r : Nat) : Pkg :=
  if (p.ring r).en then p.named 0 0 r true
  else if !p.hostMem then p.named 0 0 r false
  else
    let a := p.ringCtx r
    let head := p.hostField (a + 12) 4
    let q : Ring := { en := true, base := p.hostField a 8, size := clampTo 4 16 (p.hostField (a + 8) 1),
                      prio := p.hostField (a + 9) 1 % 4, cq := p.hostField (a + 10) 2 % 4096, head := head, tail := head }
    (({ p with rings := p.rings.set r q }).rdCurr a 32).named 0 0 r false

def Pkg.stopRing (p : Pkg) (r : Nat) : Pkg :=
  ({ p with rings := p.rings.set r { p.ring r with en := false } }).named 0 1 r false

def Pkg.loadCq (p : Pkg) (c : Nat) : Pkg :=
  if (p.cq c).en then p.named 1 0 c true
  else if !p.hostMem then p.named 1 0 c false
  else
    let a := p.cqCtx c
    let q : Cq := { en := true, base := p.hostField a 8, size := clampTo 6 16 (p.hostField (a + 8) 1),
                    vector := p.hostField (a + 10) 2, intCount := max 1 (p.hostField (a + 12) 2),
                    intTime := p.hostField (a + 14) 2, n := 0, head := 0, uncovered := 0, since := 0 }
    (({ p with cqs := p.cqs.set c q }).rdCurr a 32).named 1 0 c false

def Pkg.stopCq (p : Pkg) (c : Nat) : Pkg :=
  ({ p with cqs := p.cqs.set c { p.cq c with en := false } }).named 1 1 c false

/-! FETCH_TURN (R370 to R373). -/

def Ring.slot (q : Ring) (n : Nat) : Nat := q.base + 64 * (n % 2 ^ q.size)
def Ring.waiting (q : Ring) : Nat := (q.tail + 2 ^ 32 - q.head) % 2 ^ 32

/-- Slots of the command at a ring's head. -/
def Pkg.headSlots (p : Pkg) (q : Ring) : Nat := if twoSlots (p.hostField (q.slot q.head) 1) then 2 else 1

/-- R374: an ORDER command of the ring still waits for earlier ones. -/
def Pkg.ringOrdered (p : Pkg) (r : Nat) : Bool :=
  p.cmds.any (fun e => e.2.ring = r && e.2.order && e.2.stage = .fetched && !p.orderOk e.1 e.2)

/-- R372: entries of the command table that class 3 holds. -/
def Pkg.class3 (p : Pkg) : Nat := (p.cmds.filter (fun e => e.2.prio = 3)).length

def Pkg.tableRoom (p : Pkg) (prio : Nat) : Bool := p.cmds.length < 16384 && (prio ≠ 3 || p.class3 < 4096)

/-- R371: an eligible ring. -/
def Pkg.eligible (p : Pkg) (r : Nat) (q : Ring) : Bool :=
  q.en && 0 < q.waiting && p.headSlots q ≤ q.waiting && p.tableRoom q.prio && !p.ringOrdered r

/-- R371: the ring that a fetch turn serves. -/
def Pkg.fetchRing (p : Pkg) : Option (Nat × Ring) :=
  let es := p.rings.filter (fun e => p.eligible e.1 e.2)
  match (List.range 4).find? (fun c => es.any (fun e => e.2.prio = c)) with
  | none => none
  | some c =>
    let of := es.filter (fun e => e.2.prio = c)
    match p.port.lastRing.find c with
    | none => of.head?
    | some l => match of.find? (fun e => l < e.1) with | some e => some e | none => of.head?

/-- R385: a command of no known type completes with some status of R381. -/
def Pkg.malformed (p : Pkg) (k : Nat) : Pkg :=
  let x := p.fresh
  x.1.finish k (Config.freeNat x.2 % 11) 0 0

/-- R381, R390: a command of a job whose entry is in state 2 completes without firing; the entry carries the origin of the ABORT.
Where the host itself wrote STATE 2 there is none: a free value (log 8). -/
def Pkg.whileAborted (p : Pkg) (k : Nat) (c : Cmd) : Pkg :=
  let st := if c.isColl || c.ty = 8 then 6 else 7
  match p.fab.origins.find c.job with
  | some o => p.finish k st o 0
  | none =>
    let x := p.fresh
    x.1.finish k st (Config.freeNat x.2 % 2 ^ 14) 0

def Pkg.fetchTurn (p : Pkg) : Pkg :=
  if p.fw.inReset || !p.hostMem || p.fld (rRING_CTRL.at 0 0 0) fRING_CTRL_FETCH = 0 then p
  else
    match p.fetchRing with
    | none => p
    | some (r, q) =>
      let n := p.headSlots q
      let d := p.hostRead (q.slot q.head) 64 ++ (if n = 2 then p.hostRead (q.slot (q.head + 1)) 64 else [])
      let k := p.arrivals
      let c : Cmd := { d := d, ring := r, prio := q.prio, seq := q.head, arr := k, stage := .fetched, fire := none, left := [],
                       started := [], fail := none, fin := none, prog := 0, began := 0, idx := 0, crc := 0#32,
                       tally := [], ues := [], record := [], recAt := none, suspect := 0#32, abortDue := false }
      let head := (q.head + n) % 2 ^ 32
      let p := { p with cmds := p.cmds.set k c, arrivals := k + 1, rings := p.rings.set r { q with head := head }
                        port := { p.port with lastRing := p.port.lastRing.set q.prio r } }
      let p := (p.rdCurr (q.slot q.head) 64)
      let p := if n = 2 then p.rdCurr (q.slot (q.head + 1)) 64 else p
      let p := (p.hostWrite (p.ringCtx r + 12) (toBytes 4 head)).traceCmd c 1 c.ty q.head
      if c.job ≠ 0 && p.jobAborted c.job then p.whileAborted k c
      else if !knownType c.ty then p.malformed k
      else p

/-! COMPLETION_ENTRY and INTERRUPT_TIMER (R379, R380). -/

/-- The 32 bytes of entry `n`. -/
def Cmd.entry (c : Cmd) (e : Ending) (q : Cq) : List Byte :=
  toBytes 4 c.tag ++ toBytes 2 c.ring ++ toBytes 1 e.status ++ toBytes 1 (if q.n / 2 ^ q.size % 2 = 0 then 1 else 0)
    ++ toBytes 4 c.seq ++ toBytes 2 c.ids.layer ++ toBytes 2 c.ids.op ++ toBytes 4 e.elapsed ++ toBytes 4 e.d0 ++ toBytes 8 e.d1

/-- The completion ring of a command. -/
def Pkg.cqOf (p : Pkg) (c : Cmd) : Nat := (p.ring c.ring).cq

def Cq.hasRoom (q : Cq) : Bool := (q.n + 2 ^ 32 - q.head) % 2 ^ 32 < 2 ^ q.size

/-- R380: every uncovered entry is covered by one interrupt. -/
def Pkg.interrupt (p : Pkg) (c : Nat) : Pkg :=
  let q := p.cq c
  ({ p with cqs := p.cqs.set c { q with uncovered := 0 } }).raiseVector q.vector

/-- Whether the entry of a command that has ended can be written now. -/
def Pkg.entryRoom (p : Pkg) (c : Cmd) : Bool := p.hostMem && (p.cq (p.cqOf c)).en && (p.cq (p.cqOf c)).hasRoom

def Pkg.completionEntry (p : Pkg) (k : Nat) : Pkg :=
  match p.cmds.find k with
  | none => p
  | some c =>
    match c.fin with
    | none => p
    | some e =>
      if !p.entryRoom c then p
      else
        let i := p.cqOf c
        let q := p.cq i
        let p := p.hostWrite (q.base + 32 * (q.n % 2 ^ q.size)) (c.entry e q)
        let q := { q with n := (q.n + 1) % 2 ^ 32, uncovered := q.uncovered + 1, since := if q.uncovered = 0 then p.ftc.now else q.since }
        let p : Pkg := { p with cqs := p.cqs.set i q, cmds := p.cmds.del k }
        if e.status ≠ 0 || q.intCount ≤ q.uncovered then p.interrupt i else p

/-- INT_TIME µs after the first uncovered entry; the clock is there by then (log 2). -/
def Pkg.interruptTimer (p : Pkg) (c : Nat) : Pkg :=
  let q := p.cq c
  if q.intTime = 0 || q.uncovered = 0 || !p.linkUp then p else (p.until (q.since + 1000 * q.intTime)).interrupt c

/-! Commands of the headstock. -/

/-- KERNEL: the command goes to its firing stage (R168, R373). -/
def Pkg.kernel (p : Pkg) (k : Nat) : Pkg :=
  match p.cmds.find k with
  | some c => if c.ty = 1 && c.stage = .fetched && c.fin = none && p.orderOk k c && p.dispatchTurn k && !p.fw.inReset then p.dispatch k else p
  | none => p

/-- A command of a type and operation that has fired and that the headstock runs. -/
def Cmd.firedAs (c : Cmd) (ty : Nat) : Bool := c.ty = ty && c.stage = .fired && c.fin = none

/-- R160, R375: PEGSET with OP 0. -/
def Pkg.pegsetSet (p : Pkg) (k : Nat) : Pkg :=
  match p.cmds.find k with
  | some c => if c.firedAs 11 && c.f 30 1 % 2 = 0 then (p.setDpeg (c.f 28 1 % 8) (c.f 29 1) (c.f 32 4)).finish k 0 0 0 else p
  | none => p

/-- R160, R375: PEGSET with OP 1. -/
def Pkg.pegsetAdd (p : Pkg) (k : Nat) : Pkg :=
  match p.cmds.find k with
  | some c => if c.firedAs 11 && c.f 30 1 % 2 = 1 then (p.addDpeg (c.f 28 1 % 8) (c.f 29 1) (c.f 32 4)).finish k 0 0 0 else p
  | none => p

/-- R375: NOP. -/
def Pkg.nop (p : Pkg) (k : Nat) : Pkg :=
  match p.cmds.find k with
  | some c => if c.firedAs 12 then p.finish k 0 0 0 else p
  | none => p

end Sys2Proof.Machine
end

