-- ==== Sys2Proof/Machine/Engines.lean ====
section
/-! DEFINITION. Gather-and-stream engines (R210): COPY (R377), GATHER (R378), DUMP (R432 to R434); the scrub engine:
FILL (R220, R221) and SCRUB (R227 to R229). One event moves one segment of R232, or up to 16 lines of a scrub engine. -/
namespace Sys2Proof.Machine

/-! Reads by an engine of die `n`. -/

inductive Pull where
  | data (bs : List Byte)
  | parked                              -- a refusal parks the requester (R203)
  | bad (cause addr : Nat)              -- R207
  deriving DecidableEq, Repr

/-- R232, R233: data arrives at die `m`, its destination, from a source on die `n` whose segment begins at `a`. -/
def Pkg.checked (p : Pkg) (n m a : Nat) (ecc : Ecc) (bs : List Byte) : Pkg × Pull :=
  match ecc with
  | .parity => (p.datapath n a, .bad 2 a)
  | .crc => (p.datapath m a, .bad 2 a)
  | _ => (p, .data bs)

/-- A read that the trackers have admitted, by die `n` (R178, R199, R224, R233): bytes of package-local memory or of a bench window, for a
destination on die `m`. SOURCE code `src` (R226). -/
def Pkg.pullNow (p : Pkg) (n src tag a len : Nat) (ids : Ids) (ecc : Ecc) (m : Nat := n) : Pkg × Pull :=
  let p := p.meets ecc
  if p.wayBad n a then (p, .bad 4 a)
  else
    match p.owner a with
    | none =>
      if p.rangeBad a len then (p.noteWindow a len, .bad 2 a) else (p.takeWay n a len ids).checked n m a ecc (p.readBytes a len)
    | some _ =>
      match p.readAt a len src tag ids with
      | (p, .error b) => (p, .bad 2 b)
      | (p, .ok bs) => (p.takeWay n a len ids).checked n m a ecc bs

/-- What of the errors that an access meets comes after its admission: those of its way. -/
def Ecc.later : Ecc → Ecc
  | .parity => .parity
  | .crc => .crc
  | _ => .keep

/-- R199 to R203, R205: `len` bytes of package-local memory or of a bench window, asked for with the writes `wr` that they go to; a
refusal of one of these parks the requester. -/
def Pkg.pull (p : Pkg) (n : Nat) (w : Requester) (src tag a len : Nat) (ids : Ids) (ecc : Ecc) (wr : List (Nat × Nat) := []) (m : Nat := n) :
    Pkg × Pull :=
  if p.wayBad n a then (p, .bad 4 a)
  else
    let q := (p.meets ecc).askAll w (piecesOf a len) wr
    if q.2 then (q.1.progress ids.job).pullNow n src tag a len ids ecc.later m else (q.1, .parked)

/-! Where an address field points (R31, R377). -/
inductive Space where
  | local' (a : Nat)
  | host (a : Nat)
  | global (a : Nat)
  | reserved
  deriving DecidableEq, Repr

def Pkg.space (p : Pkg) (sp a : Nat) : Space :=
  if sp = 0 then .local' (a % 2 ^ 48)
  else if sp = 1 then .host a
  else if sp = 2 then (if a / 2 ^ 48 % 2 ^ 14 = p.coord then .local' (a % 2 ^ 48) else .global a)
  else .reserved

/-- The die whose range of the address map holds a package-local address (R28). -/
def addrDie (a : Nat) : Nat :=
  let a := a % 2 ^ 48
  if a < 0x20000000000 then a / 0x4000000000 % 8
  else if a < 0x60000000000 then (a - 0x20000000000) / 0x8000000000 % 8
  else (a - 0x100000000000) / 0x10000000 % 8

/-- R232, R303: a DMA payload of one segment: its bytes and their CRC-32C. -/
def segment (bs : List Byte) : List Byte := bs ++ toBytes 4 (crc32c bs).toNat

/-! What an engine command moves. -/

structure Xfer where
  rows : Nat
  rowBytes : Nat
  srcSp : Nat
  src : Nat
  srcStride : Nat
  dstSp : Nat
  dst : Nat
  dstStride : Nat
  deriving DecidableEq, Repr

/-- R376, R432: the fields of COPY, GATHER and DUMP. -/
def Cmd.xfer (c : Cmd) : Xfer :=
  if c.ty = 3 then ⟨c.f 52 4, c.f 48 4, c.f 28 1, c.f 32 8, c.f 56 4, c.f 29 1, c.f 40 8, c.f 60 4⟩
  else if c.ty = 4 then ⟨c.f 56 4, c.f 52 4, 0, c.f 32 8, c.f 48 4, c.f 30 1, c.f 64 8, c.f 72 4⟩
  else ⟨c.f 52 4, c.f 48 4, 0, c.f 40 8, c.f 56 4, c.f 29 1, c.f 64 8 + 64, c.f 48 4⟩

def Xfer.total (x : Xfer) : Nat := x.rows * x.rowBytes

/-- The row in progress and the byte reached in it. -/
def Cmd.row (c : Cmd) : Nat := c.prog / c.xfer.rowBytes
def Cmd.col (c : Cmd) : Nat := c.prog % c.xfer.rowBytes

/-- The engine of a die that runs a command. -/
def Pkg.engineOf (p : Pkg) (c : Cmd) (k : Nat) : Option Nat := ((p.die c.engDie).engs.find? (fun e => e.2 = k)).map Prod.fst

/-- R340: the next of the commands that wait for an engine: class 3 after the other classes. -/
def Pkg.nextOf (p : Pkg) (q : List Nat) : Option Nat :=
  match q.find? (fun k => match p.cmds.find k with | some c => c.prio ≠ 3 | none => false) with
  | some k => some k
  | none => q.head?

/-- R167, R340: where that one is of class 3, it is taken at an arbitration point: at the next one, with what fires there. -/
def Pkg.pointFor (p : Pkg) (first : Option Nat) : Pkg :=
  match first.bind (fun k => p.cmds.find k) with
  | some c => if c.prio = 3 && p.ftc.now % 8 ≠ 0 then p.arbitrate else p
  | none => p

/-- A command is taken. -/
def Pkg.taken (p : Pkg) (k : Nat) : Pkg := p.updCmd k (fun c => { c with stage := .running, began := p.ftc.now })

/-- ENGINE_START (R210, R340): a free engine takes the next command that waits. -/
def Pkg.engineStart (p : Pkg) (n : Nat) : Pkg :=
  match (List.range 8).find? (fun e => ((p.die n).engs.find e).isNone) with
  | none => p
  | some e =>
    let p := p.pointFor (p.nextOf (p.die n).engq)
    match p.nextOf (p.die n).engq with
    | none => p
    | some k =>
      ((p.updDie n (fun d => { d with engs := d.engs.set e k, engq := d.engq.filter (fun x => !(x = k)),
                                      engParked := d.engParked.filter (fun x => !(x = e)) })).useGrants (.engine (n * 8 + e))).taken k

/-- The command leaves its engine, with the frames it still waits for. -/
def Pkg.offEngine (p : Pkg) (k : Nat) : Pkg := p.dropCmd k

/-- R207, R209, R210, R381: the engine stops the command, which completes with GATHER_ABORT. -/
def Pkg.engineAbort (p : Pkg) (k cause pos addr : Nat) : Pkg :=
  match p.cmds.find k with
  | none => p
  | some c =>
    let p := (p.offEngine k).finish k 2 pos (2 ^ 63 + 2 ^ 60 * cause + 2 ^ 57 * c.engDie + addr % 2 ^ 48)
    p.policyEvent fHS_FAULT_POLICY_GATHER { Event.blank 0x22 with
      die := c.engDie, job := c.job, tag := c.tag, layer := c.ids.layer, op := c.ids.op, detail := cause, addr := addr }

/-- R314, R377, R381: a frame of the copy was not delivered. -/
def Pkg.pathEnd (p : Pkg) (k reason addr : Nat) : Pkg :=
  match p.cmds.find k with
  | none => p
  | some c =>
    let p := (p.offEngine k).finish k 8 reason addr
    p.policyEvent fHS_FAULT_POLICY_PATH { Event.blank 0x24 with
      die := c.engDie, job := c.job, tag := c.tag, layer := c.ids.layer, op := c.ids.op, detail := reason, addr := addr }

/-- R434: the header of a DUMP. -/
def Pkg.dumpHeader (p : Pkg) (c : Cmd) : List Byte :=
  toBytes 4 0x50445A44 ++ toBytes 4 (c.f 32 4) ++ toBytes 4 (c.f 36 4) ++ toBytes 4 c.tag ++ toBytes 2 c.ids.layer
    ++ toBytes 2 c.ids.op ++ toBytes 2 c.job ++ toBytes 1 (c.f 30 1 % 16) ++ toBytes 1 0 ++ toBytes 4 (c.f 52 4)
    ++ toBytes 4 (c.f 48 4) ++ (c.d.drop 72).take 16 ++ toBytes 8 c.began ++ toBytes 2 p.coord ++ toBytes 2 0
    ++ toBytes 4 (c.crc ^^^ 0xFFFFFFFF#32).toNat

/-- Bytes of die `n` go to their destination: package-local, to host memory, or in a WRITE frame of one segment (R232, R303). `src`: the
first source address of the segment. -/
def Pkg.push (p : Pkg) (n : Nat) (c : Cmd) (k : Nat) (src : Nat) (tgt : Space) (bs : List Byte) : Pkg :=
  match tgt with
  | .local' a => (p.sendWay n a bs.length c.ids).write a bs c.ids c.tag
  | .host a => (p.hostWrite a bs).headSend n bs.length c.ids
  | .global a =>
    let die := addrDie a
    let p := { p with fab := { p.fab with writes := p.fab.writes ++ [(⟨k, c.tag, src, a, bs.length⟩ : FabWrite)] } }
    p.inject { Frame.mk' 1 (a / 2 ^ 48 % 2 ^ 14) die n c.job with id := c.tag, seq := src % 2 ^ 32, aux := a, payload := segment bs }
  | .reserved => p

/-- Whether the command still waits for frames of another package. -/
def Pkg.awaits (p : Pkg) (k : Nat) : Bool := p.fab.reads.any (fun r => r.cmd = k) || p.fab.writes.any (fun r => r.cmd = k)

/-- R200: what a move to or from a space asks of the trackers. -/
def Space.writes (len : Nat) : Space → List (Nat × Nat)
  | .local' a => piecesOf a len
  | _ => []

/-- R203: a refusal parks an engine's command. -/
def Pkg.parkEngine (p : Pkg) (n e : Nat) : Pkg :=
  p.updDie n (fun d => { d with engParked := if d.engParked.contains e then d.engParked else e :: d.engParked })

/-- R21, R207: the way of die `n` to an address space has failed. -/
def Pkg.spaceBad (p : Pkg) (n : Nat) : Space → Bool
  | .local' a => p.wayBad n a
  | .host _ => p.headBad n
  | _ => false

/-- R233: the die at which what die `n` sends to a space is checked: that of its destination; without one in the package, its own. -/
def Pkg.spaceDie (p : Pkg) (n : Nat) : Space → Nat
  | .local' a => (p.homeDie a).getD n
  | _ => n

def aDump : Nat := rOBS_DUMP_STATUS.at 0 0 0

/-- R366, R377, R434: the command completes once every byte is written; a DUMP's header comes last. `ecc`: what the header meets on its way
(R231); one that fails its check at its destination is not written, and ends the DUMP (R233), with address 0, since it has no source (log 44). -/
def Pkg.engineDone (p : Pkg) (k : Nat) (ecc : Ecc := .keep) : Pkg :=
  match p.cmds.find k with
  | none => p
  | some c =>
    if c.fin ≠ none || c.stage ≠ .running || c.prog < c.xfer.total || p.awaits k then p
    else if c.ty = 10 && c.prog = c.xfer.total then
      let tgt := p.space (c.f 29 1) (c.f 64 8)
      let q := (p.meets ecc).askAll (.engine (c.engDie * 8 + (p.engineOf c k).getD 0)) [] (tgt.writes 64)
      if p.spaceBad c.engDie tgt then p.engineAbort k 4 c.xfer.rows 0
      else if (tgt matches .host _) && !p.hostMem then p
      else if !q.2 then q.1.parkEngine c.engDie ((p.engineOf c k).getD 0)
      else if ecc = .crc || ecc = .parity then (q.1.datapath (p.spaceDie c.engDie tgt) 0).engineAbort k 2 c.xfer.rows 0
      else
        let p := ((q.1.push c.engDie c k 0 tgt (p.dumpHeader c)).updCmd k (fun c => { c with prog := c.prog + 1 })).progress c.job
        if p.awaits k then p else fin p c
    else fin p c
where fin (p : Pkg) (c : Cmd) : Pkg :=
  if c.ty = 10 then
    let p := p.bumpWrap aDump fOBS_DUMP_STATUS_WRITTEN
    let p := p.traceCmd c 11 0 (2 ^ 32 * c.f 32 4 + c.f 36 4)
    (p.offEngine k).finish k 0 0 0
  else (p.offEngine k).finish k 0 0 0

/-- R210: an engine has up to 512 line requests outstanding. -/
def Pkg.outstanding (p : Pkg) (w : Requester) : Nat :=
  (List.range p.board.dies).foldl (fun t n => t + ((p.die n).trk.filter (fun e => e.who = w)).length) 0

/-- R203, R357, R377: the data of a READ is written once its destination lets it in: the trackers, the host link. -/
def Pkg.commitRead (p : Pkg) (k : Nat) (r : FabRead) : Pkg :=
  match p.cmds.find k, r.data with
  | some c, some bs =>
    let n := c.engDie
    let e := (p.engineOf c k).getD 0
    let tgt := p.space c.xfer.dstSp r.dst
    if p.spaceBad n tgt then p.engineAbort k 4 r.pos r.src
    else if (tgt matches .host _) && !p.hostMem then p
    else
      let q := p.askAll (.engine (n * 8 + e)) [] (tgt.writes bs.length)
      if !q.2 then q.1.parkEngine n e
      else
        let p : Pkg := { q.1 with fab := { q.1.fab with reads := removeFirst (fun x => x = r) q.1.fab.reads } }
        ((p.push n c k r.src tgt bs).progress c.job).engineDone k
  | _, _ => p

/-- One segment of row `c.row`: its source is read and its bytes are sent on. `from'`: the row's source. -/
def Pkg.moveSegment (p : Pkg) (c : Cmd) (k e : Nat) (from' : Nat) (ecc : Ecc) : Pkg :=
  let x := c.xfer
  let n := c.engDie
  let a := from' + c.col
  let len := min (x.rowBytes - c.col) (256 - a % 256)
  let src := p.space x.srcSp a
  let tgt := p.space x.dstSp (x.dst + c.row * x.dstStride + c.col)
  let w : Requester := .engine (n * 8 + e)
  let m := p.spaceDie n tgt
  let go (r : Pkg × Pull) : Pkg :=
    match r with
    | (p, .parked) => p.parkEngine n e
    | (p, .bad cause b) => p.engineAbort k cause c.row b
    | (p, .data bs) =>
      (((p.push n c k a tgt bs).updCmd k (fun c => { c with prog := c.prog + len, crc := bs.foldl crc32cByte c.crc })).progress c.job).engineDone k
  let hostly := (tgt matches .host _) || (src matches .host _)
  if (hostly && !p.hostMem) || 512 < p.outstanding w + (src.writes len).length + (tgt.writes len).length then p
  else if p.spaceBad n src || p.spaceBad n tgt then p.engineAbort k 4 c.row a
  else
    match src with
    | .reserved => p
    | .local' a => go (p.pull n w 2 c.tag a len c.ids ecc (tgt.writes len) m)
    | .host a =>
      let q := (p.meets ecc).askAll w [] (tgt.writes len)
      go (if q.2 then (q.1.rdCurr a len).checked n m a ecc (p.hostRead a len) else (q.1, .parked))
    | .global g =>
      let p := { p with fab := { p.fab with
        reads := p.fab.reads ++ [(⟨k, c.tag, g, len, x.dst + c.row * x.dstStride + c.col, c.row, none⟩ : FabRead)] } }
      let p := (p.updCmd k (fun c => { c with prog := c.prog + len })).progress c.job
      p.inject { Frame.mk' 2 (g / 2 ^ 48 % 2 ^ 14) (addrDie g) n c.job with id := c.tag, seq := len, aux := g }

/-- R193: the next 256 bytes of a row of zeros. It makes no read: over a failed path it names the address it would write (log 44). -/
def Pkg.zeroSegment (p : Pkg) (c : Cmd) (k e : Nat) : Pkg :=
  let x := c.xfer
  let n := c.engDie
  let len := min (x.rowBytes - c.col) 256
  let tgt := p.space x.dstSp (x.dst + c.row * x.dstStride + c.col)
  let w : Requester := .engine (n * 8 + e)
  if ((tgt matches .host _) && !p.hostMem) || 512 < p.outstanding w + (tgt.writes len).length then p
  else if p.spaceBad n tgt then p.engineAbort k 4 c.row (match tgt with | .local' a | .host a | .global a => a | .reserved => 0)
  else
    let q := p.askAll w [] (tgt.writes len)
    if !q.2 then q.1.parkEngine n e
    else (((q.1.push n c k 0 tgt (List.replicate len 0#8)).updCmd k (fun c => { c with prog := c.prog + len })).progress c.job).engineDone k

/-- Whether an engine command can move now: on its engine and not parked. -/
def Pkg.engineOn (p : Pkg) (c : Cmd) (k : Nat) : Option Nat :=
  match p.engineOf c k with
  | some e => if (p.die c.engDie).engParked.contains e || c.fin ≠ none then none else some e
  | none => none

/-- R385: a reserved address space (log 3). -/
def Cmd.badSpace (c : Cmd) : Bool := 3 ≤ c.xfer.srcSp || 3 ≤ c.xfer.dstSp

/-- RING_COPY (R196, R377): the next segment of a COPY, or its end. -/
def Pkg.ringCopy (p : Pkg) (k : Nat) (ecc : Ecc) : Pkg :=
  match p.cmds.find k with
  | none => p
  | some c =>
    if c.ty ≠ 3 then p
    else
      match p.engineOn c k with
      | none => p
      | some e =>
        let x := c.xfer
        if c.badSpace then (p.offEngine k).malformed k
        else
          match p.fab.reads.find? (fun r => r.cmd = k && r.data.isSome) with
          | some r => p.commitRead k r
          | none => if x.total ≤ c.prog then p.engineDone k else p.moveSegment c k e (x.src + c.row * x.srcStride) ecc

/-- R193: bytes of an index of an engine GATHER, and the address of that of the row in progress. -/
def Cmd.idxLen (c : Cmd) : Nat := if c.f 29 1 / 2 % 2 = 1 then 8 else 4
def Cmd.idxAt (c : Cmd) : Nat := c.f 40 8 + c.row * c.idxLen
/-- SENT, and the index that it names. -/
def Cmd.isSent (c : Cmd) (i : Nat) : Bool := c.f 29 1 / 8 % 2 = 1 && i = 2 ^ (8 * c.idxLen) - 1

/-- The next segment of a row whose index is there. -/
def Pkg.gatherRow (p : Pkg) (c : Cmd) (k e : Nat) (ecc : Ecc) : Pkg :=
  if c.isSent c.idx then p.zeroSegment c k e else p.moveSegment c k e ((c.xfer.src + c.idx * c.xfer.srcStride) % 2 ^ 48) ecc

/-- ENGINE_GATHER (R192, R193, R378): the next segment of a GATHER; its index first where a row begins. The fault of an index names the
address at which it is read (R209). -/
def Pkg.engineGather (p : Pkg) (k : Nat) (ecc : Ecc) : Pkg :=
  match p.cmds.find k with
  | none => p
  | some c =>
    if c.ty ≠ 4 then p
    else
      match p.engineOn c k with
      | none => p
      | some e =>
        let n := c.engDie
        if c.badSpace || c.xfer.dstSp = 2 || c.f 29 1 % 2 = 0 then (p.offEngine k).malformed k
        else if c.xfer.total ≤ c.prog then p.engineDone k
        else if c.col ≠ 0 then p.gatherRow c k e ecc
        else
          match p.pull n (.engine (n * 8 + e)) 2 c.tag c.idxAt c.idxLen c.ids ecc with
          | (p, .parked) => p.parkEngine n e
          | (p, .bad cause _) => p.engineAbort k (if cause = 2 && ecc ≠ .crc then 1 else cause) c.row c.idxAt
          | (p, .data bs) =>
            let i := ofBytes bs
            if !c.isSent i && c.f 60 4 ≠ 0 && c.f 60 4 ≤ i then p.engineAbort k 3 c.row c.idxAt
            else (p.updCmd k (fun c => { c with idx := i })).gatherRow { c with idx := i } k e .keep

/-- DUMP (R433, R434): one that was not armed at its firing completes without copying. -/
def Pkg.dump (p : Pkg) (k : Nat) (ecc : Ecc) : Pkg :=
  match p.cmds.find k with
  | none => p
  | some c =>
    if c.ty ≠ 10 then p
    else if c.firedAs 10 then ((p.bumpWrap aDump fOBS_DUMP_STATUS_SKIPPED).traceCmd c 11 1 (2 ^ 32 * c.f 32 4 + c.f 36 4)).finish k 0 0 0
    else
      match p.engineOn c k with
      | none => p
      | some e =>
        let x := c.xfer
        if c.badSpace then (p.offEngine k).malformed k
        else
          let p := if c.prog = 0 then p.updCmd k (fun c => { c with crc := 0xFFFFFFFF#32 }) else p
          if x.total ≤ c.prog then p.engineDone k ecc
          else p.moveSegment c k e (x.src + c.row * x.srcStride) ecc

/-! The scrub engine. -/

/-- The scrub engine of a die takes the command at the front of its queue (R220, R340). -/
def Pkg.scrubTake (p : Pkg) (n k : Nat) : Pkg :=
  if (p.die n).scrub ≠ none || p.nextOf (p.die n).scrubq ≠ some k then p
  else
    let p := p.pointFor (some k)
    if p.nextOf (p.die n).scrubq ≠ some k then p
    else
      ((p.updDie n (fun d => { d with scrub := some k, scrubParked := false, scrubq := d.scrubq.filter (fun x => !(x = k)) })).useGrants
        (.scrub n)).taken k

def Pkg.scrubOn (p : Pkg) (n k : Nat) : Bool := (p.die n).scrub = some k && !(p.die n).scrubParked

/-- The lines of the next beat of a FILL or SCRUB. -/
def Cmd.nextLines (c : Cmd) : List Nat :=
  (List.range (min 16 (c.f 40 8 / 64 - c.prog))).map (fun i => c.f 32 8 + 64 * (c.prog + i))

def Pkg.parkScrub (p : Pkg) (n : Nat) : Pkg := p.updDie n (fun d => { d with scrubParked := true })

/-- R221: one line is written whole: in the bench cache where it is present, in memory otherwise. -/
def Pkg.fillOne (n : Nat) (pat : List Byte) (ids : Ids) (p : Pkg) (line : Nat) : Pkg :=
  let bs := pat ++ pat ++ pat ++ pat ++ pat ++ pat ++ pat ++ pat
  let p := (p.touch n line true).countHit n line
  let p : Pkg := { p with mem := p.mem.write line bs }
  let p := match (p.die n).bcache.find line with
    | some b => p.updDie n (fun d => { d with bcache := d.bcache.set line ⟨true, false, b.leaving⟩ })
    | none => { p with badLines := p.badLines.del line }
  p.countMem n line 64 true ids

/-- FILL (R220, R221): up to 16 lines. -/
def Pkg.fillCmd (p : Pkg) (k : Nat) : Pkg :=
  match p.cmds.find k with
  | none => p
  | some c =>
    match p.owner (c.f 32 8) with
    | none => if c.firedAs 5 then p.malformed k else p
    | some n =>
      let p := p.scrubTake n k
      if c.ty ≠ 5 || c.fin ≠ none || !p.scrubOn n k then p
      else
        let ls := c.nextLines
        let q := p.askAll (.scrub n) [] (ls.map (fun l => (l, 64))) .read .fill
        if !q.2 then q.1.parkScrub n
        else
          let p := (ls.foldl (Pkg.fillOne n (toBytes 8 (c.f 48 8)) c.ids) q.1).progress c.job
          let p := p.updCmd k (fun c => { c with prog := c.prog + ls.length })
          if c.f 40 8 / 64 ≤ c.prog + ls.length then (p.dropCmd k).finish k 0 0 0 else p

/-- R228: the stored copy of one line is decoded, and rewritten in MODE 1 where the bench cache holds no newer data. -/
def Pkg.scrubOne (n k : Nat) (rewrite : Bool) (ids : Ids) (p : Pkg) (line : Nat) : Pkg :=
  let p := p.countMem n line 64 false ids
  let bump (i : Nat) (c : Cmd) : Cmd := { c with tally := c.tally.upd i 0 (· + 1) }
  match p.badLines.find line with
  | none => p
  | some true => p.updCmd k (fun c => { (bump 1 c) with ues := if c.ues.length < 8 then c.ues ++ [line] else c.ues })
  | some false =>
    let p := p.updCmd k (bump 0)
    if !rewrite then p
    else
      let newer := match (p.die n).bcache.find line with | some b => b.dirty || b.poisoned | none => false
      if newer then p.updCmd k (bump 3)
      else (({ p with badLines := p.badLines.del line }).countMem n line 64 true ids).updCmd k (bump 2)

/-- R229: the summary record. -/
def Cmd.summary (c : Cmd) : List Byte :=
  let t (i : Nat) : Nat := c.tally.getD i 0
  let addrs := (c.ues ++ List.replicate (8 - c.ues.length) 0).flatMap (toBytes 8)
  toBytes 8 c.prog ++ toBytes 8 (t 0) ++ toBytes 8 (t 1) ++ toBytes 8 (t 2) ++ toBytes 8 (t 3) ++ toBytes 1 c.ues.length
    ++ List.replicate 7 0#8 ++ addrs ++ List.replicate 16 0#8

/-- R229, R232: the summary record goes out; one that does not match its CRC-32C at its destination is reported and not committed, and goes out
again, since the command completes after the record is written (log 26). -/
def Pkg.putSummary (p : Pkg) (n : Nat) (c : Cmd) (k : Nat) (ecc : Ecc) : Pkg :=
  let tgt := p.space (c.f 29 1) (c.f 48 8)
  let done (p : Pkg) : Pkg := (p.dropCmd k).finish k 0 0 0
  match tgt with
  | .reserved => (p.dropCmd k).malformed k
  | .global _ => (p.push n c k 0 tgt c.summary).progress c.job
  | _ =>
    if (tgt matches .host _) && !p.hostMem then p
    else
      let q := (p.meets ecc).askAll (.scrub n) [] (tgt.writes 128)
      if !q.2 then q.1.parkScrub n
      else if ecc = .crc || ecc = .parity then q.1.datapath (p.spaceDie n tgt) 0
      else done ((q.1.push n c k 0 tgt c.summary).progress c.job)

/-- SCRUB (R227 to R229): up to 16 lines; then the summary. An answer of WRITE_ACK ends one whose summary goes to another
package. -/
def Pkg.scrubCmd (p : Pkg) (k : Nat) (ecc : Ecc) : Pkg :=
  match p.cmds.find k with
  | none => p
  | some c =>
    match p.owner (c.f 32 8) with
    | none => if c.firedAs 6 then p.malformed k else p
    | some n =>
      let p := p.scrubTake n k
      if c.ty ≠ 6 || c.fin ≠ none || !p.scrubOn n k then p
      else if c.prog < c.f 40 8 / 64 then
        let ls := c.nextLines
        let q := (p.meets ecc).askAll (.scrub n) (ls.map (fun l => (l, 64))) [] .stored
        if !q.2 then q.1.parkScrub n
        else
          let p := (ls.foldl (Pkg.scrubOne n k (c.f 28 1 % 2 = 1) c.ids) q.1).progress c.job
          p.updCmd k (fun c => { c with prog := c.prog + ls.length })
      else if p.awaits k then p
      else p.putSummary n c k ecc

end Sys2Proof.Machine
end

