-- ==== Sys2Proof/Machine/Update.lean ====
section
/-! DEFINITION. UPDATE (chapter 8): the parameter record (R247), pass 1 (R250, R251) and pass 2 (R253 to R258). One event
runs a pass on every core of its set. -/
namespace Sys2Proof.Machine

/-! The arithmetic (each operation rounds once to nearest-even, R120, R121). -/

/-- R250: 64 lanes of accumulators over up to 4,096 elements, then the tree. -/
def chunkSum (f : Word → Word → Word) (xs : List Word) : Word :=
  tree64 fadd ((inChunks 64 xs).foldl (fun acc g => List.zipWith f (g ++ List.replicate (64 - g.length) 0#32) acc)
    (List.replicate 64 0#32))

/-- R250: 4,096-element chunks in order. -/
def seqSum (f : Word → Word → Word) (xs : List Word) : Word :=
  match (inChunks 4096 xs).map (chunkSum f) with
  | [] => 0#32
  | s :: ss => ss.foldl fadd s
def seqSq (xs : List Word) : Word := seqSum (fun x a => ffma x x a) xs
def oSum (xs : List Word) : Word := seqSum (fun x a => fadd a x) xs

/-- R250: the sum of squares of one column, by 64-row chunks. -/
def colSq (xs : List Word) : Word :=
  match (inChunks 64 xs).map (fun g => g.foldl (fun a x => ffma x x a) 0#32) with
  | [] => 0#32
  | s :: ss => ss.foldl fadd s

/-- R247: the parameter record. -/
structure URec where
  b : List Byte
  deriving DecidableEq, Repr

def URec.f (r : URec) (o n : Nat) : Nat := ofBytes ((r.b.drop o).take n)
def URec.w (r : URec) (o : Nat) : Word := BitVec.ofNat 32 (r.f o 4)
def URec.rows (r : URec) : Nat := r.f 72 4
def URec.cols (r : URec) : Nat := r.f 76 4
def URec.rule (r : URec) : Nat := r.f 88 1 % 4
def URec.freeze (r : URec) : Bool := r.f 89 1 % 2 = 1
def URec.lr (r : URec) : Word := r.w 96
def URec.beta1 (r : URec) : Word := r.w 100
def URec.beta2 (r : URec) : Word := r.w 104
def URec.eps (r : URec) : Word := r.w 108
def URec.wdec (r : URec) : Word := r.w 112
def URec.clip (r : URec) : Word := r.w 116
def URec.eps1 (r : URec) : Word := r.w 120

/-- A whole number as FP32, rounded once. -/
def natF32 (n : Nat) : Word := toF32 (.fin false n 0)

/-- R253: the scalars of pass 2, from the record and the sum s. -/
structure UScal where
  c : Word
  c2 : Word
  p1 : Word
  p2 : Word
  a1 : Word
  a2 : Word
  k1 : Word
  e2 : Word
  b2c : Word
  wd : Word
  nlr : Word
  nk1 : Word
  e1c : Word
  e1r : Word
  deriving DecidableEq, Repr

def URec.scalars (r : URec) (s : Word) : UScal :=
  let le := ltFV (f32 s) (f32 (fmul r.clip r.clip)) || eqFV (f32 s) (f32 (fmul r.clip r.clip))
  let c := if eqFV (f32 r.clip) (f32 0#32) || le then one32 else fmul r.clip (frsq s)
  let p1 := fmul (r.w 148) r.beta1
  let p2 := fmul (r.w 152) r.beta2
  let k1 := fmul r.lr (frcp (fsub one32 p1))
  { c := c, c2 := fmul c c, p1 := p1, p2 := p2, a1 := fsub one32 r.beta1, a2 := fsub one32 r.beta2, k1 := k1,
    e2 := frsq (fsub one32 p2), b2c := frcp (fsub one32 p2), wd := fneg (fmul r.lr r.wdec), nlr := fneg r.lr,
    nk1 := fneg k1, e1c := fmul r.eps1 (natF32 r.cols), e1r := fmul r.eps1 (natF32 (r.f 80 4)) }

def gt0 (x : Word) : Bool := ltFV (f32 0#32) (f32 x)
def isNan (x : Word) : Bool := f32 x = .nan

/-- R254: one element: w, m and v (0 where the rule has none) from w, m, v, the gradient, and rule 2's ri and cs[j]. -/
def URec.step (r : URec) (k : UScal) (w m v g ri cs : Word) : Word × Word × Word :=
  let g := fmul k.c g
  match r.rule with
  | 0 =>
    let m := ffma r.beta1 m g
    let d := if r.f 89 1 / 2 % 2 = 1 then ffma r.beta1 m g else m
    let d := ffma r.wdec w d
    (ffma k.nlr d w, m, v)
  | 1 =>
    let m := ffma r.beta1 m (fmul k.a1 g)
    let v := ffma r.beta2 v (fmul k.a2 (fmul g g))
    let sv := if gt0 v then fmul v (frsq v) else 0#32
    let d := fmul m (frcp (ffma sv k.e2 r.eps))
    let w := ffma k.wd w w
    (ffma k.nk1 d w, m, v)
  | 2 =>
    let vh := fmul ri cs
    let u := if gt0 vh then fmul g (frsq vh) else 0#32
    let w := ffma k.wd w w
    (ffma k.nlr u w, m, v)
  | _ =>
    let d := ffma r.beta1 m (fmul k.a1 g)
    let t := if gt0 d then one32 else if ltFV (f32 d) (f32 0#32) then fneg one32 else if isNan d then nan32 else 0#32
    let w := ffma k.wd w w
    (ffma k.nlr t w, ffma r.beta2 m (fmul k.a2 g), v)

/-! Reads and writes of a pass. -/

/-- R258: the first read that failed: rank, POS, CAUSE of R207, address. -/
structure UFault where
  rank : Nat
  pos : Nat
  cause : Nat
  addr : Nat
  deriving DecidableEq, Repr

/-- A pass in progress; `keys`: the cores of the set in rank order; `meets`: what one of its line accesses meets, by its place in the pass
(log 23); `last`: rank and line read last. -/
structure Upd where
  p : Pkg
  keys : List Nat
  c : Cmd
  fault : Option UFault
  meets : Option (Nat × Ecc)
  last : Option (Nat × Nat)

/-- R245, R423: bytes that a core's gather unit requests. -/
def Upd.counted (u : Upd) (p : Pkg) (rank a len : Nat) (wr : Bool) : Pkg :=
  if (p.owner a).isSome then p.onKey (u.keys.getD rank 0) (fun c => c.countGth (p.isDdr a) u.c.ids len wr) else p

/-- What the next access meets. -/
def Upd.nextEcc (u : Upd) : Ecc × Option (Nat × Ecc) :=
  match u.meets with
  | some (0, e) => (e, none)
  | some (i + 1, e) => (.keep, some (i, e))
  | none => (.keep, none)

/-- One read of a line, or of part of one, by the core of a rank: an access of the line where the core has not just read it (R187, R188). -/
def Upd.getPart (u : Upd) (rank pos : Nat) (x : Nat × Nat) : Upd × Option (List Byte) :=
  let n := u.keys.getD rank 0 / 72
  match u.fault with
  | some _ => (u, if u.p.rangeBad x.1 x.2 then none else some (u.p.readBytes x.1 x.2))
  | none =>
    if u.last = some (rank, lineOf x.1) then
      let p := match u.p.owner x.1 with | some o => (u.p.countMem o x.1 x.2 false u.c.ids).takeWay n x.1 x.2 u.c.ids | none => u.p
      ({ u with p := u.counted p rank x.1 x.2 false }, some (p.readBytes x.1 x.2))
    else
      let e := u.nextEcc
      match u.p.pullNow n 1 u.c.tag x.1 x.2 u.c.ids e.1 with
      | (p, .data bs) => ({ u with p := u.counted p rank x.1 x.2 false, meets := e.2, last := some (rank, lineOf x.1) }, some bs)
      | (p, .bad cause b) => ({ u with p := p, fault := some ⟨rank, pos, cause, b⟩ }, none)
      | (p, .parked) => ({ u with p := p }, none)

/-- One read by the core of a rank; after the first failure the rest is taken as it stands. -/
def Upd.get (u : Upd) (rank a len pos : Nat) : Upd × Option (List Byte) :=
  (piecesOf a len).foldl (fun r x =>
    let y := r.1.getPart rank pos x
    (y.1, match r.2, y.2 with | some l, some bs => some (l ++ bs) | _, _ => none)) (u, some [])

/-- `n` reads: element i by the core of `rank i`, at `addr i`, with POS `pos i`. -/
def Upd.gets (u : Upd) (n len : Nat) (rank addr pos : Nat → Nat) : Upd × List (Option (List Byte)) :=
  let r := (List.range n).foldl (fun (x : Upd × List (Option (List Byte))) i =>
    let y := x.1.get (rank i) (addr i) len (pos i)
    (y.1, y.2 :: x.2)) (u, [])
  (r.1, r.2.reverse)

def wordsOf (l : List (Option (List Byte))) : List (Option Word) := l.map (fun o => o.map (fun bs => BitVec.ofNat 32 (ofBytes bs)))

/-- R250: the rank of the core that processes a chunk. -/
def Upd.rankOf (u : Upd) (q : Nat) : Nat := q % max 1 u.keys.length
/-- The core of element e's chunk, and of row i's. -/
def Upd.byElem (u : Upd) (e : Nat) : Nat := u.rankOf (e / 4096)
def Upd.byRow (u : Upd) (i : Nat) : Nat := u.rankOf (i / 64)

/-- R248: the gradient as FP32, in element order. A GRAD_FMT outside the table of R247, whose results are unpredictable, reads as FP32
(log 42). -/
def Upd.grad (u : Upd) (r : URec) : Upd × List (Option Word) :=
  let n := r.rows * r.cols
  let base := r.f 32 8
  if r.f 90 1 = 14 then
    let h := u.gets ((n + 255) / 256) 3 (fun b => u.byElem (256 * b)) (fun b => base + 1600 * b + 1536) (fun b => 256 * b)
    let m := h.1.gets n 6 u.byElem (fun e => base + 1600 * (e / 256) + 6 * (e % 256)) id
    (m.1, m.2.zipIdx.map (fun x =>
      match x.1, h.2.getD (x.2 / 256) none with
      | some bs, some hd =>
        let f : Fret := { m := [signedOf 48 (ofBytes bs)], x := ofBytes (hd.take 1), h := ofBytes ((hd.drop 1).take 1),
                          nonfin := ofBytes (hd.drop 2) % 2 = 1 }
        some (toF32 (f.elem 0))
      | _, _ => none))
  else if r.f 90 1 = 1 then
    let m := u.gets n 2 u.byElem (fun e => base + 2 * e) id
    (m.1, m.2.map (fun o => o.map (fun bs => toF32 (decodeF bf16 (ofBytes bs)))))
  else
    let m := u.gets n 4 u.byElem (fun e => base + 4 * e) id
    (m.1, wordsOf m.2)

/-- Every word of a list is there. -/
def allOf (l : List (Option Word)) : Option (List Word) := if l.all Option.isSome then some (l.filterMap id) else none

/-- A write of a line, or of part of one, by the core of a rank. -/
def Upd.putPart (u : Upd) (w : Nat × Nat × List Byte) : Upd :=
  let p := u.p.sendWay (u.keys.getD w.1 0 / 72) w.2.1 w.2.2.length u.c.ids
  { u with p := u.counted (p.write w.2.1 w.2.2 u.c.ids u.c.tag) w.1 w.2.1 w.2.2.length true, last := none }

/-- When the pass has failed, whether a write had taken effect is not defined (R258): `seed` draws a free value for each word (log 8). -/
def Upd.kept (u : Upd) (seed a : Nat) : Bool := !(u.fault.isSome && !(Config.freeWord seed a).getLsbD 0)

def Upd.put (u : Upd) (seed : Nat) (rank a : Nat) (bs : List Byte) : Upd := if u.kept seed a then u.putPart (rank, a, bs) else u

/-- R188: writes of one core that join in one line are one request: rank, address, bytes. -/
def joined (l : List (Nat × Nat × List Byte)) : List (Nat × Nat × List Byte) :=
  l.foldr (fun x acc =>
    match acc with
    | y :: ys => if x.1 = y.1 && x.2.1 + x.2.2.length = y.2.1 && lineOf x.2.1 = lineOf y.2.1 then (x.1, x.2.1, x.2.2 ++ y.2.2) :: ys
                 else x :: y :: ys
    | [] => [x]) []

/-- Words written where they could be computed: word i at `addr i` by `rank i`. -/
def Upd.puts (u : Upd) (seed : Nat) (l : List (Option Word)) (rank addr : Nat → Nat) : Upd :=
  let ws := l.zipIdx.filterMap (fun x => match x.1 with
    | some w => if u.kept seed (addr x.2) then some (rank x.2, addr x.2, toBytes 4 w.toNat) else none
    | none => none)
  (joined ws).foldl Upd.putPart u

/-- R420: elements processed, counted on the dies of the cores that process them. -/
def Upd.countElems (u : Upd) (n : Nat) : Upd :=
  if u.fault.isSome then u
  else { u with p := (List.range ((n + 4095) / 4096)).foldl (fun p q =>
    p.countDie (u.keys.getD (u.rankOf q) 0 / 72) 29 (min 4096 (n - 4096 * q)) u.c.ids) u.p }

/-! Pass 1. -/

/-- R250, R251: the statistics of a shard that is not frozen. -/
def Upd.pass1 (u : Upd) (r : URec) (seed norm : Nat) : Upd :=
  let n := r.rows * r.cols
  let x := u.grad r
  let u := x.1
  let u := match allOf x.2 with
    | some g => u.puts seed [some (seqSq g)] (fun _ => 0) (fun _ => norm)
    | none => u
  let u := if r.rule = 2 then
      let rows := inChunks r.cols x.2
      let rsum := rows.map (fun l => (allOf l).map seqSq)
      let csum := (List.range r.cols).map (fun j => (allOf (rows.map (fun l => l.getD j none))).map colSq)
      let u := u.puts seed rsum u.byRow (fun i => r.f 56 8 + 4 * i)
      u.puts seed csum (fun _ => 0) (fun j => r.f 56 8 + 4 * (r.rows + j))
    else u
  u.countElems n

/-! Pass 2. -/

def zip5 (n : Nat) (f : Nat → Option (Word × Word × Word)) : List (Option (Word × Word × Word)) := (List.range n).map f

/-- R255: the rounding of OUT for element (i, j). -/
def URec.outRnd (r : URec) (i j : Nat) : Rnd :=
  skRnd (if r.f 92 1 = 1 then some ⟨BitVec.ofNat 64 (r.f 128 8), r.w 136, r.w 140⟩ else none) i j

/-- R107, R115, R255: the codes of OUT, and its scales for MX formats, where the elements could be computed. An OUT_FMT outside the table of
R247, whose results are unpredictable, is read as the format code that it spells (log 42). -/
def URec.out (r : URec) (ws : List (Option Word)) : List (Option Nat) × List (Option Nat) :=
  let e := fmtOf (r.f 91 1)
  let cols := r.cols
  if e.isMx then
    let bs := (inChunks 32 ws).zipIdx.map (fun x =>
      (allOf x.1).map (fun l => mxEncode e (l.zipIdx.map (fun y =>
        let k := 32 * x.2 + y.2
        (f32 y.1, r.outRnd (k / cols) (k % cols))))))
    (bs.flatMap (fun b => match b with | some x => x.2.map some | none => List.replicate 32 none), bs.map (fun b => b.map Prod.fst))
  else (ws.zipIdx.map (fun x => x.1.map (fun w => convTo e (r.outRnd (x.2 / cols) (x.2 % cols)) (f32 w))), [])

/-- R104, R255: the packed elements are written. When the pass has failed each element keeps its old value or takes its
new one (R258). -/
def Upd.putOut (u : Upd) (r : URec) (seed : Nat) (ws : List (Option Word)) : Upd :=
  let e := fmtOf (r.f 91 1)
  let w := e.bitsOf
  let base := r.f 40 8
  let o := r.out ws
  let old := u.p.readBytes base ((o.1.length * w + 7) / 8)
  let code (x : Option Nat × Nat) : Nat :=
    let was := unpack w (fun k => old.getD k 0#8) x.2
    match x.1 with
    | some c => if u.fault.isSome && !(Config.freeWord (seed + 1) (base * 64 + x.2)).getLsbD 0 then was else c
    | none => was
  -- 8 elements fill w bytes
  let parts := (inChunks 8 (o.1.zipIdx.map code)).zipIdx.flatMap (fun g =>
    let a := base + w * g.2
    let bs := toBytes ((g.1.length * w + 7) / 8) (packNat w g.1)
    (piecesOf a bs.length).map (fun x => (u.byElem (8 * g.2), x.1, (bs.drop (x.1 - a)).take x.2)))
  let u := (joined parts).foldl Upd.putPart u
  o.2.zipIdx.foldl (fun u x => match x.1 with
    | some s => u.put seed (u.byElem (32 * x.2)) (r.f 48 8 + x.2) [BitVec.ofNat 8 s]
    | none => u) u

/-- R254: rule 2's column and row statistics: cs[j], rs[i] and ri. -/
def Upd.factored (u : Upd) (r : URec) (k : UScal) : Upd × List (Option Word) × List (Option Word) × List (Option Word) :=
  if r.rule ≠ 2 then (u, [], [], [])
  else
    let cst := u.gets r.cols 4 (fun _ => 0) (fun j => r.f 24 8 + 4 * j) id
    let csm := cst.1.gets r.cols 4 (fun _ => 0) (fun j => r.f 64 8 + 4 * j) id
    let rst := csm.1.gets r.rows 4 u.byRow (fun i => r.f 16 8 + 4 * i) (fun i => i * r.cols)
    let rsm := rst.1.gets r.rows 4 u.byRow (fun i => r.f 56 8 + 4 * i) (fun i => i * r.cols)
    let upd (e1 : Word) (a b : List (Option (List Byte))) : List (Option Word) :=
      List.zipWith (fun x y => match x, y with
        | some s, some q => some (ffma r.beta2 s (fmul k.a2 (ffma k.c2 q e1)))
        | _, _ => none) (wordsOf a) (wordsOf b)
    let cs := upd k.e1r cst.2 csm.2
    let rs := upd k.e1c rst.2 rsm.2
    let ri := match allOf cs with
      | some l => let sc := fmul (frcp (oSum l)) k.b2c; rs.map (fun o => o.map (fun x => fmul x sc))
      | none => rs.map (fun _ => none)
    (rsm.1, cs, rs, ri)

/-- R254, R255: the update of a shard that is neither frozen nor skipped. -/
def Upd.pass2 (u : Upd) (r : URec) (k : UScal) (seed : Nat) : Upd :=
  let n := r.rows * r.cols
  let x := u.factored r k
  let cs := x.2.1
  let rs := x.2.2.1
  let ri := x.2.2.2
  let ms := x.1.gets n 4 u.byElem (fun e => r.f 0 8 + 4 * e) id
  let hasM := r.rule ≠ 2
  let mo := if hasM then ms.1.gets n 4 u.byElem (fun e => r.f 8 8 + 4 * e) id else (ms.1, [])
  let hasV := r.rule = 1
  let se := if hasV then mo.1.gets n 4 u.byElem (fun e => r.f 16 8 + 4 * e) id else (mo.1, [])
  let gr := se.1.grad r
  let u := gr.1
  let w := wordsOf ms.2
  let m := wordsOf mo.2
  let v := wordsOf se.2
  let zero : Option Word := some 0#32
  let new := zip5 n (fun e =>
    match w.getD e none, (if hasM then m.getD e none else zero), (if hasV then v.getD e none else zero), gr.2.getD e none,
        (if r.rule = 2 then ri.getD (e / r.cols) none else zero), (if r.rule = 2 then cs.getD (e % r.cols) none else zero) with
    | some w, some m, some v, some g, some ri, some cs => some (r.step k w m v g ri cs)
    | _, _, _, _, _, _ => none)
  let ws := new.map (fun o => o.map (fun t => t.1))
  let u := u.puts seed ws u.byElem (fun e => r.f 0 8 + 4 * e)
  let u := if hasM then u.puts seed (new.map (fun o => o.map (fun t => t.2.1))) u.byElem (fun e => r.f 8 8 + 4 * e) else u
  let u := if hasV then u.puts seed (new.map (fun o => o.map (fun t => t.2.2))) u.byElem (fun e => r.f 16 8 + 4 * e) else u
  let u := u.putOut r seed ws
  let u := u.puts seed rs (fun _ => 0) (fun i => r.f 16 8 + 4 * i)
  let u := u.puts seed cs (fun _ => 0) (fun j => r.f 24 8 + 4 * j)
  u.countElems n

/-! The command. -/

def aUpd (key : Nat) : Nat := rCORE_UPD_STATUS.at (key / 72) (key % 72) 0

/-- R169, R189, R209: an UPDATE starts on a core. -/
def Core.beginUpd (c : Core) (k now : Nat) : Core :=
  { c with startq := c.startq.drop 1, dcache := [], gfault := .none, aborted := false, upd := some (k, now) }

/-- The bound cores of a command's set, by rank. -/
def Pkg.setKeys (p : Pkg) (c : Cmd) : List Nat := (p.coreSet c).filterMap (fun x => p.phys (x / 64) (x % 64))

/-- R208, R209, R258: a read of the core `key` has failed: the UPDATE ends on every core. The descriptor and the thread of the read are not
given: free values (log 8). -/
def Pkg.updFail (p : Pkg) (k : Nat) (c : Cmd) (key pos cause addr : Nat) : Pkg :=
  let y := p.fresh
  let desc := Config.freeNat y.2 % 2 ^ 16
  let z := y.1.fresh
  let p := z.1.onKey key (fun q => { q with gfault := ⟨true, cause, false, Config.freeNat z.2 % 16, desc * 64, pos, addr⟩ })
  let p := p.stopCores k none
  let lc := (p.lcore key).getD 0
  let p := p.finish k 2 pos (2 ^ 60 * cause + 2 ^ 57 * (key / 72) + 2 ^ 51 * lc + desc)
  p.policyEvent fHS_FAULT_POLICY_GATHER { Event.blank 0x22 with
    die := key / 72, lcore := lc, pcore := key % 72, job := c.job, tag := c.tag, layer := c.ids.layer, op := c.ids.op,
    detail := cause, addr := addr }

/-- R260: PASS, and RULE once the record is there. -/
def Pkg.updRegs (p : Pkg) (c : Cmd) (key : Nat) : Pkg :=
  let p := p.setFld (aUpd key) fCORE_UPD_STATUS_PASS (c.f 31 1)
  if c.record.length = 256 then p.setFld (aUpd key) fCORE_UPD_STATUS_RULE (URec.rule ⟨c.record⟩) else p

/-- R245: a request of an UPDATE that a core runs. -/
def Requester.ofUpd (key : Nat) : Requester → Bool
  | .update k _ => k = key
  | _ => false

/-- The UPDATE at the head of a core's start queue starts there; nothing is admitted for it yet. -/
def Pkg.updOn (p : Pkg) (n lc key : Nat) (c : Cmd) (k : Nat) : Pkg :=
  let p := p.useGrantsBy (Requester.ofUpd key)
  let p := ((p.updCmd k (fun c => { c with started := (n * 64 + lc) :: c.started })).progress c.job).onKey key (fun q => q.beginUpd k p.ftc.now)
  (p.trace 4 n lc 1 c.job c.ring c.tag c.ids (c.f 32 8)).updRegs c key

/-- PROGRAM_START of an UPDATE (R169, R245). The core of rank 0 reads the whole record, once, as it starts (R247); a refusal makes it
wait (R203). `ecc`: what the read meets (R258). -/
def Pkg.updStart (p : Pkg) (n lc key : Nat) (e : StartEntry) (ecc : Ecc) : Pkg :=
  match p.cmds.find e.cmd with
  | none => p
  | some c =>
    if e.rank ≠ 0 || c.fail.isSome then p.updOn n lc key c e.cmd
    else
      match p.pull n (.update key 0) 1 c.tag (c.f 32 8) 256 c.ids ecc with
      | (p, .parked) => p
      | (p, .bad cause b) => (p.updOn n lc key c e.cmd).updFail e.cmd c key 0xFFFFFFFF cause b
      | (p, .data bs) =>
        let p := (p.onKey key (fun q => q.countGth (p.isDdr (c.f 32 8)) c.ids 256 false)).updCmd e.cmd (fun c => { c with record := bs })
        let c := { c with record := bs }
        let p := p.updOn n lc key c e.cmd
        ((p.setKeys c).filter (fun x => (p.core x).upd.isSome && (p.core x).cmdNo = e.cmd)).foldl (fun p x => p.updRegs c x) p

/-- PROGRAM_START: what stands at the head of the core's start queue starts. -/
def Pkg.startNext (p : Pkg) (n lc : Nat) (ecc : Ecc) : Pkg :=
  match p.phys n lc with
  | none => p
  | some key =>
    match (p.core key).startq with
    | e :: _ => if e.upd then (if p.startable key then p.updStart n lc key e ecc else p) else p.programStart n lc ecc
    | [] => p

/-- PROGRAM_END: of a program, or of an UPDATE whose command has failed (R18, R170). -/
def Pkg.endNext (p : Pkg) (n lc : Nat) : Pkg :=
  match p.phys n lc with
  | none => p
  | some key =>
    match (p.core key).upd with
    | none => p.programEnd n lc
    | some u =>
      match p.cmds.find u.1 with
      | some c => if c.fail.isSome then (p.endUpdOn c key 2).leave u.1 (n * 64 + lc) else p
      | none => p

/-- The cores of an UPDATE, by rank, once it runs on all of them and its record is there. -/
def Pkg.updReady (p : Pkg) (k : Nat) (c : Cmd) : Option (List Nat) :=
  let keys := p.setKeys c
  if c.ty = 2 && c.stage = .running && c.fin = none && c.fail = none && !keys.isEmpty && keys.length = (p.coreSet c).length &&
      keys.all (fun key => (p.core key).upd.isSome && (p.core key).cmdNo = k) && c.record.length = 256 then some keys
  else none

/-- R248: bytes of GRAD, and of OUT. -/
def URec.gradBytes (r : URec) : Nat :=
  if r.f 90 1 = 14 then 1600 * ((r.rows * r.cols + 255) / 256) else if r.f 90 1 = 1 then 2 * (r.rows * r.cols) else 4 * (r.rows * r.cols)
def URec.outBytes (r : URec) : Nat := (r.rows * r.cols * (fmtOf (r.f 91 1)).bitsOf + 7) / 8

/-- A part of memory that a pass reads or writes: its address and length, and the chunk (R250) of the byte at an offset of it. -/
structure Span where
  addr : Nat
  len : Nat
  chunk : Nat → Nat

/-- R250: chunks of 4,096 elements of 4 bytes, and of 64 rows; what the core of rank 0 reads or writes. -/
def Span.words (a n : Nat) : Span := ⟨a, 4 * n, fun o => o / 16384⟩
def Span.rows (a n : Nat) : Span := ⟨a, 4 * n, fun o => o / 256⟩
def Span.first (a len : Nat) : Span := ⟨a, len, fun _ => 0⟩
def URec.gradSpan (r : URec) : Span :=
  ⟨r.f 32 8, r.gradBytes, fun o => if r.f 90 1 = 14 then o / 25600 else if r.f 90 1 = 1 then o / 8192 else o / 16384⟩

/-- R250 to R257: what a pass reads and what it writes. -/
def URec.reads (r : URec) (c : Cmd) : List Span :=
  let n := r.rows * r.cols
  if r.freeze then []
  else if c.f 31 1 = 1 then [r.gradSpan]
  else [.first (c.f 40 8) (4 * c.f 48 4), .words (r.f 0 8) n, r.gradSpan] ++ (if r.rule = 2 then [] else [.words (r.f 8 8) n])
    ++ (if r.rule = 1 then [.words (r.f 16 8) n] else [])
    ++ (if r.rule = 2 then [.rows (r.f 16 8) r.rows, .first (r.f 24 8) (4 * r.cols), .rows (r.f 56 8) r.rows,
          .first (r.f 64 8) (4 * r.cols)] else [])
def URec.writes (r : URec) (c : Cmd) : List Span :=
  let n := r.rows * r.cols
  if c.f 31 1 = 1 then
    .first (c.f 40 8 + 4 * r.f 84 4) 4 :: (if r.rule = 2 && !r.freeze then
      [.rows (r.f 56 8) r.rows, .first (r.f 56 8 + 4 * r.rows) (4 * r.cols)] else [])
  else if r.freeze then [.first (c.f 32 8 + 156) 4]
  else [.words (r.f 0 8) n, ⟨r.f 40 8, r.outBytes, fun o => 8 * o / (fmtOf (r.f 91 1)).bitsOf / 4096⟩, .first (c.f 32 8 + 144) 20]
    ++ (if r.rule = 2 then [] else [.words (r.f 8 8) n]) ++ (if r.rule = 1 then [.words (r.f 16 8) n] else [])
    ++ (if (fmtOf (r.f 91 1)).isMx then [⟨r.f 48 8, n / 32, fun o => o / 128⟩] else [])
    ++ (if r.rule = 2 then [.first (r.f 16 8) (4 * r.rows), .first (r.f 24 8) (4 * r.cols)] else [])

/-- R187, R188: a line access of a pass: the core and its thread, address and length. -/
structure UReq where
  key : Nat
  thread : Nat
  addr : Nat
  len : Nat
  write : Bool
  deriving DecidableEq, Repr

/-- The accesses of a pass, line by line; the threads of a core take the lines in turn, which the spec leaves open (log 28). -/
def URec.reqs (r : URec) (c : Cmd) (keys : List Nat) : List UReq :=
  let of (write : Bool) (s : Span) : List (Nat × Nat × Nat × Bool) :=
    (piecesOf s.addr s.len).map (fun x => (keys.getD (s.chunk (x.1 - s.addr) % max 1 keys.length) 0, x.1, x.2, write))
  ((r.reads c).flatMap (of false) ++ (r.writes c).flatMap (of true)).zipIdx.map (fun y => ⟨y.1.1, y.2 % 16, y.1.2.1, y.1.2.2.1, y.1.2.2.2⟩)

/-- R188: line requests that a core has outstanding. -/
def Pkg.lineReqs (p : Pkg) (key : Nat) : Nat :=
  (List.range p.board.dies).foldl (fun t n => t + ((p.die n).trk.filter (fun e => e.who.ofUpd key)).length) (p.core key).reqs.length

/-- R200 to R203, R188: one access is asked for: at most 256 of a core are outstanding; a refusal parks its thread, and the other threads go on.
`parked`: the threads parked so far; the last part: every access so far is admitted. -/
def Pkg.updReq (x : Pkg × List Requester × Bool) (r : UReq) : Pkg × List Requester × Bool :=
  let p := x.1
  let w : Requester := .update r.key r.thread
  let line := lineOf r.addr
  match p.owner r.addr with
  | none => x
  | some o =>
    if !p.needsMemory o r.addr r.len (if r.write then .write else .read) || (p.die o).grants.any (fun g => g.1.ofUpd r.key && g.2.1 = line) then x
    else if x.2.1.contains w || 256 ≤ p.lineReqs r.key then (p, x.2.1, false)
    else
      match p.refusal o line w with
      | some res => (p.refuse o line w res, w :: x.2.1, false)
      | none => ((p.enterTracker o line w r.write).updDie o (fun d => { d with grants := d.grants ++ [(w, line, p.allocates o line)] }), x.2)

/-- The lines of the pass are admitted, or it waits for the rest. -/
def Pkg.updAsk (p : Pkg) (c : Cmd) (keys : List Nat) : Pkg × Bool :=
  let x := (URec.reqs ⟨c.record⟩ c keys).foldl Pkg.updReq (p, [], true)
  if x.2.2 then (keys.foldl (fun p key => p.useGrantsBy (Requester.ofUpd key)) x.1, true) else (x.1, false)

/-- The pass begins; access `ix` of its lines meets `ecc`. -/
def Pkg.updPass (p : Pkg) (c : Cmd) (keys : List Nat) (ix : Nat) (ecc : Ecc) : Upd := ⟨p, keys, c, none, some (ix, ecc), none⟩

/-- R170, R258: the pass has ended on every core, and the command completes. -/
def Upd.done (u : Upd) (k ticks status : Nat) : Pkg :=
  let p := (u.p.after ticks).progress u.c.job
  match u.fault with
  | some f => p.updFail k u.c (u.keys.getD f.rank 0) f.pos f.cause f.addr
  | none => ((u.keys.foldl (fun p key => p.endUpdOn u.c key 0) p).updCmd k (fun c => { c with left := [] })).finish k status 0 0

/-- STATISTICS_PASS (R250, R251): pass 1 of an UPDATE, which takes `ticks`. -/
def Pkg.statisticsPass (p : Pkg) (k ticks ix : Nat) (ecc : Ecc) : Pkg :=
  match p.cmds.find k with
  | none => p
  | some c =>
    match p.updReady k c with
    | none => p
    | some keys =>
      if c.f 31 1 ≠ 1 then p
      else
        let q := p.updAsk c keys
        if !q.2 then q.1
        else
          let y := q.1.fresh
          let u := y.1.updPass c keys ix ecc
          let r : URec := ⟨c.record⟩
          let norm := c.f 40 8 + 4 * r.f 84 4
          (if r.freeze then u.put y.2 0 norm (toBytes 4 0) else u.pass1 r y.2 norm).done k ticks 0

/-- The norm vector's sum s (R253). -/
def Upd.norm (u : Upd) (c : Cmd) : Upd × Option Word :=
  let x := u.gets (c.f 48 4) 4 (fun _ => 0) (fun i => c.f 40 8 + 4 * i) (fun _ => 0xFFFFFFFF)
  (x.1, (allOf (wordsOf x.2)).map (fun l => l.foldl fadd 0#32))

/-- A 4-byte count of the record goes up. -/
def Upd.bumpRec (u : Upd) (r : URec) (off : Nat) : Upd :=
  u.put 0 0 (u.c.f 32 8 + off) (toBytes 4 (r.f off 4 + 1))

/-- APPLY_PASS (R253 to R257): pass 2 of an UPDATE, which takes `ticks`. A PASS other than 1 and 2 is a host error (log 3). -/
def Pkg.applyPass (p : Pkg) (k ticks ix : Nat) (ecc : Ecc) : Pkg :=
  match p.cmds.find k with
  | none => p
  | some c =>
    match p.updReady k c with
    | none => p
    | some keys =>
      if c.f 31 1 = 1 then p
      else if c.f 31 1 ≠ 2 then ((keys.foldl (fun p key => p.endUpdOn c key 0) p).updCmd k (fun c => { c with left := [] })).malformed k
      else
        let q := p.updAsk c keys
        if !q.2 then q.1
        else
          let z := q.1.fresh
          let u := z.1.updPass c keys ix ecc
          let r : URec := ⟨c.record⟩
          let rank0 := keys.getD 0 0
          if r.freeze then
            let u := u.bumpRec r 156
            { u with p := u.p.bumpWrap (rCORE_UPD_FROZEN.at (rank0 / 72) (rank0 % 72) 0) fCORE_UPD_FROZEN_COUNT }.done k ticks 0
          else
            let y := u.norm c
            match y.2 with
            | none => y.1.done k ticks 0
            | some s =>
              if (f32 s).special then
                let u := y.1.bumpRec r 160
                { u with p := u.p.bumpWrap (rCORE_UPD_NONFIN.at (rank0 / 72) (rank0 % 72) 0) fCORE_UPD_NONFIN_COUNT }.done k ticks 3
              else
                let sc := r.scalars s
                let u := y.1.pass2 r sc z.2
                let u := if u.fault.isSome then u
                  else u.put 0 0 (c.f 32 8 + 144) (toBytes 4 (r.f 144 4 + 1) ++ toBytes 4 sc.p1.toNat ++ toBytes 4 sc.p2.toNat)
                u.done k ticks 0

end Sys2Proof.Machine
end

