-- ==== Sys2Proof/Machine/Collective.lean ====
section
/-! DEFINITION. The collective engine of a die (chapter 9): groups (R261 to R263), streams (R267), READY records (R268,
R269), halts (R286, R486, R487), the memory-side adders (R234 to R237), the FI48 exchange (R272 to R277), rank-ordered mode
(R278) and gathering (R280). The fields of frames that R303 only names are laid out here (log 15). -/
namespace Sys2Proof.Machine

/-! Members and fields. -/

/-- R262. -/
def memberEntry (coord die : Nat) : Nat := coord + 2 ^ 14 * die
def entryCoord (e : Nat) : Nat := e % 2 ^ 14
def entryDie (e : Nat) : Nat := e / 2 ^ 14 % 8

def Cmd.srcFmt (c : Cmd) : Elem := fmtOf (c.f 44 1 % 16)

/-- The triple of R268 names the command. -/
def Cmd.isTriple (c : Cmd) (e g i : Nat) : Bool := c.isColl && c.collEpoch = e && c.collGroup = g && c.collCid = i

def Stream.n (s : Stream) : Nat := s.members.length
def Pkg.updStream (p : Pkg) (n i : Nat) (f : Stream → Stream) : Pkg :=
  p.updDie n (fun d => { d with streams := match d.streams.find i with | some s => d.streams.set i (f s) | none => d.streams })

/-- The stream of a die on which the collective of a triple has started, with its command. -/
def Pkg.findStream (p : Pkg) (n e g i : Nat) : Option (Nat × Stream × Cmd) :=
  (p.die n).streams.findSome? (fun x => match p.cmds.find x.2.cmd with
    | some c => if c.isTriple e g i && !x.2.members.isEmpty then some (x.1, x.2, c) else none
    | none => none)

/-- R401: a frame of a collective from die `n` to a member goes out. -/
def Pkg.collFrame (p : Pkg) (n : Nat) (c : Cmd) (ty member seq aux : Nat) (payload : List Byte) : Pkg :=
  ((if entryCoord member = p.coord then p.dovetail n (entryDie member) (32 + payload.length) c.ids else p).inject
    { Frame.mk' ty (entryCoord member) (entryDie member) n c.job with
      epoch := c.collEpoch, group := c.collGroup, id := c.collCid, seq := seq, aux := aux, payload := payload }).progress c.job

/-- R286: the dovetail path to a member has failed: to its die, or to the die of the lane group that its frames leave on (R22). -/
def Pkg.memberBad (p : Pkg) (n : Nat) (c : Cmd) (member : Nat) : Bool :=
  if entryCoord member = p.coord then p.pathBad n (entryDie member)
  else
    let f := { Frame.mk' 0x11 (entryCoord member) (entryDie member) n c.job with src := p.coord, bank := p.bank }
    match p.nextHop f none with
    | .ok (some (i, _)) => p.pathBad n (groupDie p.board.dies i (flowGroup f (p.tport i).upGroups))
    | _ => false

/-- The rank of the member that sent a frame. -/
def Stream.rankOf (s : Stream) (f : Frame) : Option Nat := s.members.findIdx? (fun m => m % 2 ^ 17 = memberEntry f.src f.srcDie)

/-- The payload of bytes whose first one is read from `a`: segments of R232, each with its CRC-32C (R303). -/
def segsOf (a : Nat) (bs : List Byte) : List Byte :=
  let h := 256 - a % 256
  if bs.isEmpty then [] else segment (bs.take h) ++ (inChunks 256 (bs.drop h)).flatMap segment

/-- The segments of a payload; the offset of its first byte in its segment of the source is given (log 15). -/
def segCut (a : Nat) (payload : List Byte) : List (List Byte) :=
  let h := 260 - a % 256
  if payload.isEmpty then [] else payload.take h :: inChunks 260 (payload.drop h)
def segData (s : List Byte) : List Byte := s.take (s.length - 4)
/-- R232: the check of a segment holds. -/
def segOk (s : List Byte) : Bool := 4 ≤ s.length && ofBytes (s.drop (s.length - 4)) = (crc32c (segData s)).toNat

/-- The data of a payload, all of whose checks hold; or the offset of the first segment that fails. -/
def unsegs (a : Nat) (payload : List Byte) : Except Nat (List Byte) :=
  (segCut a payload).foldl (fun r s => match r with
    | .error k => .error k
    | .ok bs => if segOk s then .ok (bs ++ segData s) else .error bs.length) (.ok [])

/-- The frames that carry bytes read from `a`: offset and up to 4,096 bytes each. -/
def frameChunks (a : Nat) (bs : List Byte) : List (Nat × List Byte) :=
  let h := 4096 - a % 256
  let all := (if bs.isEmpty then [] else [bs.take h]) ++ inChunks 4096 (bs.drop h)
  (all.foldl (fun (x : Nat × List (Nat × List Byte)) b => (x.1 + b.length, x.2 ++ [(x.1, b)])) (0, [])).2

/-! Halts (R286, R486). -/

def aCollFault (n : Nat) : Nat := rCD_COLL_FAULT.at n 0 0

/-- CD_COLL_FAULT holds the first halt since VALID was cleared. -/
def Pkg.noteHalt (p : Pkg) (n i cause rank blk tag : Nat) : Pkg :=
  let a := aCollFault n
  if p.fld a fCD_COLL_FAULT_VALID = 1 then p.setFld a fCD_COLL_FAULT_MORE 1
  else
    let v := putFld (putFld (putFld (putFld 0#32 fCD_COLL_FAULT_VALID 1) fCD_COLL_FAULT_CAUSE cause) fCD_COLL_FAULT_STREAM i)
      fCD_COLL_FAULT_RANK rank
    ((p.wr a v).wr (rCD_COLL_FAULT_BLOCK.at n 0 0) (BitVec.ofNat 32 blk)).wr (rCD_COLL_FAULT_TAG.at n 0 0) (BitVec.ofNat 32 tag)

/-- The collective on a stream (or about to take stream `i`) halts: the record, the HALT frames of a member that halts by
itself, the completion, the event. -/
def Pkg.haltStream (p : Pkg) (n i k cause rank blk : Nat) (members : List Nat) : Pkg :=
  match p.cmds.find k with
  | none => p
  | some c =>
    let p := p.noteHalt n i cause rank blk c.tag
    let p := if cause = 4 then p
      else members.zipIdx.foldl (fun p m =>
        if m.2 = rank || p.memberBad n c m.1 then p
        else p.collFrame n c 0x1A m.1 0 (blk % 2 ^ 32 + 2 ^ 32 * rank + 2 ^ 48 * cause) []) p
    let p := (p.dropCmd k).finish k 5 blk (2 ^ 61 * cause + rank)
    p.policyEvent fHS_FAULT_POLICY_HALT { Event.blank 0x23 with
      die := n, job := c.job, tag := c.tag, layer := c.ids.layer, op := c.ids.op, detail := cause }

/-- The stream halts by itself. -/
def Pkg.haltOwn (p : Pkg) (n i cause blk : Nat) : Pkg :=
  match (p.die n).streams.find i with
  | some s => p.haltStream n i s.cmd cause s.rank blk s.members
  | none => p

/-- The path to a member has failed (R286). Of a READY or a SHARD_ACK the spec names no block: a free value (log 8). -/
def Pkg.haltPath (p : Pkg) (n i : Nat) (blk : Option Nat) : Pkg :=
  match blk with
  | some b => p.haltOwn n i 3 b
  | none => let x := p.fresh; x.1.haltOwn n i 3 (Config.freeNat x.2 % 2 ^ 32)

/-- The cause of R286 for a cause of R207. -/
def srcCause (cause : Nat) : Nat := if cause = 4 then 3 else 1

/-! Accesses of a stream (R200 to R203). -/

def streamReq (n i : Nat) : Requester := .stream (n * 16 + i)
/-- A refusal parks the stream. -/
def Pkg.parkStream (p : Pkg) (n i : Nat) : Pkg := p.updStream n i (fun s => { s with parked := true })
/-- The reads and writes of a step of a stream are admitted, or the stream parks. -/
def Pkg.collAsk (p : Pkg) (n i : Nat) (rd wr : List (Nat × Nat)) : Pkg × Bool :=
  let q := p.askAll (streamReq n i) rd wr
  if q.2 then (match (p.die n).streams.find i with | some s => q.1.progress (p.jobOf s.cmd) | none => q.1, true)
  else (q.1.parkStream n i, false)
/-- An admitted read by a collective engine (SOURCE 3). -/
def Pkg.collRead (p : Pkg) (n : Nat) (c : Cmd) (a len : Nat) (ecc : Ecc) : Pkg × Pull := p.pullNow n 3 c.tag a len c.ids ecc
/-- A request of the fabric that waits stands at the head of the receive queue (R203, R307). -/
def Pkg.requeue (p : Pkg) (f : Frame) : Pkg := { p with fab := { p.fab with inbox := (4, f) :: p.fab.inbox } }

/-! COLLECTIVE_STREAM_START (R267 to R269, R340, R487). -/

/-- A collective of a rank; `members` empty: it has still to read its group. -/
def Stream.start (k rank : Nat) (members ready : List Nat) : Stream :=
  { cmd := k, rank := rank, members := members, ready := ready, sentExp := [], own := [], agreed := [], sentC := [], ackd := [],
    granted := 0, commits := 0, slots := [], got := [], grants := [], sentR := [], shards := [], shardAcks := [], sentPk := [],
    acked := [], parked := false }

/-- R262: group record and member list. `.error true`: the tracker refuses; `.error false`: a read fails. -/
def Pkg.groupOf (p : Pkg) (n : Nat) (w : Requester) (c : Cmd) (base group : Nat) (ecc : Ecc) : Pkg × Except Bool (List Nat) :=
  match p.pull n w 3 c.tag (base + 64 * group) 64 c.ids ecc with
  | (p, .parked) => (p, .error true)
  | (p, .bad _ _) => (p, .error false)
  | (p, .data bs) =>
    let cnt := ofBytes (bs.take 4)
    if cnt = 0 || 65536 < cnt then (p, .ok [])
    else
      match p.pull n w 3 c.tag (ofBytes ((bs.drop 8).take 8) % 2 ^ 48) (4 * cnt) c.ids .keep with
      | (p, .data l) => (p, .ok ((inChunks 4 l).map ofBytes))
      | (p, .parked) => (p, .error true)
      | (p, .bad _ _) => (p, .error false)

def aGroupBase : Nat := rHS_GROUP_BASE.at 0 0 0

/-- The collective that is considered for a stream: one of class 0 to 2 first; and whether it may take one (R340). -/
def Pkg.firstColl (p : Pkg) (n : Nat) : Option Nat := p.nextOf (p.die n).collq
def Pkg.nextColl (p : Pkg) (n : Nat) : Option Nat :=
  match p.firstColl n with
  | some k =>
    let least := match p.cmds.find k with | some c => if c.prio = 3 then 4 else 1 | none => 1
    if (p.die n).streams.length + least ≤ 16 then some k else none
  | none => none

/-- The READYs of a collective that has started go out (R268). -/
def Pkg.sendReady (p : Pkg) (n i : Nat) (c : Cmd) (rank : Nat) (ms : List Nat) : Pkg :=
  if ms.zipIdx.any (fun m => m.2 ≠ rank && p.memberBad n c m.1) then p.haltPath n i none
  else ms.zipIdx.foldl (fun p m => if m.2 = rank then p else p.collFrame n c 0x10 m.1 0 0 []) p

/-- A stream begins its collective: the group is read, the ready records are taken, READY goes out. -/
def Pkg.streamBegin (p : Pkg) (n i k : Nat) (c : Cmd) (ecc : Ecc) : Pkg :=
  match p.groupOf n (streamReq n i) c (p.rd64 aGroupBase % 2 ^ 48) c.collGroup ecc with
  | (p, .error true) => p.parkStream n i
  | (p, .error false) => p.haltStream n i k 1 0xFFFF 0xFFFFFFFF []
  | (p, .ok ms) =>
    match ms.findIdx? (fun m => m % 2 ^ 17 = memberEntry p.coord n) with
    | none => (p.dropCmd k).malformed k
    | some rank =>
      if c.collOp = 3 then (p.dropCmd k).malformed k
      else
        let mine := (p.die n).ready.filter (fun r => c.isTriple r.epoch r.group r.cid)
        let p := p.updDie n (fun d => { d with ready := d.ready.filter (fun r => !c.isTriple r.epoch r.group r.cid),
                                               hung := d.hung.filter (fun h => !c.isTriple h.1 h.2.1 h.2.2) })
        match mine.findSome? ReadyRec.halted with
        | some h => p.haltStream n i k 4 h.1 h.2 ms
        | none =>
          let from' := mine.filterMap (fun r => ms.findIdx? (fun m => m % 2 ^ 17 = r.rank))
          let p := p.updDie n (fun d => { d with streams := d.streams.set i (Stream.start k rank ms from') })
          (p.updCmd k (fun c => { c with prog := ms.length })).sendReady n i c rank ms

/-- COLLECTIVE_STREAM_START: a stream that waited for its group goes on, or the next collective takes a free stream. -/
def Pkg.streamStart (p : Pkg) (n : Nat) (ecc : Ecc) : Pkg :=
  match (p.die n).streams.find? (fun x => x.2.members.isEmpty && !x.2.parked) with
  | some x => match p.cmds.find x.2.cmd with | some c => p.streamBegin n x.1 x.2.cmd c ecc | none => p
  | none =>
    let p := p.pointFor (p.firstColl n)
    match p.nextColl n, (List.range 16).find? (fun i => ((p.die n).streams.find i).isNone) with
    | some k, some i =>
      match p.cmds.find k with
      | none => p
      | some c =>
        let p := p.updDie n (fun d => { d with collq := d.collq.filter (fun x => !(x = k)), streams := d.streams.set i (Stream.start k 0 [] []) })
        ((p.useGrants (streamReq n i)).taken k).streamBegin n i k c ecc
    | _, _ => p

/-! Blocks of a reduction (R265, R266, R275). -/

/-- The first block of shard r, and its number of blocks. -/
def Cmd.perShard (c : Cmd) (n : Nat) : Nat := if c.collOp = 2 then (c.blocks + n - 1) / n else c.blocks
def Cmd.firstBlock (c : Cmd) (n r : Nat) : Nat := if c.collOp = 2 then min (r * c.perShard n) c.blocks else r * c.blocks
def Cmd.shardBlocks (c : Cmd) (n r : Nat) : Nat :=
  if c.collOp = 2 then min ((r + 1) * c.perShard n) c.blocks - c.firstBlock n r else c.blocks
/-- The source block index of block j of shard r. -/
def Cmd.srcIndex (c : Cmd) (n r j : Nat) : Nat := c.firstBlock n r + j

def Cmd.elemSize (c : Cmd) : Nat := c.srcFmt.bitsOf / 8
/-- Where a block's elements start in the source, and how many there are. -/
def Cmd.blockSrc (c : Cmd) (n r j : Nat) : Nat × Nat :=
  if c.collOp = 2 then
    let b := c.srcIndex n r j
    (c.f 48 8 + 256 * b * c.elemSize, min 256 (c.elems - 256 * b))
  else (c.f 48 8 + r * c.f 56 8 + 256 * j * c.elemSize, min 256 (c.elems - 256 * j))
/-- Where the owner's block j stands: DST, or STAGE of an ALL_REDUCE. -/
def Cmd.blockDst (c : Cmd) (j : Nat) : Nat := (if c.collOp = 2 then c.f 88 8 else c.f 72 8) + 1600 * j
/-- The offcut of element 256 × j of shard r (R276). -/
def Cmd.offcutAt (c : Cmd) (r j : Nat) : Nat := c.f 80 8 + (r * c.elems + 256 * j) * 4

def blockKey (r b : Nat) : Nat := 2 ^ 32 * r + b

def pad256 (l : List FV) : List FV := l ++ List.replicate (256 - l.length) (.fin false 0 0)

/-- What a member's block is read from: its source, and its offcut where the collective is thinned. -/
def Cmd.blockReads (c : Cmd) (cnt r j : Nat) : List (Nat × Nat) :=
  let s := c.blockSrc cnt r j
  piecesOf s.1 (s.2 * c.elemSize) ++ (if c.topk = 0 then [] else piecesOf (c.offcutAt r j) (4 * s.2))

/-- R272, R276: the 256 values of a member's block: the source, with the offcut added where the collective is thinned; or the cause of a
halt. A SRC_FMT that R101 does not list is unpredictable: its values are those that `fmtOf` and `elemFV` give its code, and the command goes
on (DESIGN CHOICE, log 42). -/
def Pkg.srcBlock (p : Pkg) (n : Nat) (c : Cmd) (cnt r j : Nat) (ecc : Ecc) : Pkg × Except Nat (List FV) :=
  let s := c.blockSrc cnt r j
  let e := c.srcFmt
  match p.collRead n c s.1 (s.2 * c.elemSize) ecc with
  | (p, .parked) => (p, .error 1)
  | (p, .bad cause _) => (p, .error (srcCause cause))
  | (p, .data bs) =>
    let xs := (inChunks c.elemSize bs).map (fun b => elemFV e (ofBytes b) 127)
    if c.topk = 0 then (p, .ok (pad256 xs))
    else
      match p.collRead n c (c.offcutAt r j) (4 * s.2) .keep with
      | (p, .parked) => (p, .error 1)
      | (p, .bad cause _) => (p, .error (srcCause cause))
      | (p, .data os) =>
        let offs := (inChunks 4 os).map (fun b => BitVec.ofNat 32 (ofBytes b))
        (p, .ok (pad256 (List.zipWith (fun x o => f32 (fadd (toF32 x) o)) xs offs)))

/-- R276: the elements that a thinned contribution carries: the k largest magnitudes, the lower index first among equals. -/
def thinned (k : Nat) (xs : List FV) : List Nat :=
  let mag (x : FV) : Nat := (toF32 x).toNat % 2 ^ 31
  let nz := xs.zipIdx.filter (fun x => !x.1.isZero)
  (sortBy (fun (a b : FV × Nat) => mag b.1 ≤ mag a.1) nz).take k |>.map Prod.snd

/-- R126, R128, R275: the integers of a contribution. -/
def Cmd.quantized (c : Cmd) (cnt q b code : Nat) (xs : List FV) : List Int :=
  let h := clog2 cnt
  let key : Option SK := if c.f 28 1 / 8 % 2 = 1 then
      some ⟨BitVec.ofNat 64 (c.f 96 8 + q), BitVec.ofNat 32 (c.f 104 4 + b), 0#32⟩ else none
  xs.zipIdx.map (fun x => quantize code h (skRnd key 0 x.2) x.1)

/-! The adders (R131, R234 to R237). -/

/-- The lines of an FI48 block (R235). -/
def blockLines (a : Nat) : List Nat := (List.range 25).map (fun i => lineOf a + 64 * i)
def blockPieces (a : Nat) : List (Nat × Nat) := (blockLines a).map (fun l => (l, 64))

/-- R234: an adder reads its target line, which allocates; SOURCE 4. `false`: poisoned, or its read is uncorrectable. -/
def Pkg.addRead (p : Pkg) (n line tag : Nat) (ids : Ids) : Pkg × Bool :=
  ((p.touch n line true).countHit n line).fillLine n line 4 tag true ids

/-- A target that R237 leaves poisoned. -/
def Pkg.poison (p : Pkg) (n : Nat) (lines : List Nat) : Pkg := lines.foldl (fun p l => p.install n l ⟨true, true, false⟩) p

/-- One contribution to an FI48 block of die `n`, with its FLAGS[0]: every element is added and the flag ORed in, X and H stay; `false`: the
block is poisoned. -/
def Pkg.adder (p : Pkg) (n a : Nat) (ms : List Int) (nonfin : Bool) (tag : Nat) (ids : Ids) : Pkg × Bool :=
  let lines := blockLines a
  let r := lines.foldl (fun (x : Pkg × Bool) l => let y := x.1.addRead n l tag ids; (y.1, x.2 && y.2)) (p, true)
  if r.2 then
    let old := fretOf (fun k => r.1.readByte (a + k))
    (((r.1.write a (((old.add ms nonfin).bytes).take 1539) ids tag).countDie n 28 1 ids), true)
  else (r.1.poison n lines, false)

/-- R131, R235, R237: the adders' add of an INT32 word at an aligned address of die `n`. No command of R375 asks for one. -/
def Pkg.addWord (p : Pkg) (n a : Nat) (x : Word) (tag : Nat) (ids : Ids) : Pkg × Bool :=
  let r := p.addRead n (lineOf a) tag ids
  if r.2 then (r.1.write a (toBytes 4 (BitVec.ofNat 32 (r.1.field a 4) + x).toNat) ids tag, true)
  else (r.1.poison n [lineOf a], false)

/-! The FI48 exchange. -/

/-- What a stream has in hand with its command, once it has its group. -/
def Pkg.streamCmd (p : Pkg) (n i : Nat) : Option (Stream × Cmd) :=
  match (p.die n).streams.find i with
  | some s => if s.members.isEmpty then none else (p.cmds.find s.cmd).map (fun c => (s, c))
  | none => none

/-- The stream ends with a status. -/
def Pkg.streamEnd (p : Pkg) (k status d0 d1 : Nat) : Pkg := (p.dropCmd k).finish k status d0 d1

/-- R285: non-finite blocks that the member owns. -/
def Stream.nonfin (s : Stream) : Nat := (s.own.filter (fun b => b.2.agreed = some 255)).length

/-- R274, R276, R285: every block is sent or, agreed 255, done with, every contribution is acknowledged, and as owner all N are
applied. -/
def Stream.reduced (s : Stream) (c : Cmd) : Bool :=
  let total := (List.range s.n).foldl (fun t r => t + c.shardBlocks s.n r) 0
  s.sentC.length = total && s.ackd.length = total && s.own.length = c.shardBlocks s.n s.rank && s.own.all (fun b => b.2.agreed.isSome && b.2.applied.length = s.n)

/-- Consecutive blocks of one window of 64 (R273), as runs (first, length). -/
def runsOf : List Nat → List (Nat × Nat)
  | [] => []
  | b :: bs => match runsOf bs with
    | (x, k) :: rs => if b + 1 = x && x % 64 ≠ 0 then (b, k + 1) :: rs else (b, 1) :: (x, k) :: rs
    | [] => [(b, 1)]

/-- R272, step 4: the owner writes an agreed block whole. -/
def Cmd.agreedBlock (cnt code : Nat) : List Byte :=
  Fret.bytes { m := [], x := code, h := clog2 cnt, nonfin := code = 255 }

/-- R268: every other member is READY. -/
def Stream.allReady (s : Stream) : Bool := s.n ≤ s.ready.length + 1
/-- The owner's blocks whose N codes are in and that are not agreed yet. -/
def Stream.due (s : Stream) : List (Nat × OwnBlock) := s.own.filter (fun b => b.2.agreed = none && b.2.codes.length = s.n)
def OwnBlock.code (b : OwnBlock) : Nat := b.codes.foldl (fun a x => max a x.2) 0

/-- One block is agreed: written, and counted where it is not finite. -/
def Pkg.agree (n i : Nat) (s : Stream) (c : Cmd) (p : Pkg) (b : Nat × OwnBlock) : Pkg :=
  let k := b.2.code
  let p := p.write (c.blockDst b.1) (Cmd.agreedBlock s.n k) c.ids c.tag
  let p := if k = 255 then p.bumpWrap (rCD_COLL_NONFIN.at n 0 0) fCD_COLL_NONFIN_COUNT else p
  p.updStream n i (fun s => { s with
    own := s.own.set b.1 { b.2 with agreed := some k, applied := if k = 255 then List.range s.n else b.2.applied }
    agreed := s.agreed.set (blockKey s.rank b.1) k
    sentC := if k = 255 && c.topk = 0 then blockKey s.rank b.1 :: s.sentC else s.sentC
    ackd := if k = 255 then blockKey s.rank b.1 :: s.ackd else s.ackd })

/-- R272 to R274, steps 3 to 5: the owner's blocks whose N codes are in are agreed: written, and their codes sent, with APPLIED for those
agreed 255. Codes go out once every member is READY (R268). -/
def Pkg.tryAgree (p : Pkg) (n i : Nat) : Pkg :=
  match p.streamCmd n i with
  | none => p
  | some (s, c) =>
    if s.parked || !s.allReady || s.due.isEmpty then p
    else if s.members.zipIdx.any (fun m => m.2 ≠ s.rank && p.memberBad n c m.1) then
      p.haltPath n i (some (c.srcIndex s.n s.rank ((s.due.map Prod.fst).headD 0)))
    else
      let due := s.due
      let q := p.collAsk n i [] (due.flatMap (fun b => blockPieces (c.blockDst b.1)))
      if !q.2 then q.1
      else
        let p := due.foldl (Pkg.agree n i s c) q.1
        let nonfin := (due.filter (fun b => b.2.code = 255)).map Prod.fst
        let codes : Tbl Nat := due.map (fun b => (b.1, b.2.code))
        s.members.zipIdx.foldl (fun p m =>
          if m.2 = s.rank then p
          else
            let p := (runsOf (due.map Prod.fst)).foldl (fun p r =>
              p.collFrame n c 0x12 m.1 r.1 0 ((List.range r.2).map (fun x => BitVec.ofNat 8 (codes.getD (r.1 + x) 0)))) p
            (inChunks 64 nonfin).foldl (fun p l => p.collFrame n c 0x15 m.1 (l.headD 0) 0 (l.flatMap (toBytes 4))) p) p

/-- R272, step 3: codes of a rank for blocks of the own shard. -/
def Pkg.takeCodes (p : Pkg) (n i rank first : Nat) (codes : List Nat) : Pkg :=
  p.updStream n i (fun s => { s with own := codes.zipIdx.foldl (fun t x =>
    t.upd (first + x.2) ⟨[], none, []⟩ (fun b => { b with codes := b.codes.set rank x.1 })) s.own })

/-- R272, steps 1 and 2: the local codes of one window of 64 blocks of shard r. -/
def Pkg.sendCodes (p : Pkg) (n i : Nat) (s : Stream) (c : Cmd) (r w : Nat) (ecc : Ecc) : Pkg :=
  let cnt := min 64 (c.shardBlocks s.n r - 64 * w)
  if p.memberBad n c (s.members.getD r 0) then p.haltPath n i (some (c.srcIndex s.n r (64 * w)))
  else
    let q := (p.meets ecc).collAsk n i ((List.range cnt).flatMap (fun j => c.blockReads s.n r (64 * w + j))) []
    if !q.2 then q.1
    else
      let x := (List.range cnt).foldl (fun (x : Pkg × List Nat × Option Nat) j =>
        match x.2.2 with
        | some _ => x
        | none =>
          match x.1.srcBlock n c s.n r (64 * w + j) (if j = 0 then ecc.later else .keep) with
          | (p, .ok l) => (p, x.2.1 ++ [localCode l], none)
          | (p, .error cause) => (p, x.2.1, some cause)) (q.1, [], none)
      match x.2.2 with
      | some cause => x.1.haltOwn n i cause (c.srcIndex s.n r (64 * w + x.2.1.length))
      | none =>
        let p := x.1.updStream n i (fun s => { s with sentExp := blockKey r w :: s.sentExp })
        if r = s.rank then (p.takeCodes n i s.rank (64 * w) x.2.1).tryAgree n i
        else p.collFrame n c 0x11 (s.members.getD r 0) (64 * w) 0 (x.2.1.map (BitVec.ofNat 8))

/-- R235 to R237, R272, step 7: an admitted contribution of a rank to the owner's block b: applied and acknowledged, or the target is
poisoned and the stream halts. -/
def Pkg.applyTo (p : Pkg) (n i : Nat) (s : Stream) (c : Cmd) (rank b : Nat) (ms : List Int) (nonfin : Bool) : Pkg :=
  match p.adder n (c.blockDst b) ms nonfin c.tag c.ids with
  | (p, false) => p.haltOwn n i 2 (c.srcIndex s.n s.rank b)
  | (p, true) =>
    let p := p.updStream n i (fun s => { s with own := s.own.upd b ⟨[], none, []⟩ (fun o =>
      { o with applied := if o.applied.contains rank then o.applied else rank :: o.applied }) })
    if rank = s.rank then p.updStream n i (fun s => { s with ackd := blockKey rank b :: s.ackd })
    else if p.memberBad n c (s.members.getD rank 0) then p.haltPath n i (some (c.srcIndex s.n s.rank b))
    else p.collFrame n c 0x15 (s.members.getD rank 0) b 0 (toBytes 4 b)

/-- The offcut of a block is written (R276). -/
def Pkg.putOffcut (p : Pkg) (c : Cmd) (cnt r b : Nat) (xs : List FV) (sent : List Nat) : Pkg :=
  let len := (c.blockSrc cnt r b).2
  p.write (c.offcutAt r b) ((xs.take len).zipIdx.flatMap (fun x => toBytes 4 (if sent.contains x.2 then 0 else (toF32 x.1).toNat))) c.ids c.tag

/-- What a contribution writes: the offcut of a thinned one. -/
def Cmd.contribWrites (c : Cmd) (cnt r b : Nat) : List (Nat × Nat) :=
  if c.topk = 0 then [] else piecesOf (c.offcutAt r b) (4 * (c.blockSrc cnt r b).2)

/-- R272, step 6, R274 to R276: the member's contribution to one agreed block of shard r; the owner's own is applied at once. -/
def Pkg.contribute (p : Pkg) (n i : Nat) (s : Stream) (c : Cmd) (r b code : Nat) (ecc : Ecc) : Pkg :=
  let key := blockKey r b
  let mark (p : Pkg) : Pkg := p.updStream n i (fun s => { s with sentC := key :: s.sentC })
  if code = 255 && c.topk = 0 then mark p
  else if code ≠ 255 && p.memberBad n c (s.members.getD r 0) then p.haltPath n i (some (c.srcIndex s.n r b))
  else
    let own := r = s.rank && code ≠ 255
    let q := (p.meets ecc).collAsk n i (c.blockReads s.n r b ++ (if own then blockPieces (c.blockDst b) else [])) (c.contribWrites s.n r b)
    if !q.2 then q.1
    else
      match q.1.srcBlock n c s.n r b ecc.later with
      | (p, .error cause) => p.haltOwn n i cause (c.srcIndex s.n r b)
      | (p, .ok xs) =>
        let p := mark p
        if code = 255 then p.putOffcut c s.n r b xs (List.range 256)
        else
          let ms := c.quantized s.n s.rank (c.srcIndex s.n r b) code xs
          let sent := if c.topk = 0 then List.range 256 else thinned c.topk xs
          let p := if c.topk = 0 then p else p.putOffcut c s.n r b xs sent
          if own then p.applyTo n i s c s.rank b (ms.zipIdx.map (fun x => if sent.contains x.2 then x.1 else 0)) false
          else if c.topk = 0 then p.collFrame n c 0x13 (s.members.getD r 0) b 0 (segsOf 0 (ms.flatMap (fun m => toBytes 6 (intCode 48 m))))
          else p.collFrame n c 0x14 (s.members.getD r 0) b 0
            (segsOf 0 (sent.flatMap (fun k => toBytes 1 k ++ toBytes 6 (intCode 48 (ms.getD k 0)))))

/-- The next window of codes to send: to the own shard, or to an owner that is READY. -/
def Stream.nextCodes (s : Stream) (c : Cmd) : Option (Nat × Nat) :=
  (List.range s.n).findSome? (fun r =>
    if r ≠ s.rank && !s.ready.contains r then none
    else ((List.range ((c.shardBlocks s.n r + 63) / 64)).find? (fun w => !s.sentExp.contains (blockKey r w))).map (fun w => (r, w)))

/-- The next agreed block whose contribution has not been sent. -/
def Stream.nextContrib (s : Stream) : Option (Nat × Nat × Nat) :=
  (s.agreed.find? (fun x => !s.sentC.contains x.1)).map (fun x => (x.1 / 2 ^ 32, x.1 % 2 ^ 32, x.2))

/-- One step of the reduce part of a stream: blocks to be agreed, codes, contributions. `none`: nothing to do. -/
def Pkg.reduceStep (p : Pkg) (n i : Nat) (s : Stream) (c : Cmd) (ecc : Ecc) : Option Pkg :=
  if s.allReady && !s.due.isEmpty then some (p.tryAgree n i)
  else
    match s.nextCodes c with
    | some (r, w) => some (p.sendCodes n i s c r w ecc)
    | none =>
      match s.nextContrib with
      | some (r, b, code) => some (p.contribute n i s c r b code ecc)
      | none => none

/-- REDUCE: the next step of a MODE 0 stream, or its end (R272 to R277, R285). -/
def Pkg.reduce (p : Pkg) (n i : Nat) (ecc : Ecc) : Pkg :=
  match p.streamCmd n i with
  | none => p
  | some (s, c) =>
    if s.parked || c.collOp ≠ 0 || c.ranked then p
    else
      match p.reduceStep n i s c ecc with
      | some q => q
      | none =>
        if s.reduced c then
          if s.nonfin = 0 then p.streamEnd s.cmd 0 0 0 else p.streamEnd s.cmd 4 s.nonfin 0
        else p

/-! Rank-ordered mode (R278). -/

/-- Values as FP32 bytes. -/
def fpBytes (l : List Word) : List Byte := l.flatMap (fun w => toBytes 4 w.toNat)
def fpWords (bs : List Byte) : List Word := (inChunks 4 bs).map (fun b => BitVec.ofNat 32 (ofBytes b))

/-- The member's contribution to shard r, converted exactly; its accesses are admitted. -/
def Pkg.rankSource (p : Pkg) (n : Nat) (c : Cmd) (r : Nat) (ecc : Ecc) : Pkg × Except Pull (List Word) :=
  match p.collRead n c (c.f 48 8 + r * c.f 56 8) (c.elems * c.elemSize) ecc with
  | (p, .data bs) => (p, .ok ((inChunks c.elemSize bs).map (fun b => toF32 (elemFV c.srcFmt (ofBytes b) 127))))
  | (p, x) => (p, .error x)
def Cmd.rankReads (c : Cmd) (r : Nat) : List (Nat × Nat) := piecesOf (c.f 48 8 + r * c.f 56 8) (c.elems * c.elemSize)

/-- R486: the block index of an element of shard r, and of the byte of a source that failed. -/
def Cmd.rankElem (c : Cmd) (r e : Nat) : Nat := (r * c.elems + e) / 256
def Cmd.rankBlock (c : Cmd) (r addr base size : Nat) : Nat := c.rankElem r ((addr - base) / max 1 size)

/-- A read for rank-ordered mode has failed. -/
def Pkg.rankBad (p : Pkg) (n i : Nat) (c : Cmd) (r base size : Nat) : Pull → Pkg
  | .bad cause a => p.haltOwn n i (srcCause cause) (c.rankBlock r a base size)
  | _ => p

/-- Where rank q's data stands in STAGE. -/
def Cmd.slotAt (c : Cmd) (k : Nat) : Nat := c.f 88 8 + k * (4 * c.elems)

/-- One rank is committed: rank 0 is written, a later one added element by element (R132); its accesses are admitted. -/
def Pkg.commitRank (p : Pkg) (n i : Nat) (s : Stream) (c : Cmd) (q : Nat) (vs : List Word) : Pkg :=
  let dst := c.f 72 8
  let old : Pkg × Pull := if q = 0 then (p, .data []) else p.collRead n c dst (4 * c.elems) .keep
  match old with
  | (p, .data bs) =>
    let new := if q = 0 then vs else List.zipWith rankAdd (fpWords bs) vs
    let p := p.write dst (fpBytes new) c.ids c.tag
    let p := p.updStream n i (fun s => { s with commits := s.commits + 1, slots := s.slots.del q, got := s.got.del q })
    if q = s.rank then p.updStream n i (fun s => { s with ackd := q :: s.ackd })
    else if p.memberBad n c (s.members.getD q 0) then p.haltPath n i (some (c.rankElem s.rank 0))
    else p.collFrame n c 0x15 (s.members.getD q 0) q 0 []
  | (p, .bad cause a) => p.haltOwn n i (if cause = 4 then 3 else 2) (c.rankBlock s.rank a dst 4)
  | (p, .parked) => p

/-- The ranks whose turn has come and whose data is there, in order (R278). -/
def Pkg.commitDue (n i : Nat) (ecc : Ecc) : Nat → Pkg → Pkg
  | 0, p => p
  | fuel + 1, p =>
    match p.streamCmd n i with
    | none => p
    | some (s, c) =>
      let q := s.commits
      let mine := q = s.rank
      if s.n ≤ q || s.parked || !(mine || (s.got.getD q 0 = 4 * c.elems && (s.slots.find q).isSome)) then p
      else
        let slot := c.slotAt (s.slots.getD q 0)
        let into := piecesOf (c.f 72 8) (4 * c.elems)
        let x := (p.meets ecc).collAsk n i ((if mine then c.rankReads s.rank else piecesOf slot (4 * c.elems)) ++ (if q = 0 then [] else into)) into
        if !x.2 then x.1
        else if mine then
          match x.1.rankSource n c s.rank ecc.later with
          | (p, .ok vs) => Pkg.commitDue n i .keep fuel (p.commitRank n i s c q vs)
          | (p, .error y) => p.rankBad n i c s.rank (c.f 48 8 + s.rank * c.f 56 8) c.elemSize y
        else
          match x.1.collRead n c slot (4 * c.elems) ecc.later with
          | (p, .data bs) => Pkg.commitDue n i .keep fuel (p.commitRank n i s c q (fpWords bs))
          | (p, y) => p.rankBad n i c s.rank slot 4 y

/-- The owner grants the next rank where a staging slot is free; its own needs none. -/
def Pkg.grantNext (p : Pkg) (n i : Nat) (s : Stream) (c : Cmd) : Option Pkg :=
  let g := s.granted
  if s.n ≤ g then none
  else if g = s.rank then some (p.updStream n i (fun s => { s with granted := g + 1 }))
  else if !s.ready.contains g then none
  else
    match (List.range c.slots).find? (fun k => !s.slots.any (fun x => x.2 = k)) with
    | none => none
    | some k =>
      if p.memberBad n c (s.members.getD g 0) then some (p.haltPath n i (some (c.rankElem s.rank 0)))
      else some ((p.updStream n i (fun s => { s with granted := g + 1, slots := s.slots.set g k })).collFrame n c 0x16
        (s.members.getD g 0) g 0 [])

/-- The member sends its contribution to shard r (R278). -/
def Pkg.sendRank (p : Pkg) (n i : Nat) (s : Stream) (c : Cmd) (r : Nat) (ecc : Ecc) : Pkg :=
  if p.memberBad n c (s.members.getD r 0) then p.haltPath n i (some (c.rankElem r 0))
  else
    let q := (p.meets ecc).collAsk n i (c.rankReads r) []
    if !q.2 then q.1
    else
      match q.1.rankSource n c r ecc.later with
      | (p, .error x) => p.rankBad n i c r (c.f 48 8 + r * c.f 56 8) c.elemSize x
      | (p, .ok vs) =>
        let p := p.updStream n i (fun s => { s with sentR := r :: s.sentR })
        (frameChunks 0 (fpBytes vs)).foldl (fun p x => p.collFrame n c 0x17 (s.members.getD r 0) s.rank x.1 (segsOf 0 x.2)) p

/-- R268, R278: the next shard whose owner has granted this member its turn, and is READY. -/
def Stream.nextRank (s : Stream) : Option Nat := s.grants.find? (fun r => !s.sentR.contains r && s.ready.contains r)

/-- RANK_ORDERED_REDUCE: the next step of a MODE 1 stream, or its end. -/
def Pkg.rankReduce (p : Pkg) (n i : Nat) (ecc : Ecc) : Pkg :=
  match p.streamCmd n i with
  | none => p
  | some (s, c) =>
    if s.parked || !c.ranked then p
    else
      match p.grantNext n i s c with
      | some q => q
      | none =>
        match s.nextRank with
        | some r => p.sendRank n i s c r ecc
        | none =>
          if s.commits = s.n && s.ackd.length = s.n then p.streamEnd s.cmd 0 0 0
          else Pkg.commitDue n i ecc s.n p

/-! Gathering (R266, R280, R349). -/

/-- The bytes of shard r in the gathered result, and where it starts there. -/
def Cmd.shardBytes (c : Cmd) (n r : Nat) : Nat :=
  if c.collOp = 2 then 4 * (min (256 * (c.firstBlock n r + c.shardBlocks n r)) c.elems - min (256 * c.firstBlock n r) c.elems)
  else c.gatherBytes
def Cmd.shardOff (c : Cmd) (n r : Nat) : Nat := if c.collOp = 2 then 1024 * c.firstBlock n r else r * c.gatherBytes

/-- R486: the block index of a byte of shard r. -/
def Cmd.shardBlock (c : Cmd) (cnt r off : Nat) : Nat := if c.collOp = 2 then c.firstBlock cnt r + off / 1024 else off / 256

/-- Bytes of a shard are written for one member, on each of its dies: where; whether a path has failed; the writes. -/
def Pkg.shardPlaces (p : Pkg) (n : Nat) (c : Cmd) (cnt r off : Nat) : List (Nat × Nat) :=
  let a := c.gatherDst + c.shardOff cnt r + off
  (p.copyDies n c).map (fun m => (m, if m = n then a else Pkg.otherDie a n m))
def Pkg.shardWrites (p : Pkg) (n : Nat) (c : Cmd) (cnt r off len : Nat) : List (Nat × Nat) :=
  (p.shardPlaces n c cnt r off).flatMap (fun x => piecesOf x.2 len)
def Pkg.shardBad (p : Pkg) (n : Nat) (c : Cmd) : Bool := (p.copyDies n c).any (fun m => p.pathBad n m)
def Pkg.putShard (p : Pkg) (n : Nat) (c : Cmd) (cnt r off : Nat) (bs : List Byte) : Pkg :=
  (p.shardPlaces n c cnt r off).foldl (fun p x => (p.dovetail n x.1 bs.length c.ids).write x.2 bs c.ids c.tag) p

/-- The own shard is read from SRC; from STAGE, whose blocks are converted (R266, R130); or it is the ledger record, from where it is stored
or from the headstock's buffer (R349, R350). -/
def Cmd.ownAt (c : Cmd) (s : Stream) : Option (Nat × Nat) :=
  if c.ty = 9 then c.recAt.map (fun a => (a, 64))
  else if c.collOp = 1 then some (c.f 48 8, c.gatherBytes)
  else some (c.f 88 8, 1600 * c.shardBlocks s.n s.rank)

def Pkg.ownShard (p : Pkg) (n : Nat) (s : Stream) (c : Cmd) (ecc : Ecc) : Pkg × Except (Nat × Nat) (List Byte) :=
  match c.ownAt s with
  | none => (p, .ok c.record)
  | some (a, len) =>
    match p.collRead n c a len ecc with
    | (p, .data bs) =>
      if c.collOp ≠ 2 then (p, .ok bs)
      else
        let words := (inChunks 1600 bs).flatMap (fun b =>
          let f := fretOf (fun k => b.getD k 0#8)
          (List.range 256).map (fun k => toF32 (f.elem k)))
        (p, .ok ((fpBytes words).take (c.shardBytes s.n s.rank)))
    | (p, .bad cause b) => (p, .error (srcCause cause, b - a))
    | (p, .parked) => (p, .error (1, 0))

/-- R486: the block index of a failed gather read, at an offset of what is read. -/
def Cmd.gatherBlock (c : Cmd) (n rank off : Nat) : Nat :=
  if c.collOp = 2 then c.firstBlock n rank + off / 1600 else off / 256

/-- The packages of the group, and a package's ranks. -/
def Stream.packages (s : Stream) : List Nat := (s.members.map entryCoord).foldl (fun l x => if l.contains x then l else l ++ [x]) []
def Stream.ranksAt (s : Stream) (coord : Nat) : List Nat := (List.range s.n).filter (fun r => entryCoord (s.members.getD r 0) = coord)

/-- R268: every other member of a package has sent READY. -/
def Stream.readyAt (s : Stream) (coord : Nat) : Bool := (s.ranksAt coord).all (fun r => r = s.rank || s.ready.contains r)

/-- The members of this package, with the streams that run the collective for them. -/
def Pkg.localMembers (p : Pkg) (s : Stream) (c : Cmd) : List (Nat × Nat × Nat × Cmd) :=
  (s.ranksAt p.coord).filterMap (fun r =>
    let m := entryDie (s.members.getD r 0)
    (p.findStream m c.collEpoch c.collGroup c.collCid).map (fun x => (r, m, x.1, x.2.2)))

/-- The own shard is written for every member on this package; each acknowledges locally (R280). -/
def Pkg.shardHere (p : Pkg) (n i : Nat) (s : Stream) (c : Cmd) (bs : List Byte) : Pkg :=
  (p.localMembers s c).foldl (fun p x =>
    let p := ((p.dovetail n x.2.1 bs.length c.ids).putShard x.2.1 x.2.2.2 s.n s.rank 0 bs).updStream x.2.1 x.2.2.1
      (fun t => { t with shards := s.rank :: t.shards })
    if x.1 = s.rank then p else p.updStream n i (fun t => { t with shardAcks := x.1 :: t.shardAcks })) p

/-- The member of another package to which the own shard is sent. -/
def Stream.shardTo (s : Stream) (x : Nat) : Nat := memberEntry x (entryDie (s.members.getD ((s.ranksAt x).headD 0) 0))

/-- Where the shard's source begins. -/
def Cmd.shardFrom (c : Cmd) : Nat := if c.ty = 7 && c.collOp = 1 then c.f 48 8 else 0

/-- One step of the gather part. -/
def Pkg.gatherStep (p : Pkg) (n i : Nat) (s : Stream) (c : Cmd) (ecc : Ecc) : Option Pkg :=
  if c.shardBytes s.n s.rank = 0 then none
  else
    match s.packages.find? (fun x => !s.sentPk.contains x && s.readyAt x) with
    | none => none
    | some x =>
      let here := x = p.coord
      let ms := if here then p.localMembers s c else []
      if ms.any (fun m => p.pathBad n m.2.1 || p.shardBad m.2.1 m.2.2.2) || (!here && p.memberBad n c (s.shardTo x)) then
        some (p.haltPath n i (some (c.shardBlock s.n s.rank 0)))
      else
        let rd := match c.ownAt s with | some a => piecesOf a.1 a.2 | none => []
        let q := (p.meets ecc).collAsk n i rd (ms.flatMap (fun m => p.shardWrites m.2.1 m.2.2.2 s.n s.rank 0 (c.shardBytes s.n s.rank)))
        if !q.2 then some q.1
        else
          match q.1.ownShard n s c ecc.later with
          | (p, .error (cause, off)) => some (p.haltOwn n i cause (c.gatherBlock s.n s.rank off))
          | (p, .ok bs) =>
            let p := p.updStream n i (fun s => { s with sentPk := x :: s.sentPk })
            if here then some (p.shardHere n i s c bs)
            else
              let a := c.shardFrom
              some ((frameChunks a bs).foldl (fun p y => p.collFrame n c 0x18 (s.shardTo x) ((a + y.1) % 2 ^ 32) y.1 (segsOf (a + y.1) y.2)) p)

/-- R280: every shard is written here, and every other member has acknowledged the own one. -/
def Stream.gathered (s : Stream) (c : Cmd) : Bool :=
  (List.range s.n).all (fun r => c.shardBytes s.n r = 0 || s.shards.contains r) &&
    (c.shardBytes s.n s.rank = 0 || s.shardAcks.length + 1 = s.n)

/-- ALL_GATHER: the next step of a stream, or its end. -/
def Pkg.allGather (p : Pkg) (n i : Nat) (ecc : Ecc) : Pkg :=
  match p.streamCmd n i with
  | none => p
  | some (s, c) =>
    if s.parked || c.collOp ≠ 1 then p
    else
      match p.gatherStep n i s c ecc with
      | some q => q
      | none => if s.gathered c then p.streamEnd s.cmd 0 0 0 else p

/-- ALL_REDUCE (R266): the reduction into STAGE, then the gathering of each owner's converted shard. -/
def Pkg.allReduce (p : Pkg) (n i : Nat) (ecc : Ecc) : Pkg :=
  match p.streamCmd n i with
  | none => p
  | some (s, c) =>
    if s.parked || c.collOp ≠ 2 then p
    else
      match p.reduceStep n i s c ecc with
      | some q => q
      | none =>
        let owned := s.own.length = c.shardBlocks s.n s.rank && s.own.all (fun b => b.2.agreed.isSome && b.2.applied.length = s.n)
        match (if owned then p.gatherStep n i s c ecc else none) with
        | some q => q
        | none =>
          if s.reduced c && s.gathered c then
            if s.nonfin = 0 then p.streamEnd s.cmd 0 0 0 else p.streamEnd s.cmd 4 s.nonfin 0
          else p

/-! Arriving frames. -/

/-- The stream that a frame is for, on die `n`, with the sender's rank. -/
def Pkg.frameStream (p : Pkg) (f : Frame) : Option (Nat × Stream × Cmd × Nat) :=
  match p.findStream f.dstDie f.epoch f.group f.id with
  | some (i, s, c) => (s.rankOf f).map (fun r => (i, s, c, r))
  | none => none

/-- R268, R280: the SHARD_ACKs of shards that are written here go out to the ranks that are READY. -/
def Pkg.ackShards (p : Pkg) (n i : Nat) : Pkg :=
  match p.streamCmd n i with
  | none => p
  | some (s, c) =>
    let due := s.shards.filter (fun r => entryCoord (s.members.getD r 0) ≠ p.coord && !s.acked.contains r && s.ready.contains r)
    if due.any (fun r => p.memberBad n c (s.members.getD r 0)) then p.haltPath n i none
    else due.foldl (fun p r => (p.updStream n i (fun s => { s with acked := r :: s.acked })).collFrame n c 0x19 (s.members.getD r 0) 0 0 []) p

/-- R402: a collective of the triple ended with HANG on the die, and no other one is held. -/
def Pkg.hungTriple (p : Pkg) (n e g i : Nat) : Bool :=
  (p.die n).hung.contains (e, g, i) && !p.cmds.any (fun x => x.2.fin = none && x.2.isTriple e g i && x.2.collDie = n)

/-- READY (R268, R269): it enables sending, or is kept; beyond 4,096 records it stays in its buffer. One for a collective that ended with
HANG is discarded (R402). -/
def Pkg.readyFrame (p : Pkg) (f : Frame) : Pkg :=
  let n := f.dstDie
  match p.findStream n f.epoch f.group f.id with
  | some (i, s, _) =>
    match s.rankOf f with
    | some r => ((p.updStream n i (fun s => { s with ready := if s.ready.contains r then s.ready else r :: s.ready })).tryAgree n i).ackShards n i
    | none => p
  | none =>
    if p.hungTriple n f.epoch f.group f.id then p
    else if 4096 ≤ (p.die n).ready.length then p.requeue f
    else p.updDie n (fun d => { d with ready := d.ready ++ [⟨f.epoch, f.group, f.id, memberEntry f.src f.srcDie, f.job, none⟩] })

/-- EXP_FRAME (R272, step 3). -/
def Pkg.expFrame (p : Pkg) (f : Frame) : Pkg :=
  match p.frameStream f with
  | some (i, _, _, r) => (p.takeCodes f.dstDie i r f.seq (f.payload.map BitVec.toNat)).tryAgree f.dstDie i
  | none => p

/-- AGREE (R273): the codes, and the contributions to their blocks. -/
def Pkg.agreeFrame (p : Pkg) (f : Frame) (ecc : Ecc) : Pkg :=
  match p.frameStream f with
  | none => p
  | some (i, _, _, r) =>
    let n := f.dstDie
    let codes := f.payload.zipIdx.map (fun x => (f.seq + x.2, x.1.toNat))
    let p := codes.foldl (fun p x => p.updStream n i (fun s => { s with agreed := s.agreed.set (blockKey r x.1) x.2 })) p
    codes.foldl (fun p x =>
      match p.streamCmd n i with
      | some (s, c) => if s.parked || s.sentC.contains (blockKey r x.1) then p else p.contribute n i s c r x.1 x.2 ecc
      | none => p) p

/-- A check on the way has failed (R233, R286): the event, and the halt of the stream. -/
def Pkg.collDamaged (p : Pkg) (n i blk : Nat) : Pkg := (p.datapath n 0).haltOwn n i 1 blk

/-- A contribution that has arrived is applied, or waits with its stream for the tracker (R203, R307). -/
def Pkg.takeContrib (p : Pkg) (f : Frame) (i : Nat) (s : Stream) (c : Cmd) (rank : Nat) (ms : List Int) (nonfin : Bool) : Pkg :=
  let q := p.collAsk f.dstDie i (blockPieces (c.blockDst f.seq)) []
  if q.2 then q.1.applyTo f.dstDie i s c rank f.seq ms nonfin else q.1.requeue f

/-- CONTRIB (R234, R235): the elements, and FLAGS[0] where the frame carries the whole block. -/
def Pkg.contribFrame (p : Pkg) (f : Frame) : Pkg :=
  match p.frameStream f with
  | none => p
  | some (i, s, c, r) =>
    match unsegs 0 f.payload with
    | .error _ => p.collDamaged f.dstDie i (c.srcIndex s.n s.rank f.seq)
    | .ok bs => p.takeContrib f i s c r ((inChunks 6 (bs.take 1536)).map (fun b => signedOf 48 (ofBytes b))) ((bs.getD 1538 0#8).getLsbD 0)

/-- SPARSE (R234, R276). -/
def Pkg.sparseFrame (p : Pkg) (f : Frame) : Pkg :=
  match p.frameStream f with
  | none => p
  | some (i, s, c, r) =>
    match unsegs 0 f.payload with
    | .error _ => p.collDamaged f.dstDie i (c.srcIndex s.n s.rank f.seq)
    | .ok bs =>
      let es := (inChunks 7 bs).map (fun b => (ofBytes (b.take 1), signedOf 48 (ofBytes (b.drop 1))))
      p.takeContrib f i s c r ((List.range 256).map (fun k => (es.find? (fun e => e.1 = k)).map Prod.snd |>.getD 0)) false

/-- APPLIED (R285): blocks of the sender's shard, or a committed rank. -/
def Pkg.appliedFrame (p : Pkg) (f : Frame) : Pkg :=
  match p.frameStream f with
  | none => p
  | some (i, _, c, r) =>
    if c.ranked then p.updStream f.dstDie i (fun s => { s with ackd := if s.ackd.contains r then s.ackd else r :: s.ackd })
    else
      let ks := (inChunks 4 f.payload).map (fun b => blockKey r (ofBytes b))
      p.updStream f.dstDie i (fun s => { s with ackd := ks.foldl (fun l k => if l.contains k then l else k :: l) s.ackd })

/-- GRANT (R278): the member sends, once the owner is READY (R268). -/
def Pkg.grantFrame (p : Pkg) (f : Frame) (ecc : Ecc) : Pkg :=
  match p.frameStream f with
  | none => p
  | some (i, _, _, r) =>
    let n := f.dstDie
    let p := p.updStream n i (fun s => { s with grants := if s.grants.contains r then s.grants else r :: s.grants })
    match p.streamCmd n i with
    | some (s, c) => if s.parked || s.sentR.contains r || !s.ready.contains r || !c.ranked then p else p.sendRank n i s c r ecc
    | none => p

/-- RANKDATA (R278): bytes for a rank's staging slot; then the ranks whose turn has come. -/
def Pkg.rankData (p : Pkg) (f : Frame) (ecc : Ecc) : Pkg :=
  match p.frameStream f with
  | none => p
  | some (i, s, c, r) =>
    let n := f.dstDie
    match s.slots.find r, unsegs 0 f.payload with
    | none, _ => p
    | some _, .error off => p.collDamaged n i (c.rankElem s.rank ((f.aux + off) / 4))
    | some k, .ok bs =>
      let a := c.slotAt k + f.aux
      let q := p.collAsk n i [] (piecesOf a bs.length)
      if !q.2 then q.1.requeue f
      else
        let p := q.1.write a bs c.ids c.tag
        let p := p.updStream n i (fun s => { s with got := s.got.upd r 0 (· + bs.length) })
        Pkg.commitDue n i ecc s.n p

/-- The members on this package for which a frame of a shard is, with their streams. -/
def Pkg.shardFor (p : Pkg) (f : Frame) : List (Nat × Nat × Stream × Cmd × Nat) :=
  (List.range p.board.dies).filterMap (fun n => match p.findStream n f.epoch f.group f.id with
    | some (i, s, c) => (s.rankOf f).map (fun r => (n, i, s, c, r))
    | none => none)

/-- SHARD (R280): written for every member on this package, across the dovetail mesh; a member that holds all of it acknowledges. -/
def Pkg.shardFrame (p : Pkg) (f : Frame) : Pkg :=
  let tgt := p.shardFor f
  match unsegs f.seq f.payload with
  | .error off => tgt.foldl (fun p x => p.collDamaged x.1 x.2.1 (x.2.2.2.1.shardBlock x.2.2.1.n x.2.2.2.2 (f.aux + off))) p
  | .ok bs =>
    let q := tgt.foldl (fun (q : Pkg × Bool) x =>
      if q.2 then q.1.collAsk x.1 x.2.1 [] (p.shardWrites x.1 x.2.2.2.1 x.2.2.1.n x.2.2.2.2 f.aux bs.length) else q) (p, true)
    if !q.2 then q.1.requeue f
    else tgt.foldl (fun p x =>
      let (n, i, s, c, r) := x
      if p.pathBad f.dstDie n || p.shardBad n c then p.haltPath n i (some (c.shardBlock s.n r f.aux))
      else
        let p := (p.dovetail f.dstDie n bs.length c.ids).putShard n c s.n r f.aux bs
        let got := s.got.getD r 0 + bs.length
        let p := p.updStream n i (fun s => { s with got := s.got.set r got })
        if c.shardBytes s.n r ≤ got then
          (p.updStream n i (fun s => { s with shards := if s.shards.contains r then s.shards else r :: s.shards })).ackShards n i
        else p) q.1

/-- SHARD_ACK (R280). -/
def Pkg.shardAck (p : Pkg) (f : Frame) : Pkg :=
  match p.frameStream f with
  | some (i, _, _, r) => p.updStream f.dstDie i (fun s => { s with shardAcks := if s.shardAcks.contains r then s.shardAcks else r :: s.shardAcks })
  | none => p

/-- HALT (R269, R286). -/
def Pkg.haltFrame (p : Pkg) (f : Frame) : Pkg :=
  let n := f.dstDie
  let blk := f.aux % 2 ^ 32
  let rank := f.aux / 2 ^ 32 % 2 ^ 16
  match p.findStream n f.epoch f.group f.id with
  | some (i, s, _) => p.haltStream n i s.cmd 4 rank blk s.members
  | none => p.updDie n (fun d => { d with ready := d.ready.map (fun r =>
      if r.epoch = f.epoch && r.group = f.group && r.cid = f.id then { r with halted := some (rank, blk) } else r) })

/-- R314, R486: a frame of a collective was not delivered: the stream halts with cause PATH. What a member sends of its own
shard (AGREE, APPLIED, GRANT, SHARD) names a block of that; the block of a READY or SHARD_ACK is not given: a free value (log 8). -/
def Pkg.collUnreach (p : Pkg) (f : Frame) : Pkg :=
  match p.findStream f.srcDie f.epoch f.group f.id with
  | some (i, s, c) =>
    let r := (s.members.findIdx? (fun m => m % 2 ^ 17 = memberEntry f.dst f.dstDie)).getD 0
    let x := p.fresh
    let blk := if f.ty = 0x10 || f.ty = 0x19 then Config.freeNat x.2 % 2 ^ 32
      else if c.ranked then (if f.ty = 0x17 then c.rankElem r (f.aux / 4) else c.rankElem s.rank 0)
      else if f.ty = 0x18 then c.shardBlock s.n s.rank f.aux
      else c.srcIndex s.n (if f.ty = 0x12 || f.ty = 0x15 then s.rank else r) f.seq
    x.1.haltOwn f.srcDie i 3 blk
  | none => p

end Sys2Proof.Machine
end

