-- ==== Sys2Proof/Machine/Ledger.lean ====
section
/-! DEFINITION. Layout epochs (R281 to R284), the phase ledger (R346 to R350) and slow-package detection (R351 to R353). -/
namespace Sys2Proof.Machine

/-! Epochs. -/

/-- R283, step 2: a collective that fired before the EPOCH command and has not completed. -/
def Pkg.olderRunning (p : Pkg) (e : Cmd) : Bool :=
  p.cmds.any (fun x => x.2.isColl && x.2.fire.isSome && x.2.fin = none &&
    (x.2.fire.getD 0 < e.fire.getD 0 || (x.2.fire = e.fire && firesBefore (0, x.2) (0, e))))

/-- R283, step 4: every FENCE is in. -/
def Pkg.fencesIn (p : Pkg) (new : Nat) : Bool := p.fw.epochNeed.all (fun x => p.fw.epochFrom.contains (x, new))

/-- The FENCEs of an epoch are used up. -/
def Pkg.epochEnd (p : Pkg) (new : Nat) : Pkg :=
  { p with fw := { p.fw with epochCmd := none, epochSent := false, epochNeed := [],
                             epochFrom := p.fw.epochFrom.filter (fun x => !(x.2 = new)) } }

/-- R269, R283: CUR and the group-table base change in one step; ready records of older epochs are released. -/
def Pkg.epochSwitch (p : Pkg) (k : Nat) (c : Cmd) : Pkg :=
  let new := c.f 28 2
  let p := (p.setFld aEpoch fHS_EPOCH_CUR new).setFld aEpoch fHS_EPOCH_PENDING new
  let p := p.wr64 aGroupBase (c.f 32 8 % 2 ^ 48)
  let p := (List.range p.board.dies).foldl (fun p n =>
    p.updDie n (fun d => { d with ready := d.ready.filter (fun r => !newerEpoch new r.epoch) })) p
  ((p.epochEnd new).traceCmd c 10 0 new).finish k 0 0 0

/-- The command whose EPOCH is in progress. -/
def Pkg.epochNow (p : Pkg) : Option (Nat × Cmd) :=
  match p.fw.epochCmd with
  | some k => (p.cmds.find k).map (fun c => (k, c))
  | none => none

/-- EPOCH (R282, R283, R487): the next step of the command in progress. -/
def Pkg.epochStep (p : Pkg) (k : Nat) (ecc : Ecc) : Pkg :=
  match p.epochNow with
  | none => p
  | some (j, c) =>
    if j ≠ k || c.fin ≠ none || c.ty ≠ 8 then p
    else
      let new := c.f 28 2
      let cur := p.fld aEpoch fHS_EPOCH_CUR
      if new = cur then (p.epochEnd new).finish k 0 0 0
      else if p.fw.epochSent then (if p.fencesIn new then p.epochSwitch k c else p)
      else if p.olderRunning c then p
      else
        match p.groupOf 0 (.command k) c (p.rd64 aGroupBase % 2 ^ 48) (c.f 30 2 % 4096) ecc with
        | (p, .error true) => p
        | (p, .error false) =>
          let p := ((p.setFld aEpoch fHS_EPOCH_PENDING cur).epochEnd new).finish k 5 0xFFFFFFFF (2 ^ 61 + 0xFFFF)
          p.policyEvent fHS_FAULT_POLICY_HALT { Event.blank 0x23 with
            job := c.job, tag := c.tag, layer := c.ids.layer, op := c.ids.op, detail := 1 }
        | (p, .ok ms) =>
          if ms.isEmpty then ((p.setFld aEpoch fHS_EPOCH_PENDING cur).epochEnd new).malformed k
          else
            let tgt := (ms.map entryCoord).foldl (fun l x => if x = p.coord || l.contains x then l else l ++ [x]) []
            let p := tgt.foldl (fun p x => p.inject { Frame.mk' 0x1B x 0 0 c.job with
              epoch := cur, group := c.f 30 2 % 4096, id := c.tag, aux := new }) p
            let p : Pkg := { p with fw := { p.fw with epochSent := true, epochNeed := tgt } }
            if p.fencesIn new then p.epochSwitch k c else p

/-- FENCE (R283): kept until the EPOCH command uses it; the last one switches the epoch. -/
def Pkg.fenceFrame (p : Pkg) (f : Frame) : Pkg :=
  let new := f.aux % 2 ^ 16
  let p : Pkg := { p with fw := { p.fw with
    epochFrom := if p.fw.epochFrom.contains (f.src, new) then p.fw.epochFrom else p.fw.epochFrom ++ [(f.src, new)] } }
  match p.epochNow with
  | some (k, c) => if p.fw.epochSent && c.f 28 2 = new && p.fencesIn new then p.epochSwitch k c else p
  | none => p

/-! The phase ledger. -/

def Cmd.phase (c : Cmd) : Nat := c.f 28 1 % 16
def Cmd.edge (c : Cmd) : Nat := c.f 28 1 / 16 % 2

/-- PHASE_BEGIN (R347). -/
def Pkg.phaseBegin (p : Pkg) (k : Nat) : Pkg :=
  match p.cmds.find k with
  | some c =>
    if c.firedAs 9 && c.edge = 0 then
      let s : PhaseStart := { step := c.f 32 4, ftc := c.fire.getD 0, unlocked := c.idx = 1 }
      ({ p with fw := { p.fw with phases := p.fw.phases.set c.phase s } }).finish k 0 0 0
    else p
  | none => p

/-- R348: the record of an END. -/
def Pkg.record (p : Pkg) (c : Cmd) : List Byte :=
  let t := c.fire.getD 0
  let b := p.fw.phases.find c.phase
  let from' := match b with | some s => s.ftc | none => t
  let unlocked := c.idx = 1 || (match b with | some s => s.unlocked | none => false)
  toBytes 4 (c.f 32 4) ++ toBytes 1 c.phase ++ toBytes 1 ((if b.isNone then 1 else 0) + (if unlocked then 8 else 0))
    ++ toBytes 2 c.job ++ toBytes 8 from' ++ toBytes 8 t ++ toBytes 8 (t - from') ++ toBytes 8 0 ++ toBytes 2 p.coord
    ++ toBytes 2 0 ++ toBytes 4 c.tag ++ List.replicate 16 0#8

def aLedgerHead : Nat := rHS_LEDGER_HEAD.at 0 0 0

def aSuspect : Nat := rHS_SUSPECT.at 0 0 0

/-- PHASE_END (R347 to R350): the record is built and stored, once the tracker admits its write (R200); a share then waits for a stream. -/
def Pkg.phaseEnd (p : Pkg) (k : Nat) : Pkg :=
  match p.cmds.find k with
  | some c =>
    if c.firedAs 9 && c.edge = 1 then
      let r := p.record c
      let at' := if p.ledgerOn then some (p.ledgerAt (p.fld aLedgerHead fHS_LEDGER_HEAD_INDEX)) else none
      let q := p.askAll (.command k) [] (match at' with | some a => [(a, 64)] | none => [])
      if !q.2 then q.1
      else
        let p : Pkg := { q.1 with fw := { q.1.fw with phases := q.1.fw.phases.del c.phase } }
        let p := match at' with
          | some a => (p.write a r c.ids c.tag).bumpWrap aLedgerHead fHS_LEDGER_HEAD_INDEX
          | none => p
        if c.isShare then
          (p.updDie c.collDie (fun d => { d with collq := d.collq ++ [k] })).updCmd k
            (fun c => { c with stage := .queued, record := r, recAt := at', suspect := p.rd aSuspect })
        else p.finish k 0 0 0
    else p
  | none => p

/-! Slow packages. -/

def aSlow : Nat := rHS_SLOW_STATUS.at 0 0 0
def orOne (n : Nat) : Nat := if n = 0 then 1 else n
def fieldOf (r : List Byte) (o n : Nat) : Nat := ofBytes ((r.drop o).take n)

/-- R352: a step closes. -/
def Pkg.closeStep (p : Pkg) : Pkg :=
  let run := if p.fw.curSlow then min 255 (p.fld aSlow fHS_SLOW_STATUS_RUN + 1) else 0
  let p := p.setFld aSlow fHS_SLOW_STATUS_RUN run
  if orOne (p.fld aSuspect fHS_SUSPECT_STEPS) ≤ run then
    (p.slowAction).setFld aSlow fHS_SLOW_STATUS_RUN 0
  else p

/-- Bytes of a record replaced. -/
def splice (r : List Byte) (o : Nat) (bs : List Byte) : List Byte := r.take o ++ bs ++ r.drop (o + bs.length)

/-- Firmware rewrites the stored record, where it still stands (R350). -/
def Pkg.restamp (p : Pkg) (s : Share) (flag median : Nat) : Pkg :=
  p.rewriteRecord s.place s.record
    (splice (splice s.record 5 [BitVec.ofNat 8 ((s.record.getD 5 0#8).toNat ||| flag)]) 32 (toBytes 8 median))

/-- Firmware reads the gathered records through the bench cache (R182, R361); one that cannot be read is none of those that it takes (log 44). -/
def Pkg.readRecords : List Nat → Pkg → Pkg × List (List Byte)
  | [], p => (p, [])
  | a :: as, p =>
    match p.readAt a 64 5 0 .absent with
    | (p, .ok bs) => let x := Pkg.readRecords as p; (x.1, bs :: x.2)
    | (p, .error _) => Pkg.readRecords as p

/-- R351: the ELAPSED values that are compared, of records read. -/
def Share.compared (s : Share) (rs : List (List Byte)) : List Nat :=
  let same (r : List Byte) : Bool := fieldOf r 0 5 = fieldOf s.record 0 5 && fieldOf r 6 2 = fieldOf s.record 6 2 &&
    fieldOf r 5 1 % 2 = 0 && fieldOf r 5 1 / 8 % 4 = 0
  (rs.filter same).map (fun r => fieldOf r 24 8)

/-- SLOW_DETECTION (R351 to R353): firmware compares the oldest share that has completed, once the tracker admits its reads (R200), by PHASES and
MARGIN as they stood when its record was written (R355). -/
def Pkg.slowDetection (p : Pkg) : Pkg :=
  match p.fw.shares with
  | [] => p
  | s :: rest =>
    let at' := (List.range s.n).map (fun i => s.dst + 64 * i)
    let q := p.askAll .firmware (at'.map (fun a => (a, 64))) []
    if !q.2 then q.1
    else
    let q := Pkg.readRecords at' q.1
    let p : Pkg := { q.1 with fw := { q.1.fw with shares := rest } }
    let phase := fieldOf s.record 4 1
    let es := sortBy (fun (a b : Nat) => a ≤ b) (s.compared q.2)
    let was (f : Fld) : Nat := bits s.suspect f.lo f.w
    if es.length < 3 || was fHS_SUSPECT_PHASES / 2 ^ phase % 2 = 0 then p.restamp s 4 0
    else
      let median := es.getD ((es.length - 1) / 2) 0
      let elapsed := fieldOf s.record 24 8
      let slow := median * (100 + orOne (was fHS_SUSPECT_MARGIN)) < elapsed * 100
      let excess := if elapsed ≤ median then 0 else if median = 0 then 0xFFFF else min 0xFFFF (1000 * (elapsed - median) / median)
      let p := (p.restamp s (if slow then 2 else 0) median).setFld aSlow fHS_SLOW_STATUS_EXCESS excess
      let step := fieldOf s.record 0 4
      let p := if p.fw.curStep.isSome && p.fw.curStep ≠ some step then p.closeStep else p
      let old := p.fw.curStep = some step && p.fw.curSlow
      { p with fw := { p.fw with curStep := some step, curSlow := old || slow } }

end Sys2Proof.Machine
end

