-- ==== Sys2Proof/Machine/Fabric.lean ====
section
/-! DEFINITION. The fabric (chapter 10): arrival and routing of frames (R307, R310 to R314, R328), the frames of ring copies
(R377) and PSIGs (R308, R309), ABORT (R325 to R327), links (R290 to R298) and bank switches (R317). -/
namespace Sys2Proof.Machine

/-! Arrival. -/

/-- R293: received frame bytes count on the die that owns the lane group. -/
def Pkg.countRx (p : Pkg) (i g : Nat) (f : Frame) : Pkg := p.countDie (groupDie p.board.dies i g) 27 (32 + f.payload.length) (p.frameIds f)

/-- R313: a frame that passes through is not delivered. -/
def Pkg.undelivered (p : Pkg) (f : Frame) (reason : Nat) : Pkg :=
  let p := p.bumpSat (rFAB_UNREACH.at 0 0 0) fFAB_UNREACH_COUNT
  if tcOf f.ty = 0 || f.ty = 7 then p else p.inject (p.unreachOf f reason)

/-- Link-local frames and floods are never routed (R303, R326). -/
def routed (ty : Nat) : Bool := ty < 0x20

/-- R401: an engine command or a stream of this package receives the frame. -/
def Pkg.heard (p : Pkg) (f : Frame) : Bool :=
  f.ty = 3 || f.ty = 4 || (0x10 ≤ f.ty && f.ty < 0x1B &&
    (List.range p.board.dies).any (fun n => (p.findStream n f.epoch f.group f.id).isSome))

/-- R328: what is addressed to this package for an aborted job is discarded. -/
def Pkg.discard (p : Pkg) : Pkg := p.bumpSat (rFAB_DISCARD.at 0 0 0) fFAB_DISCARD_COUNT
def Pkg.accept (p : Pkg) (f : Frame) (act : Pkg → Pkg) : Pkg :=
  if p.jobAborted f.job then p.discard else act (if p.heard f then p.progress f.job else p)

/-- R328: the frame is for this package, and of an aborted job. -/
def Pkg.discards (p : Pkg) (f : Frame) : Bool := f.dst = p.coord && p.jobAborted f.job

/-! R307: how a frame leaves the fabric. -/

/-- Requests that stand in a die's receive queue of 256 KiB: any, and their bytes. -/
def Pkg.queueOf (p : Pkg) (n : Nat) : List Frame :=
  (p.fab.inbox.filter (fun x => x.1 = 4 && tcOf x.2.ty = 2 && x.2.dstDie = n)).map Prod.snd
def Pkg.queueBytes (p : Pkg) (n : Nat) : Nat := (p.queueOf n).foldl (fun t f => t + 32 + f.payload.length) 0

/-- R203: a request for a die stands behind those that wait in its receive queue. -/
def Pkg.behind (p : Pkg) (f : Frame) : Bool := tcOf f.ty = 2 && !(p.queueOf f.dstDie).isEmpty
def Pkg.enqueue (p : Pkg) (f : Frame) : Pkg := { p with fab := { p.fab with inbox := p.fab.inbox ++ [(4, f)] } }

/-- A READY has room: a record for it, or no need of one (R268, R269, R402). -/
def Pkg.readyRoom (p : Pkg) (f : Frame) : Bool :=
  (p.die f.dstDie).ready.length < 4096 || (p.findStream f.dstDie f.epoch f.group f.id).isSome ||
    p.hungTriple f.dstDie f.epoch f.group f.id || p.jobAborted f.job

/-- A frame for this package can leave its input buffer. -/
def Pkg.roomHere (p : Pkg) (f : Frame) : Bool :=
  if tcOf f.ty = 2 then p.queueBytes f.dstDie + 32 + f.payload.length ≤ 262144 else f.ty ≠ 0x10 || p.readyRoom f

/-- Two frames of one class and channel of an input. -/
def sameVc (f g : Frame) : Bool := tcOf f.ty = tcOf g.ty && f.vc = g.vc

/-- R305, R307: a frame at the head of its input channel can leave: none of the channel still waits at an output, and there is room for it. -/
def Pkg.mayLeave (p : Pkg) (i : Nat) (f : Frame) : Bool :=
  !(List.range 4).any (fun j => (p.tport j).out.any (fun e => e.input = i && tcOf e.f.ty = tcOf f.ty && e.vc = f.vc)) &&
    (!routed f.ty || p.discards f || (match p.nextHop f (some i) with | .ok none => p.roomHere f | _ => true))

/-- R22, R420: a frame for a die crosses the mesh from the die of the lane group on which it came. -/
def Pkg.fromGroup (p : Pkg) (i : Nat) (f : Frame) : Pkg :=
  p.dovetail (groupDie p.board.dies i (flowGroup f (p.tport i).upGroups)) f.dstDie (32 + f.payload.length) (p.frameIds f)

/-- R310, R311, R313: a frame leaves its input buffer: to its next hop; or, for this package, to its receive queue or to its act. During a
package reset frames in transit are forwarded (R298). -/
def Pkg.leaveInput (p : Pkg) (i : Nat) (f : Frame) (act : Pkg → Pkg) : Pkg :=
  if p.discards f then (p.freeUnits i f f.vc).discard
  else
    match p.nextHop f (some i) with
    | .ok (some (j, vc)) => p.output j ⟨i, f.vc, { f with vc := vc, hops := f.hops - 1 }⟩
    | .error r => (p.freeUnits i f f.vc).undelivered f r
    | .ok none =>
      let p := (p.freeUnits i f f.vc).fromGroup i f
      if p.fw.inReset then p else if p.behind f then p.enqueue f else p.accept f act

/-- A frame arrives on an open port: it leaves at once, or stays in its input buffer. -/
def Pkg.fromWire (p : Pkg) (i : Nat) (f : Frame) (act : Pkg → Pkg) : Pkg :=
  let p := p.countRx i (flowGroup f (p.tport i).upGroups) f
  if p.fab.inbox.any (fun x => x.1 = i && sameVc x.2 f) || !p.mayLeave i f then
    { p with fab := { p.fab with inbox := p.fab.inbox ++ [(i, f)] } }
  else p.leaveInput i f act

/-- A frame of type `ty` arrives: on torus port 0 to 3; from this package itself or from a receive queue (4); out of the input buffer of
torus port `i` − 5 (5 to 8). -/
def Pkg.arrive (p : Pkg) (i : Nat) (f : Frame) (ty : Nat) (act : Pkg → Pkg) : Pkg :=
  if f.ty ≠ ty then p
  else if i = 4 then (if p.fw.inReset then p else p.accept f act)
  else if 5 ≤ i then p.leaveInput (i - 5) f act
  else if !p.open' i then p
  else p.fromWire i f act

/-- FRAME_FORWARD: a frame at a hop; one for this package enters what is delivered (R307). -/
def Pkg.frameForward (p : Pkg) (i : Nat) (f : Frame) : Pkg :=
  if !routed f.ty || i = 4 then p
  else if 5 ≤ i then p.leaveInput (i - 5) f (fun p => p.enqueue f)
  else if !p.open' i then p
  else p.fromWire i f (fun p => p.enqueue f)

/-- A delivered frame may be taken: the tracker has not parked the requests of its die or its stream (R203, R307), none for its die is before
it, and a READY has room (R268). -/
def Pkg.takeable (p : Pkg) (before : List (Nat × Frame)) (x : Nat × Frame) : Bool :=
  let f := x.2
  if x.1 < 4 then !before.any (fun y => y.1 = x.1 && sameVc y.2 f) && p.mayLeave x.1 f
  else if tcOf f.ty = 2 then
    !before.any (fun y => y.1 = 4 && tcOf y.2.ty = 2 && y.2.dstDie = f.dstDie) &&
    !(List.range p.board.dies).any (fun n => (p.die n).waits.any (fun w => w.who = .fabric f.dstDie && !w.woken)) &&
    !((f.ty = 0x13 || f.ty = 0x14 || f.ty = 0x17 || f.ty = 0x18) && (List.range p.board.dies).any (fun n =>
      match p.findStream n f.epoch f.group f.id with | some x => x.2.1.parked | none => false))
  else f.ty ≠ 0x10 || p.readyRoom f

/-- The oldest frame that may be taken, with its place. -/
def Pkg.nextFrame (p : Pkg) : Option (Nat × (Nat × Frame)) :=
  (p.fab.inbox.zipIdx.find? (fun x => p.takeable (p.fab.inbox.take x.2) x.1)).map (fun x => (x.2, x.1))

/-! Frames of ring copies (R303, R377). -/

/-- The segments of a DMA payload for `a` on, the first one `off` bytes into its block of the source: address, data, and whether its check
holds. -/
def payloadAt (a off : Nat) (payload : List Byte) : List (Nat × List Byte × Bool) :=
  ((segCut off payload).foldl (fun (x : Nat × List (Nat × List Byte × Bool)) s =>
    (x.1 + (segData s).length, x.2 ++ [(x.1, segData s, segOk s)])) (a, [])).2

/-- Bit i set for each segment that failed. -/
def marksOf (l : List Bool) : Nat := l.zipIdx.foldl (fun t x => if x.1 then t else t + 2 ^ x.2) 0

/-- A reply to a frame. -/
def Pkg.reply (p : Pkg) (f : Frame) (ty seq aux : Nat) (payload : List Byte) : Pkg :=
  p.inject { Frame.mk' ty f.src f.srcDie f.dstDie f.job with id := f.id, seq := seq, aux := aux, payload := payload }

/-- WRITE: the segments whose check holds, and whose way to memory has not failed, are written; the acknowledgement marks the others (R233,
log 15). `ecc`: what the fill of a part of a line meets (R219). -/
def Pkg.writeFrame (p : Pkg) (f : Frame) (ecc : Ecc) : Pkg :=
  let segs := payloadAt (f.aux % 2 ^ 48) f.seq f.payload
  let good (s : Nat × List Byte × Bool) : Bool := s.2.2 && ecc ≠ .parity && !p.wayBad f.dstDie s.1
  let q := (p.meets ecc).askAll (.fabric f.dstDie) [] ((segs.filter good).flatMap (fun s => piecesOf s.1 s.2.1.length))
  if !q.2 then q.1.requeue f
  else
    let p := segs.foldl (fun p s =>
      if good s then (p.sendWay f.dstDie s.1 s.2.1.length f.ids).write s.1 s.2.1 f.ids else p.datapath f.dstDie s.1) q.1
    p.reply f 4 f.seq (marksOf (segs.map good)) []

/-- The segments of [a, a + n) (R232). -/
def segments : Nat → Nat → Nat → List (Nat × Nat)
  | 0, _, _ => []
  | fuel + 1, a, n => if n = 0 then [] else
      let k := min n (256 - a % 256)
      (a, k) :: segments fuel (a + k) (n - k)

/-- READ: the data returns in READ_DATA frames, one for each segment (log 15); a segment that cannot be read is marked
poisoned (R224). -/
def Pkg.readFrame (p : Pkg) (f : Frame) (ecc : Ecc) : Pkg :=
  let a := f.aux % 2 ^ 48
  let q := (p.meets ecc).askAll (.fabric f.dstDie) (piecesOf a f.seq) []
  if !q.2 then q.1.requeue f
  else
    (segments (f.seq / 256 + 2) a f.seq).zipIdx.foldl (fun p s =>
      match p.pullNow f.dstDie 6 0 s.1.1 s.1.2 f.ids (if s.2 = 0 then ecc.later else .keep) with
      | (p, .data bs) => p.reply f 3 s.2 0 (segment bs)
      | (p, _) => p.reply f 3 s.2 1 (segment (List.replicate s.1.2 0#8))) q.1

def ofPackage (coord addr : Nat) : Bool := addr / 2 ^ 48 % 2 ^ 14 = coord

/-- READ_DATA: the reply to the first outstanding READ of its command and package: verified, and committed as soon as its destination lets it
in. -/
def Pkg.readData (p : Pkg) (f : Frame) : Pkg :=
  let mine (r : FabRead) : Bool := r.tag = f.id && ofPackage f.src r.src && r.data.isNone
  match p.fab.reads.find? mine with
  | none => p
  | some r =>
    match p.cmds.find r.cmd with
    | none => p
    | some c =>
      let segs := payloadAt 0 r.src f.payload
      if f.aux % 2 ^ 16 ≠ 0 then p.engineAbort r.cmd 2 r.pos r.src
      else if segs.any (fun s => !s.2.2) then (p.datapath c.engDie (r.src % 2 ^ 48)).engineAbort r.cmd 2 r.pos r.src
      else
        let r' : FabRead := { r with data := some (segs.flatMap (fun s => s.2.1)) }
        let p : Pkg := { p with fab := { p.fab with reads := p.fab.reads.map (fun x => if x = r then r' else x) } }
        p.commitRead r.cmd r'

/-- WRITE_ACK: the bytes of the first outstanding WRITE of its command and package count as written. A segment that it marks was not: a
SCRUB's summary goes out again (R229, log 26), a copy ends (R233). -/
def Pkg.writeAck (p : Pkg) (f : Frame) : Pkg :=
  let mine (r : FabWrite) : Bool := r.tag = f.id && ofPackage f.src r.dst
  match p.fab.writes.find? mine with
  | none => p
  | some r =>
    match p.cmds.find r.cmd with
    | none => p
    | some c =>
      let p : Pkg := { p with fab := { p.fab with writes := removeFirst mine p.fab.writes } }
      let bad := f.aux % 2 ^ 16 ≠ 0
      if c.ty = 6 then (if bad || p.awaits r.cmd then p else (p.dropCmd r.cmd).finish r.cmd 0 0 0)
      else if bad then p.engineAbort r.cmd 2 c.row r.src
      else p.engineDone r.cmd

/-! PSIGs (R162, R308, R309). -/

/-- PSIG_FRAME: applied to its peg and acknowledged. -/
def Pkg.psigFrame (p : Pkg) (f : Frame) : Pkg :=
  let t := f.aux % 2 ^ 32
  let k := f.aux / 2 ^ 32 % 2 ^ 16
  let n := t / 2 ^ 15 % 8
  let p := if f.aux / 2 ^ 48 % 8 = 3 then p.addLocal n (t / 2 ^ 9 % 64) (t % 64) k
    else if p.present n then p.addDpeg n (t % 256) k else p
  p.reply f 6 f.seq f.aux []

/-- R308: held PSIGs whose package has nothing outstanding under another bank, in order. -/
def Pkg.releasePsigs : List (PsigOut × Frame) → Pkg → Pkg
  | [], p => p
  | x :: xs, p => Pkg.releasePsigs xs (p.sendPsig x.1.core x.2)

/-- A PSIG is settled: applied, or returned (R309). -/
def Pkg.psigSettled (p : Pkg) (o : PsigOut) : Pkg :=
  let p : Pkg := { p with fab := { p.fab with psigs := removeFirst (fun x => x = o) p.fab.psigs } }
  let p := match o.core with
    | some key => p.onKey key (fun c => { c with psigs := c.psigs - 1 })
    | none => p
  let held := p.fab.heldPsigs
  Pkg.releasePsigs held { p with fab := { p.fab with heldPsigs := [] } }

/-- PSIG_ACK: of the outstanding PSIGs the oldest one that it acknowledges (R308). -/
def Pkg.psigAck (p : Pkg) (f : Frame) : Pkg :=
  match p.fab.psigs.find? (fun o => o.is f.dstDie f.src f.seq f.aux f.id) with
  | some o => p.psigSettled o
  | none => p

/-! UNREACH (R314). -/

/-- PSIG_UNREACH (R314, R386): the event names the core and TARGET: of a PSIG the core that sent it, of a PSIG_ACK the core of the peg to
which the PSIG was applied. -/
def Pkg.psigUnreach (p : Pkg) (f : Frame) (h : Frame) (reason : Nat) : Pkg :=
  let t := h.aux % 2 ^ 32
  let e : Event := { Event.blank 0x58 with job := h.job, tag := h.id, detail := reason, addr := t }
  if h.ty = 5 then
    let o := p.fab.psigs.find? (fun o => o.is h.srcDie h.dst h.seq h.aux h.id)
    let e : Event := match o.bind PsigOut.core with
      | some k => { e with die := k / 72, lcore := (p.lcore k).getD 255, pcore := k % 72 }
      | none => e
    let p := match o with | some o => p.psigSettled o | none => p
    if f.ty = 7 then p.policyEvent fHS_FAULT_POLICY_PSIG e else p
  else
    let n := t / 2 ^ 15 % 8
    let lc := t / 2 ^ 9 % 64
    let e : Event := if h.aux / 2 ^ 48 % 8 = 3 then
        { e with die := n, lcore := lc, pcore := match (p.die n).bind.find lc with | some c => c | none => 255 }
      else { e with die := n }
    if f.ty = 7 then p.policyEvent fHS_FAULT_POLICY_PSIG e else p

/-- R314: the ring copy of an undelivered READ_DATA or WRITE_ACK ends: its source, which answered for another package, passes the UNREACH on
to that package (log 36). -/
def Pkg.passUnreach (p : Pkg) (f h : Frame) : Pkg :=
  p.inject { Frame.mk' 7 h.dst h.dstDie h.srcDie h.job with id := h.id, aux := f.aux, payload := f.payload }

def Pkg.unreachFrame (p : Pkg) (f : Frame) : Pkg :=
  let h := Frame.ofHeader f.payload
  let reason := f.aux % 8
  if (h.ty = 3 || h.ty = 4) && h.dst ≠ p.coord then p.passUnreach f h
  else if h.ty = 1 then
    match p.fab.writes.find? (fun r => r.tag = h.id && r.dst = h.aux) with
    | some r => p.pathEnd r.cmd reason r.dst
    | none => p
  else if h.ty = 2 then
    match p.fab.reads.find? (fun r => r.tag = h.id && r.src = h.aux) with
    | some r => p.pathEnd r.cmd reason r.src
    | none => p
  else if h.ty = 3 then
    -- R314: the copy whose reply or acknowledgement was not delivered ends at its requester (log 36)
    match p.fab.reads.find? (fun r => r.tag = h.id && ofPackage h.src r.src) with
    | some r => p.pathEnd r.cmd reason r.src
    | none => p
  else if h.ty = 4 then
    match p.fab.writes.find? (fun r => r.tag = h.id && ofPackage h.src r.dst) with
    | some r => p.pathEnd r.cmd reason r.dst
    | none => p
  else if h.ty = 5 || h.ty = 6 then p.psigUnreach f h reason
  else if 0x10 ≤ h.ty && h.ty < 0x20 then p.collUnreach h
  else p

/-! ABORT (R325 to R327). -/

/-- ABORT: flooded onward on its first receipt. On torus port 0 to 3, from this package (4), or out of an input buffer (5 to 8). -/
def Pkg.abortFrame (p : Pkg) (i : Nat) (f : Frame) : Pkg :=
  let port := if 5 ≤ i then i - 5 else i
  if f.ty ≠ 0x20 || (i < 4 && !p.open' i) then p
  else
    let p := if i < 4 then p.countRx i (flowGroup f (p.tport i).upGroups) f else p
    let p := if i = 4 then p else p.freeUnits port f f.vc
    let origin := f.aux % 2 ^ 14
    if f.hops = 0 || p.fab.keys.any (fun k => k.1 = f.job && k.2.1 = origin && k.2.2.1 = f.seq) then p
    else ((p.rememberKey f.job origin f.seq).flood f (some port)).takeAbort f.job origin

/-- FAB_ABORT (R325). -/
def Pkg.fabAbort (p : Pkg) (entry : Nat) : Pkg := p.sendAbort (p.fld (aJob (entry % 16)) fFAB_JOB_JOB)

/-- ABORT_KEY_EXPIRY: 10 ms after its first receipt the oldest key is forgotten. -/
def Pkg.keyExpiry (p : Pkg) : Pkg :=
  match p.fab.keys with
  | [] => p
  | k :: _ =>
    let p := p.until (k.2.2.2 + 10000000)
    { p with fab := { p.fab with keys := removeFirst (fun x => x = k) p.fab.keys } }

/-! The parent of the FTC (R320, R322), which a port that goes down can end. -/

/-- Advertisements in order of preference: GM index, depth, port. -/
def advBefore (a b : Nat × Nat × Nat) : Bool :=
  a.1 < b.1 || (a.1 = b.1 && (a.2.1 < b.2.1 || (a.2.1 = b.2.1 && a.2.2 < b.2.2)))

/-- Ports that are up with NBR_OK and whose neighbour has a parent; a package with GM set follows a smaller GM index only. -/
def Pkg.candidates (p : Pkg) : List (Nat × Nat × Nat) :=
  (List.range 4).filterMap (fun i => match (p.tport i).adv with
    | some (g, d) => if p.open' i && d < 255 && (!p.isGM || g < p.coord) then some (g, d, i) else none
    | none => none)

def Pkg.bestPort (p : Pkg) : Option (Nat × Nat × Nat) :=
  p.candidates.foldl (fun b x => match b with | none => some x | some y => if advBefore x y then some x else some y) none

/-- R322: the FTC is stepped: stamps taken before are of no use any more. -/
def Pkg.stepFtc (p : Pkg) (now : Nat) : Pkg :=
  let p : Pkg := { p with ftc := { p.ftc with now := now } }
  (List.range 4).foldl (fun p i => p.updPort i (fun q => { q with tx := [], stamps := none })) p

/-- A parent is chosen (R320, R322): from FREE the FTC is stepped to its time, and otherwise slewed. OFFSET is the parent's θ (R334). -/
def Pkg.adopt (p : Pkg) (x : Nat × Nat × Nat) : Pkg :=
  let t := p.ftc
  let theta := (p.tport x.2.2).theta
  let p := if t.st = .free then p.stepFtc ((t.now : Int) + theta.tdiv 32000).toNat else p
  { p with ftc := { p.ftc with
      st := if t.st = .free || t.st = .holdover then .acquiring else t.st
      parent := x.2.2, depth := min 254 (x.2.1 + 1), gm := x.1, offset := theta.tdiv 1000, good := 0, serving := false
      slew := if t.st = .free then 0 else theta.tdiv 32000 } }

/-- An exit from LOCKED is counted and reported (R334, R386; of LOCKED to HOLDOVER, DEDUCED, log 18). -/
def Pkg.unlocked (p : Pkg) : Pkg := (p.bumpSat (rFTC_UNLOCKS.at 0 0 0) fFTC_UNLOCKS_COUNT).event (Event.blank 0x56)

/-- HOLDOVER: the clock runs on at its last steered rate (R322): slewing as it was under way goes on (log 33). -/
def Ftc.holding (t : Ftc) : Ftc :=
  { t with parent := 7, depth := 255, good := 0, serving := false, slew := 0, st := .holdover
           rate := if t.st = .holdover then t.rate else t.slew.sign
           holdSince := if t.st = .holdover then t.holdSince else t.now
           unsyncReported := t.st = .holdover && t.unsyncReported }

/-- R322: no parent is available: HOLDOVER, once LOCKED has been reached. -/
def Pkg.holdover (p : Pkg) : Pkg :=
  let t := p.ftc
  let q : Pkg := { p with ftc := if t.everLocked then t.holding else { t with parent := 7, depth := 255, good := 0, slew := 0, st := .free } }
  if t.st = .locked then q.unlocked else q

/-- R479: the reference of the FTC is lost: it runs on the internal oscillator, in HOLDOVER, and nothing steers it. -/
def Pkg.ftcLost (p : Pkg) : Bool := p.board.clkGone.contains (1, 0)
def Pkg.ftcLoss (p : Pkg) : Pkg :=
  let q : Pkg := { p with board := { p.board with clkGone := (1, 0) :: p.board.clkGone }, ftc := p.ftc.holding }
  if p.ftc.st = .locked then q.unlocked else q

/-- The parent's port has gone down: the next best at once, or HOLDOVER (R320, R322). -/
def Pkg.reparent (p : Pkg) : Pkg :=
  if p.ftc.parent < 4 && !p.open' p.ftc.parent then
    match p.bestPort with
    | some x => p.adopt x
    | none => p.holdover
  else p

/-! Links. -/

def aPortStatus (i : Nat) : Nat := rFAB_PORT_STATUS.at 0 0 i

/-- A report of a port (R386). -/
def Pkg.portEvent (p : Pkg) (i code detail : Nat) : Pkg := p.event { Event.blank code with unit := i, detail := detail }

/-- UP bits of a port. -/
def Port.upBits (q : Port) : Nat := q.upGroups.foldl (fun t g => t + 2 ^ g) 0

/-- R292, R295: a group that exists and is switched on, of a package that is not drained (R414). -/
def Pkg.lit (p : Pkg) (i g : Nat) : Bool :=
  i < 4 && g < groupCount p.board.dies && p.fld (rFAB_PORT_CTRL.at 0 0 i) fFAB_PORT_CTRL_DISABLE = 0 &&
    p.fld (rFAB_PORT_CTRL.at 0 0 i) fFAB_PORT_CTRL_GROUP_OFF / 2 ^ g % 2 = 0 && !p.fw.draining && p.fld aHealth fHS_HEALTH_DRAINED = 0
/-- One that trains. -/
def Pkg.mayTrain (p : Pkg) (i g : Nat) : Bool := p.lit i g && ((p.tport i).group g).trainSince.isSome

/-- R295: a group starts to train. -/
def Pkg.train (p : Pkg) (i g : Nat) : Pkg :=
  if p.lit i g then
    (p.updGroup i g (fun x => { x with trainSince := some p.ftc.now, idSeen := false, tsSeen := false })).sendLinkId i
  else p

/-- R306, R313: what waits at an output that is down is not delivered; the buffers it stood in are free. -/
def Pkg.flushOut (p : Pkg) (i : Nat) : Pkg :=
  let out := (p.tport i).out
  out.foldl (fun p e => (p.freeUnits e.input e.f e.vc).undelivered e.f 2) (p.updPort i (fun q => { q with out := [] }))

/-- R293: port frame sequence order: of two numbers, the one that is further behind the next one. -/
def Port.older (q : Port) (a b : Nat × Frame) : Bool := (a.1 + 2 ^ 11 - q.txSeq) % 2 ^ 11 ≤ (b.1 + 2 ^ 11 - q.txSeq) % 2 ^ 11

/-- R293, R313: what the loss of groups leaves: their unacknowledged frames go out again on a surviving group, in sequence;
with none left, they are returned (reason 5), and so is what waited (reason 2). -/
def Pkg.afterLoss (p : Pkg) (i : Nat) (gs : List Nat) : Pkg :=
  let q := p.tport i
  let lost := (q.sent.filter (fun x => gs.contains x.2.1)).map (fun x => (x.1, x.2.2))
  if p.portUp i then
    (p.updPort i (fun q => { q with sent := q.sent.filter (fun x => !gs.contains x.2.1), again := sortBy q.older (q.again ++ lost) })).serve i
  else
    let p := p.updPort i (fun q => { q with sent := [], again := [], credit := [], given := [], freed := [], nbrOk := false, rxFrames := [],
                                            adv := none, stamps := none, tx := [] })
    ((q.again.foldl (fun p x => p.undelivered x.2 5) (q.sent.foldl (fun p x => p.undelivered x.2.2 5) p)).flushOut i).reparent

/-- Groups of a port go down together, and train again or not; those that were up are lost. -/
def Pkg.groupsOff (p : Pkg) (i : Nat) (gs : List Nat) (retrain : Bool) : Pkg :=
  let were := gs.filter (fun g => ((p.tport i).group g).up)
  let p := gs.foldl (fun p g => p.updGroup i g (fun x => { x with
    up := false, trainSince := none, replaying := false, replays := 0, part := [], rtx := [] })) p
  let p := if were.isEmpty then p else (p.afterLoss i were).portEvent i 0x51 ((p.tport i).upBits)
  if retrain then gs.foldl (fun p g => p.train i g) p else p
def Pkg.groupOff (p : Pkg) (i g : Nat) (retrain : Bool) : Pkg := p.groupsOff i [g] retrain

/-- LANE_GROUP_DOWN (R297): the loss is counted; the third within 1 s holds the group. -/
def Pkg.laneGroupDown (p : Pkg) (i g : Nat) : Pkg :=
  if 4 ≤ i || !((p.tport i).group g).up then p
  else
    let now := p.ftc.now
    let recent := now :: ((p.tport i).group g).losses.filter (fun t => now < t + 1000000000)
    let held := 3 ≤ recent.length
    let p := p.bumpSat (aPortStatus i) fFAB_PORT_STATUS_DOWNS
    let p := p.updGroup i g (fun x => { x with losses := recent })
    let p := p.groupOff i g (!held)
    if held then (p.updPort i (fun q => { q with held := true })).portEvent i 0x53 g else p

/-- R319: the first port of a grandmaster to come up with NBR_OK. -/
def Pkg.noteFirstUp (p : Pkg) (i : Nat) : Pkg :=
  if p.ftc.firstUp = none && p.open' i then { p with ftc := { p.ftc with firstUp := some p.ftc.now } } else p

/-- LINK_TRAINING (R295): every step is complete, LINK_ID and a TSYNC exchange among them, within 100 ms of its start; the group is up. -/
def Pkg.linkTraining (p : Pkg) (i g : Nat) : Pkg :=
  let x := (p.tport i).group g
  let inTime := match x.trainSince with | some t => p.ftc.now ≤ t + 100000000 | none => false
  if !p.mayTrain i g || x.up || !inTime || !x.idSeen || !x.tsSeen then p
  else
    let p := p.updGroup i g (fun x => { x with
      up := true, trainSince := none, rxSeq := 0, part := [], replays := 0, replaying := false, txSeq := 0, rtx := [] })
    ((p.portEvent i 0x52 ((p.tport i).upBits)).noteFirstUp i).serve i

/-- TRAINING_TIMEOUT (R295): 100 ms have passed; the group tries again. -/
def Pkg.trainingTimeout (p : Pkg) (i g : Nat) : Pkg :=
  match ((p.tport i).group g).trainSince with
  | none => p
  | some t => if 4 ≤ i || !p.mayTrain i g then p else (p.until (t + 100000000)).train i g

/-- R296: the fields of a LINK_ID. -/
structure LinkId where
  part : Nat
  groups : Nat
  px : Nat
  py : Nat
  logical : Nat
  sx : Nat
  sy : Nat
  deriving DecidableEq, Repr

/-- LINK_ID (R292, R296): NBR_OK, the neighbour, and the groups that its smaller count leaves down; its training groups are past step 4. On
a mismatch the port carries no frames, and what waits is returned. -/
def Pkg.linkId (p : Pkg) (i : Nat) (l : LinkId) : Pkg :=
  if 4 ≤ i || !(((p.tport i).groups.any (fun g => g.2.up || g.2.trainSince.isSome))) then p
  else
    let p := p.countLocal i 27 9
    let sx := dimOf (p.fld aDim fFAB_DIM_SX)
    let sy := dimOf (p.fld aDim fFAB_DIM_SY)
    let wx := if i = 0 then (p.px + 1) % sx else if i = 1 then (p.px + sx - 1) % sx else p.px
    let wy := if i = 2 then (p.py + 1) % sy else if i = 3 then (p.py + sy - 1) % sy else p.py
    let ok := l.px = wx && l.py = wy
    let p := p.updPort i (fun q => { q with nbrOk := ok, nbr := l.logical % 2 ^ 14, nbrGroups := l.groups,
                                            groups := q.groups.map (fun g => (g.1, { g.2 with idSeen := g.2.idSeen || g.2.trainSince.isSome })) })
    let p := p.groupsOff i ((List.range 4).filter (fun g => l.groups ≤ g)) false
    if ok then p.noteFirstUp i else ((p.portEvent i 0x54 (l.px + 128 * l.py)).flushOut i).reparent

/-- RETRAIN (R297): the hold ends and the port's groups train again. -/
def Pkg.retrain (p : Pkg) (i : Nat) : Pkg :=
  if 4 ≤ i then p
  else
    let p := p.updPort i (fun q => { q with held := false, groups := q.groups.map (fun g => (g.1, { g.2 with losses := [] })) })
    p.groupsOff i (List.range (groupCount p.board.dies)) true

/-- R332: a commit of DISABLE and GROUP_OFF: what they switch off goes down, all at once, and what they switch on trains. -/
def Pkg.portCtrl (p : Pkg) (i : Nat) : Pkg :=
  let off := p.fld (rFAB_PORT_CTRL.at 0 0 i) fFAB_PORT_CTRL_DISABLE = 1
  let gs := List.range (groupCount p.board.dies)
  let dark (g : Nat) : Bool := off || p.fld (rFAB_PORT_CTRL.at 0 0 i) fFAB_PORT_CTRL_GROUP_OFF / 2 ^ g % 2 = 1
  let p := p.groupsOff i (gs.filter dark) false
  (gs.filter (fun g => !dark g)).foldl (fun p g =>
    let x := (p.tport i).group g
    if !x.up && x.trainSince = none && x.losses.length < 3 then p.train i g else p) p

/-! LINK_FLIT (R290, R291, R293, R305). -/

/-- A flit as it arrives: its 256 bytes, and whether the FEC corrected every codeword. -/
structure Flit where
  raw : List Byte
  fecOk : Bool
  deriving DecidableEq, Repr

/-- R290: the frame CRC. -/
def Flit.good (f : Flit) : Bool :=
  f.fecOk && f.raw.length = 256 && ofBytes (f.raw.drop 248) = (crc64 (f.raw.take 248)).toNat

/-- The fields of the link header (log 15). -/
def Flit.word (f : Flit) : Nat := ofBytes (f.raw.take 6)
def Flit.no (f : Flit) : Nat := f.word % 2 ^ 11
def Flit.seq (f : Flit) : Nat := f.word / 2 ^ 11 % 2 ^ 10
def Flit.acked (f : Flit) : Nat := f.word / 2 ^ 21 % 2 ^ 10
def Flit.credit (f : Flit) : Nat × Nat := (f.word / 2 ^ 31 % 8, f.word / 2 ^ 34 % 2 ^ 14)
def Flit.data (f : Flit) : List Byte := (f.raw.drop 6).take 242
/-- Without frame data; with a request for a replay. -/
def Flit.idle (f : Flit) : Bool := f.data.headD 0#8 = 0#8 || f.data.headD 0#8 = 0xFF#8
def Flit.asksReplay (f : Flit) : Bool := f.data.headD 0#8 = 0xFF#8

/-- R290: the frames that a run of frame bytes holds whole, with their port frame sequence numbers, and the bytes of one that has arrived in
part, with its number. A 0 where a frame would begin is filler (log 15). -/
def cutFrames : Nat → Nat → List Byte → List (Nat × Frame) × Nat × List Byte
  | 0, no, _ => ([], no, [])
  | fuel + 1, no, bs =>
    if bs.headD 0#8 = 0#8 then ([], no, [])
    else
      let len := 32 + ofBytes ((bs.drop 14).take 2)
      if bs.length < 32 || bs.length < len then ([], no, bs)
      else
        let x := cutFrames fuel ((no + 1) % 2 ^ 11) (bs.drop len)
        ((no, { Frame.ofHeader (bs.take 32) with payload := (bs.take len).drop 32 }) :: x.1, x.2)

/-- R291: flits up to a sequence number, not included, are acknowledged; the frames that end in them are. -/
def Pkg.ackFlits (p : Pkg) (i g ack : Nat) : Pkg :=
  let l := ((p.tport i).group g).rtx
  let gone := if l.any (fun t => t.seq = ack) then l.takeWhile (fun t => !(t.seq = ack))
    else if ((p.tport i).group g).txSeq = ack then l else []
  let ends := gone.flatMap TxFlit.ends
  (p.updGroup i g (fun x => { x with rtx := x.rtx.drop gone.length })).updPort i (fun q => { q with
    sent := q.sent.filter (fun s => !(s.2.1 = g && ends.contains s.1)) })

/-- Credit comes back (R305): the neighbour says how much it has returned so far. -/
def Pkg.credited (p : Pkg) (i k units : Nat) : Pkg :=
  p.updPort i (fun q => { q with
    credit := q.credit.upd k 0 (· - (units + 2 ^ 14 - q.given.getD k 0) % 2 ^ 14), given := q.given.set k units })

/-- R291: a replay of what is in the buffer, from a sequence number on. -/
def Pkg.replay (p : Pkg) (i g seq : Nat) : Pkg :=
  (((p.tport i).group g).rtx.dropWhile (fun t => !(t.seq = seq))).foldl (fun p t => p.emit (.flit i g t.raw)) p

/-- The frames of a flit enter the port's input buffers, but for those that it holds already (R293). -/
def Pkg.takeFrames (p : Pkg) (i g : Nat) (l : List (Nat × Frame)) : Pkg :=
  let fresh := l.filter (fun y => !(p.tport i).rxFrames.contains y.1)
  let p := p.updPort i (fun q => { q with rxFrames := (fresh.map Prod.fst ++ q.rxFrames).take 1024 })
  let p := fresh.foldl (fun p y => p.countRx i g y.2) p
  { p with fab := { p.fab with inbox := p.fab.inbox ++ fresh.map (fun y => (i, y.2)) } }

/-- LINK_FLIT: a good flit is used: its acknowledgement and credit; its frame data where it is the next in sequence. A bad one, or one that is
not, is discarded, and a replay is asked for; after 8 failed replays of one flit the group goes down. -/
def Pkg.linkFlit (p : Pkg) (i g : Nat) (f : Flit) : Pkg :=
  let x := (p.tport i).group g
  if 4 ≤ i || !x.up then p
  else if f.good && (f.idle || f.seq = x.rxSeq) then
    let p := (p.ackFlits i g f.acked).credited i f.credit.1 f.credit.2
    if f.idle then (if f.asksReplay then p.replay i g f.acked else p).serve i
    else
      let y := cutFrames 242 (if x.part.isEmpty then f.no else x.partNo) (x.part ++ f.data)
      let p := p.updGroup i g (fun x => { x with
        rxSeq := (x.rxSeq + 1) % 2 ^ 10, part := y.2.2, partNo := y.2.1, replays := 0, replaying := false })
      ((p.takeFrames i g y.1).idleFlit i g 0 false).serve i
  else if x.replaying && !(f.seq = x.rxSeq) then p
  else
    let failed := if x.replaying then x.replays + 1 else 0
    if 8 ≤ failed then p.laneGroupDown i g
    else ((p.updGroup i g (fun x => { x with replaying := true, replays := failed })).bumpSat (rFAB_PORT_RETRY.at 0 0 i)
      fFAB_PORT_RETRY_COUNT).idleFlit i g 0 true

/-! BANK_SWITCH (R317). -/

/-- BANK_SWITCH: the local FTC reaches AT. -/
def Pkg.bankSwitch (p : Pkg) : Pkg :=
  if p.fld aRtStatus fFAB_RT_STATUS_PEND = 0 then p
  else (p.until (p.rd64 (rFAB_RT_AT.at 0 0 0))).switchNow

/-! TSYNC and the FTC's states (R319 to R324). -/

/-- R321: a TSYNC as it arrives: the own send stamp and the neighbour's receive stamp of it that the neighbour has, the neighbour's send stamp,
in 1/32 ns; its advertisement, and whether its FTC is LOCKED or in HOLDOVER; `frac`: where in its tick it arrives, in 1/32 ns. -/
structure Tsync where
  echo : Option (Int × Int)
  t3 : Int
  frac : Nat
  gm : Nat
  depth : Nat
  steady : Bool
  deriving DecidableEq, Repr

/-- θ in units of 1/32,000 ns: ASYM is in ps (R321). -/
def thetaOf (t1 t2 t3 t4 asym : Int) : Int := ((t2 - t1) - (t4 - t3)) * 500 - asym * 16

def aFtcStatus : Nat := rFTC_STATUS.at 0 0 0

/-- R322: what θ of the parent does. -/
def Pkg.steer (p : Pkg) (theta : Int) : Pkg :=
  let t := p.ftc
  let p : Pkg := { p with ftc := { t with offset := theta.tdiv 1000, slew := theta.tdiv 32000 } }
  match t.st with
  | .acquiring =>
    let good := if theta.natAbs ≤ 64000 then t.good + 1 else 0
    if 64 ≤ good then { p with ftc := { p.ftc with st := .locked, everLocked := true, good := 0 } }
    else { p with ftc := { p.ftc with good := good } }
  | .locked =>
    if 32000000 < theta.natAbs then
      ({ p with ftc := { p.ftc with st := .acquiring, good := 0 } }).unlocked
    else p
  | _ => p

/-- One exchange on an open port, with its θ (R319 to R322). -/
def Pkg.exchange (p : Pkg) (i : Nat) (t : Tsync) (theta : Int) : Pkg :=
  let twoGm := p.isGM && t.gm < p.coord && t.depth < 255
  if p.ftcLost then p
  else if p.isGM && !twoGm && 4 ≤ p.ftc.parent then
    -- the grandmaster, before it serves, looks for later times of its own machine
    if !p.ftc.serving && t.gm = p.coord && t.steady then
      { p with ftc := { p.ftc with best := max p.ftc.best (theta.tdiv 32000).toNat } }
    else p
  else
    let p := if twoGm && 4 ≤ p.ftc.parent then p.event { Event.blank 0x55 with unit := i, detail := t.gm } else p
    if p.ftc.parent = i && (t.depth = 255 || (p.isGM && !twoGm)) then
      -- R320: a port that advertises 255 is no parent (log 37)
      match p.bestPort with
      | some x => p.adopt x
      | none => p.holdover
    else if p.ftc.parent = i then
      p.steer theta |> fun p => { p with ftc := { p.ftc with depth := min 254 (t.depth + 1), gm := t.gm } }
    else if 4 ≤ p.ftc.parent then
      match p.bestPort with
      | some x => if x.2.2 = i then p.adopt x else p
      | none => p
    else
      let cur := match (p.tport p.ftc.parent).adv with | some (g, d) => (g, d, p.ftc.parent) | none => (2 ^ 14, 255, 7)
      if t.depth < 255 && advBefore (t.gm, t.depth, i) cur then
        let n := (p.tport i).better + 1
        if 16 ≤ n then (p.updPort i (fun q => { q with better := 0 })).adopt (t.gm, t.depth, i)
        else p.updPort i (fun q => { q with better := n })
      else p.updPort i (fun q => { q with better := 0 })

/-- TSYNC (R295, R321): the stamps are taken; its training groups past step 4 are past step 5; on an open port whose neighbour has a TSYNC of
this package the exchange is complete. -/
def Pkg.tsync (p : Pkg) (i : Nat) (t : Tsync) : Pkg :=
  if 4 ≤ i then p
  else
    let p := p.countLocal i 27 29
    let t4 : Int := 32 * (p.ftc.now : Int) + (t.frac % 32 : Nat)
    let p := p.updPort i (fun q => { q with stamps := some (t.t3, t4),
                                            groups := q.groups.map (fun g => (g.1, { g.2 with tsSeen := g.2.tsSeen || g.2.idSeen })) })
    if !p.open' i then p
    else
      let p := p.updPort i (fun q => { q with adv := some (t.gm, t.depth) })
      match t.echo with
      | none => p
      | some e =>
        if !(p.tport i).tx.contains e.1 then p
        else
          let theta := thetaOf e.1 e.2 t.t3 t4 (signedOf 16 (p.fld (rFTC_PORT_ASYM.at 0 0 i) fFTC_PORT_ASYM_ASYM))
          (p.updPort i (fun q => { q with theta := theta })).exchange i t theta

/-- FTC_UNSYNC (R324): 3 ms in HOLDOVER. -/
def Pkg.ftcUnsync (p : Pkg) : Pkg :=
  if p.ftc.st = .holdover && !p.ftc.unsyncReported then
    let p := p.until (p.ftc.holdSince + 3000000)
    ({ p with ftc := { p.ftc with unsyncReported := true } }).event (Event.blank 0x57)
  else p

/-- GRANDMASTER_START (R319): 100 ms after its first port came up. An FTC that has been LOCKED is slewed, where it would be stepped (R322). -/
def Pkg.grandmasterStart (p : Pkg) : Pkg :=
  match p.ftc.firstUp with
  | none => p
  | some t =>
    if !p.isGM || p.ftc.serving || p.ftc.parent ≠ 7 || p.ftcLost then p
    else
      let p := p.until (t + 100000000)
      let p := if p.ftc.best = 0 then p
        else if p.ftc.everLocked then { p with ftc := { p.ftc with slew := p.ftc.best } }
        else p.stepFtc (p.ftc.now + p.ftc.best)
      { p with ftc := { p.ftc with best := 0, serving := true, parent := 4, depth := 0, gm := p.coord, st := .locked, everLocked := true } }

/-- R319, R320, R334: a commit of FTC_CTRL.GM: a package that has become the grandmaster leaves its parent, unless that one's tree has a smaller
GM index; one that has ceased to be it follows a parent. -/
def Pkg.gmChanged (p : Pkg) : Pkg :=
  if p.isGM && p.ftc.parent < 4 && p.coord ≤ p.ftc.gm then
    { p.holdover with ftc := { p.holdover.ftc with gm := p.coord, serving := false } }
  else if !p.isGM && (p.ftc.parent = 4 || p.ftc.serving) then
    let p : Pkg := { p with ftc := { p.ftc with parent := 7, depth := 255, serving := false } }
    match p.bestPort with
    | some x =>
      let q : Pkg := { p.adopt x with ftc := { (p.adopt x).ftc with st := .acquiring } }
      if p.ftc.st = .locked then q.unlocked else q
    | none => p.holdover
  else p

end Sys2Proof.Machine
end

