-- ==== Sys2Proof/Machine/HostMem.lean ====
section
/-! DEFINITION. The host's accesses to device memory (R224, R360 to R363), back-invalidation (R361) and snoops (R356), link-layer retries
(R357). -/
namespace Sys2Proof.Machine

/-- R361: lines that the directory of a bench cache holds. -/
def directorySize : Nat := 1048576

/-- R357: the link layer has retried `k` flits of a transfer; the data are the same. -/
def Pkg.retried (p : Pkg) (k : Nat) : Pkg :=
  let a := rRING_LINK.at 0 0 0
  p.setFld a fRING_LINK_RETRIES (min (p.fld a fRING_LINK_RETRIES + k) 0xFFFF)

/-- R203: a request waits in the die's host queue. -/
def Pkg.hostWaits (p : Pkg) (n : Nat) (r : HostReq) : Pkg := p.updDie n (fun d => { d with hostq := d.hostq ++ [r] })

/-- R28, R203: the die whose queue takes a request: that of its memory, of its bench window, or of the range of the map that the address,
unpopulated, is in. -/
def Pkg.hostDie (p : Pkg) (a : Nat) : Option Nat :=
  match p.homeDie a with
  | some n => some n
  | none => if p.present (addrDie a) then some (addrDie a) else none

/-- A host CXL.mem request of a DPA: to its die, behind those that wait; with a full directory, after its oldest line is invalidated. One of
the range of an absent die, which R30 leaves unpredictable, changes nothing, or reads free values. -/
def Pkg.hostAccess (p : Pkg) (r : HostReq) (ecc : Ecc) : Pkg :=
  match p.hostDie r.addr with
  | none => if r.data.isSome then p else p.emit (.hostData r.addr (p.readBytes r.addr r.len) false)
  | some n =>
    let d := p.die n
    if !d.hostq.isEmpty then p.hostWaits n r
    else if (p.owner r.addr).isSome && r.holds && !d.held.contains (lineOf r.addr) && directorySize ≤ d.held.length then
      { p with touched := (d.held.head?).map (fun l => (l, true)) }
    else
      let x := p.serveHost n r ecc
      if x.2 then x.1 else x.1.hostWaits n r

/-- BENCH_WINDOW_ACCESS by the host (R178, R18, R177): a CXL.mem request of a bench window of a core. -/
def Pkg.benchWindow (p : Pkg) (n lc off len : Nat) (wr : Option (List Byte)) (ecc : Ecc) : Pkg :=
  p.hostAccess ⟨benchBase n lc + off, len, wr, false⟩ ecc

/-- R357, R360: a host CXL.mem request of a host physical address, which a committed decoder maps onto its DPA; the link layer retried `retries`
flits on its way. -/
def Pkg.hostRequest (p : Pkg) (hpa retries : Nat) (data : Option (List Byte)) (holds : Bool) (ecc : Ecc) : Pkg :=
  if !p.linkUp || !p.port.memEn then p
  else
    let p := p.retried retries
    match p.dpaOf hpa with
    | some a => p.hostAccess ⟨a, (data.map List.length).getD 64, data, holds⟩ ecc
    | none => p

/-- CXL_MEM_READ of the line that holds an address; `holds`: the host asks for a copy that it may keep. -/
def Pkg.cxlRead (p : Pkg) (hpa retries : Nat) (holds : Bool) (ecc : Ecc) : Pkg := p.hostRequest (lineOf hpa) retries none holds ecc

/-- CXL_MEM_WRITE of a line or part of one. -/
def Pkg.cxlWrite (p : Pkg) (hpa retries : Nat) (bs : List Byte) (holds : Bool) (ecc : Ecc) : Pkg :=
  p.hostRequest hpa retries (some (bs.take (64 - hpa % 64))) holds ecc

/-- BISNP_RESPONSE (R361, R200): the host's data, if it returns any, is taken, once the tracker lets it in: refused, the answer comes again;
after BISnpInv the host no longer holds the line. `ecc`: a parity failure discards the data (R233). -/
def Pkg.bisnpResponse (p : Pkg) (line : Nat) (inv : Bool) (data : Option (List Byte)) (ecc : Ecc) : Pkg :=
  let line := lineOf line
  if !p.snoops.contains (line, inv) then p
  else
    match p.owner line with
    | none => p
    | some n =>
      let old := p
      let q := (p.meets ecc).askAll (.answer line) [] (match data with | some bs => [(line, min 64 bs.length)] | none => [])
      if !q.2 then q.1
      else
        let p : Pkg := { q.1 with snoops := q.1.snoops.filter (fun x => !(x = (line, inv))) }
        let p := match data with
          | some bs => if ecc = Ecc.parity then p.datapath n line else p.writeLine n line (bs.take 64) 7 0 .absent
          | none => p
        let p := if inv then p.hostHolds n line false
          else { p with answered := if p.answered.contains line then p.answered else line :: p.answered }
        p.asBefore old

/-- HOST_SNOOP (R356): the device holds no host line, and answers RspIHitI. -/
def Pkg.hostSnoop (p : Pkg) (a retries : Nat) : Pkg := if p.linkUp then (p.retried retries).emit (.snoopReply a) else p

/-! Configuration space (R358, R384, log 13). -/

/-- R384: the enables that the host writes. -/
inductive CfgField where
  | memSpace | busMaster | cacheEn | memEn | msixEn
  deriving DecidableEq, Repr

def Pkg.cfgWrite (p : Pkg) (f : CfgField) (b : Bool) : Pkg :=
  if !p.linkUp then p
  else
    let h := p.port
    { p with port := match f with
        | .memSpace => { h with memSpace := b }
        | .busMaster => { h with busMaster := b }
        | .cacheEn => { h with cacheEn := b }
        | .memEn => { h with memEn := b }
        | .msixEn => { h with msixEn := b } }

/-- R358: sizes of BAR0 and BAR2; each base is aligned to its size. -/
def bar0Size : Nat := 2 ^ 26
def bar2Size : Nat := 2 ^ 19

/-- R358: the host assigns the base of BAR0, or of BAR2. -/
def Pkg.barWrite (p : Pkg) (two : Bool) (v : Nat) : Pkg :=
  if !p.linkUp then p
  else if two then { p with port := { p.port with bar2 := v % 2 ^ 64 / bar2Size * bar2Size } }
  else { p with port := { p.port with bar0 := v % 2 ^ 64 / bar0Size * bar0Size } }

/-- R358: the extended capabilities, and the DVSECs. -/
inductive ExtCap where
  | aer | doe | ide | dataLinkFeature | phys32 | phys64
  deriving DecidableEq, Repr
inductive Dvsec where
  | cxlDevice | flexBusPort | registerLocator
  deriving DecidableEq, Repr

/-- R358: what configuration space holds that does not change. The vendor ID is the part's (log 5). What the standard has the capabilities and
DVSECs hold is its own (log 13). -/
structure CfgSpace where
  vendor : Nat
  device : Nat
  classCode : Nat
  revision : Nat
  bar0 : Nat                 -- bits [3:0] of a BAR: 64-bit, non-prefetchable memory
  bar2 : Nat
  bar4 : Nat
  msixVectors : Nat
  msixTable : Nat            -- offsets in BAR0
  msixPba : Nat
  component : Nat            -- CXL component registers: offset in BAR0, and size
  componentSize : Nat
  extCaps : List ExtCap
  dvsecs : List Dvsec
  deriving DecidableEq, Repr

def Pkg.cfgSpace (p : Pkg) : CfgSpace :=
  { vendor := (Config.vendorId).toNat, device := 0x4F5A, classCode := 0x120000, revision := Config.stepping.toNat
    bar0 := p.port.bar0 + 4, bar2 := p.port.bar2 + 4, bar4 := 0, msixVectors := 2048, msixTable := 0x180000, msixPba := 0x188000
    component := 0xF0000, componentSize := 0x10000
    extCaps := [.aer, .doe, .ide, .dataLinkFeature, .phys32, .phys64], dvsecs := [.cxlDevice, .flexBusPort, .registerLocator] }

/-- R360, R384: the fields of an HDM decoder that the host programs. -/
inductive HdmField where
  | base | size | skip | commit
  deriving DecidableEq, Repr

/-- R356, R360: a field of decoder `k` is written. Ranges are multiples of 256 MiB; a committed decoder stands until its Commit is cleared, and
commits after those before it, as the standard has it (log 13). -/
def Pkg.hdmSet (p : Pkg) (k : Nat) (f : HdmField) (v : Nat) : Pkg :=
  let d := p.hdmAt k
  let put (x : Hdm) : Pkg := { p with port := { p.port with hdm := p.port.hdm.set k x } }
  let v28 := v % 2 ^ 64 / 2 ^ 28 * 2 ^ 28
  match f with
  | .base => if d.committed then p else put { d with base := v28 }
  | .size => if d.committed then p else put { d with size := v28 }
  | .skip => if d.committed then p else put { d with skip := v28 }
  | .commit =>
    if v % 2 = 0 then put { d with committed := false }
    else if (List.range k).all (fun i => (p.hdmAt i).committed) then put { d with committed := true }
    else p

/-- R358: the HDM decoder capability among the component registers, as the standard lays it out; its place there is the model's (log 13). -/
def aHdm : Nat := 0xF1200
/-- A word of decoder `k`: its field, and whether it is the high half. -/
def hdmSlot (a : Nat) : Option (Nat × HdmField × Bool) :=
  if a < aHdm + 0x10 || aHdm + 0x90 ≤ a then none
  else
    let k := (a - aHdm - 0x10) / 0x20
    match (a - aHdm - 0x10) % 0x20 / 4 with
    | 0 => some (k, .base, false)
    | 1 => some (k, .base, true)
    | 2 => some (k, .size, false)
    | 3 => some (k, .size, true)
    | 4 => some (k, .commit, false)
    | 5 => some (k, .skip, false)
    | 6 => some (k, .skip, true)
    | _ => none
/-- The place of a field. -/
def hdmOff (k : Nat) (f : HdmField) : Nat :=
  aHdm + 0x10 + 0x20 * k + (match f with | .base => 0 | .size => 8 | .commit => 0x10 | .skip => 0x14)

def Hdm.field (d : Hdm) : HdmField → Nat
  | .base => d.base | .size => d.size | .skip => d.skip | .commit => 2 ^ 9 * (if d.committed then 3 else 0)

/-- A word of the capability: its header names 4 decoders; Commit is bit 9 and Committed bit 10 of a decoder's control. -/
def Pkg.hdmWord (p : Pkg) (a : Nat) : Option Word :=
  if a = aHdm then some 2#32
  else (hdmSlot a).map (fun x => BitVec.ofNat 32 ((p.hdmAt x.1).field x.2.1 / (if x.2.2 then 2 ^ 32 else 1)))

/-- A write of one word; a half of a field leaves the other. -/
def Pkg.hdmPut (p : Pkg) (a v : Nat) : Pkg :=
  match hdmSlot a with
  | none => p
  | some (k, .commit, _) => p.hdmSet k .commit (v / 2 ^ 9)
  | some (k, f, hi) =>
    let old := (p.hdmAt k).field f
    p.hdmSet k f (if hi then old % 2 ^ 32 + 2 ^ 32 * (v % 2 ^ 32) else old / 2 ^ 32 * 2 ^ 32 + v % 2 ^ 32)

/-- A write of 4 or 8 bytes; 8 bytes are a whole Base or Size. -/
def Pkg.hdmPuts (p : Pkg) (a : Nat) (wide : Bool) (v : Nat) : Pkg :=
  match wide, hdmSlot a with
  | true, some (k, .base, false) => p.hdmSet k .base v
  | true, some (k, .size, false) => p.hdmSet k .size v
  | true, _ => (p.hdmPut a v).hdmPut (a + 4) (v / 2 ^ 32)
  | false, _ => p.hdmPut a v

end Sys2Proof.Machine
end

