-- ==== Sys2Proof/Machine/Milnik.lean ====
section
/-! DEFINITION. The Milnik meter (R459 to R468): samples, counting lines, records, the live copy, the answers of its port.
Every operation here is a function of Milnik's own state. -/
namespace Sys2Proof.Machine

/-- R459: rails present, and their rated currents in mA. -/
def Milnik.railPresent (m : Milnik) (r : Nat) : Bool := if r < 8 then r < m.dies else r < 8 + 2 * m.dies
def ratedMa (r : Nat) : Nat := if r < 8 then 780000 else 48000

/-- One sample of every rail, in mV and mA; mV × mA × 1 µs is 10⁻¹² J. -/
def Milnik.sampleRail (m : Milnik) (r : Nat) (vi : Nat × Nat) : Milnik :=
  if m.railPresent r then
    let e := m.residue.getD r 0 + vi.1 * vi.2
    { m with residue := m.residue.set r (e % 1000000)
             energy := m.energy.upd r 0 (fun x => (x + e / 1000000) % 2 ^ 64)
             overrange := m.overrange || ratedMa r < vi.2 }
  else m

/-- A sample of every rail is taken, 1 µs after the one before. -/
def Milnik.sampleAll (m : Milnik) (vi : List (Nat × Nat)) : Milnik :=
  let m := vi.zipIdx.foldl (fun m x => if x.2 < 24 then m.sampleRail x.2 x.1 else m) m
  if m.us + 1 = 1000 then { m with us := 0, mtime := m.mtime + 1, spanMs := m.spanMs + 1 } else { m with us := m.us + 1 }

/-- COUNTING_LINE (R461): the counts of die `n`, or a framing error, which loses them. -/
def Milnik.countLine (m : Milnik) (n : Nat) (counts : Tbl Nat) (framing : Bool) : Milnik :=
  if !m.powered then m
  else if framing then { m with lineFault := m.lineFault ||| 2 ^ n }
  else { m with ops := counts.foldl (fun t e => t.upd e.1 0 (fun x => (x + e.2) % 2 ^ 128)) m.ops }

/-- R462: bytes 0 to 511 of a record, or of a quote. -/
def Milnik.head (m : Milnik) (kind seq span : Nat) : List Byte :=
  let flags := (if m.sealed then 1 else 0) + (if m.gap then 2 else 0) + (if m.overrange then 4 else 0) + (if m.flashNext then 8 else 0)
  toBytes 4 0x314B4E4D ++ toBytes 1 kind ++ toBytes 1 1 ++ toBytes 1 (3 * m.dies) ++ toBytes 1 flags ++ toBytes 8 seq
    ++ toBytes 8 m.mtime ++ toBytes 4 span ++ toBytes 4 m.boots ++ toBytes 8 m.serial ++ toBytes 1 m.lineFault ++ toBytes 7 0
    ++ toBytes 8 m.pkgSerial ++ toBytes 8 0
    ++ (List.range 24).flatMap (fun r => toBytes 8 (m.energy.getD r 0))
    ++ (List.range 16).flatMap (fun i => toBytes 16 (m.ops.getD i 0))

/-- Signs 560 bytes (R462). -/
def milnikSigned (b : List Byte) : List Byte := b ++ Config.milnikSign (Config.sha384 b)

/-- R463: Milnik time at which the record in progress closes: the first multiple of 60,000 ms after the last closing or power-up. -/
def Milnik.due (m : Milnik) : Nat := 60000 * ((m.mtime - m.spanMs) / 60000 + 1)

/-- MILNIK_RECORD_CLOSE (R463, R464): when its time is reached a record is closed, signed and stored; `flashOk`: the flash write succeeds. -/
def Milnik.close (m : Milnik) (flashOk : Bool) : Milnik :=
  if !m.powered then m
  else
    let t := max m.due m.mtime
    let span := m.spanMs + (t - m.mtime)
    let m := { m with mtime := t, us := 0 }
    let seq := m.seq + 1
    let prev := if m.last.isEmpty then toBytes 48 0 else Config.sha384 m.last
    let r := milnikSigned (m.head 1 seq (min span 60000) ++ prev)
    { m with seq := seq, spanMs := 0, gap := false, overrange := false, lineFault := 0, last := r
             flash := if flashOk then m.flash.set (seq % 131072) r else m.flash
             stored := if flashOk then r else m.stored
             flashFault := m.flashFault || !flashOk, flashNext := !flashOk
             ram := ((seq, r) :: m.ram).take 64 }

/-- MILNIK_SAMPLE (R460): a record whose time has come is closed before the sample (R463). -/
def Milnik.sample (m : Milnik) (vi : List (Nat × Nat)) : Milnik :=
  if !m.powered then m else (if m.due ≤ m.mtime then m.close true else m).sampleAll vi

/-- LIVE_COPY_REFRESH (R466): between two increments of LIVE_GEN. -/
def Milnik.refresh (m : Milnik) : Milnik :=
  if !m.powered then m
  else { m with liveGen := (m.liveGen + 2) % 2 ^ 32, live := m.head 1 (m.seq + 1) m.spanMs }

/-- MILNIK_POWER_LOSS (R463): what flowed since the last closing is not recorded. -/
def Milnik.powerLoss (m : Milnik) : Milnik := { m with powered := false }

/-- The counters that a stored record holds. -/
def recordField (b : List Byte) (o n : Nat) : Nat := ofBytes ((b.drop o).take n)
def Milnik.fromStored (m : Milnik) : Milnik :=
  { m with seq := recordField m.stored 8 8, last := m.stored, residue := []
           energy := (List.range 24).map (fun r => (r, recordField m.stored (64 + 8 * r) 8))
           ops := (List.range 16).map (fun i => (i, recordField m.stored (256 + 16 * i) 16)) }

/-- MILNIK_POWER_UP (R463): BOOTS, GAP, and every counter from the last stored record. -/
def Milnik.powerUp (m : Milnik) : Milnik :=
  if m.powered then m
  else { m.fromStored with powered := true, boots := (m.boots + 1) % 2 ^ 32, gap := true, spanMs := 0, us := 0
                           overrange := false, lineFault := 0, flashFault := false, flashNext := false, ram := [] }

/-! Answers of its I3C port (R465). -/

def Milnik.identWord (m : Milnik) : Nat := 0x4D4C0100 + 3 * m.dies
def Milnik.statusWord (m : Milnik) : Nat :=
  (if m.sealed then 2 ^ 31 else 0) + (if m.flashFault then 2 ^ 30 else 0) + (if m.overrange then 2 ^ 29 else 0) + m.lineFault % 256

def Milnik.ident (m : Milnik) : List Byte :=
  toBytes 4 m.identWord ++ toBytes 4 m.statusWord ++ toBytes 8 m.serial ++ toBytes 8 m.pkgSerial

/-- RECORD: from RAM or flash; zero length if it has been overwritten. -/
def Milnik.recordOf (m : Milnik) (seq : Nat) : List Byte :=
  match m.ram.find? (fun e => e.1 = seq) with
  | some e => e.2
  | none =>
    match m.flash.find (seq % 131072) with
    | some r => if recordField r 8 8 = seq then r else []
    | none => []

def Milnik.cert (off len : Nat) : List Byte := (Config.milnikChain.drop off).take (min len 1024)

/-- QUOTE: a KIND 2 record with the live counters, signed at once. -/
def Milnik.quote (m : Milnik) (nonce : List Byte) : List Byte := milnikSigned (m.head 2 m.seq 0 ++ nonce)

end Sys2Proof.Machine
end

