-- ==== Sys2Proof/Machine/Registers.lean ====
section
/-! DEFINITION. Register access through BAR0 and the management port (R10 to R12, R32 to R42, R323, R453, R454): what each
register reads as, writes by access type, the shadow copies and the commits of the clamp registers. -/
namespace Sys2Proof.Machine

/-! What registers read as. -/

/-- A stored word with the fields that follow the machine's state. -/
def putFlds (v : Word) (l : List (Fld × Nat)) : Word := l.foldl (fun v x => putFld v x.1 x.2) v
/-- A count that saturates at the width of its field. -/
def sat (f : Fld) (n : Nat) : Fld × Nat := (f, min n (2 ^ f.w - 1))
def flag01 (b : Bool) : Nat := if b then 1 else 0
def bitsOf (l : List Nat) : Nat := l.foldl (fun t i => t ||| 2 ^ i) 0

/-- R81, R92, R173: the registers of a core that show its state. -/
def Core.waking (c : Core) : Bool := match c.pwr with | .wakeQueued | .ungating _ | .ramp => true | _ => false
/-- A program holds its first word while the core wakes (R60, R61). -/
def Core.wakeHeld (c : Core) : Bool := c.waking && !c.startq.isEmpty
/-- R173, R203: the hold causes: of a running program, or of one whose header is not admitted yet. -/
def Core.holdNow (c : Core) : Nat :=
  (if c.seq.running || !c.startq.isEmpty then c.seq.hold else 0) ||| (if c.wakeHeld then 64 else 0)
/-- R173: STATE. A program that has ended, trapped or not, leaves STATE 0, with LOOPS and PC as they stood (log 42). -/
def Core.seqState (c : Core) : Nat :=
  if c.wakeHeld then 2
  else if !c.seq.running then (if c.holdNow ≠ 0 then 2 else 0)
  else if c.seq.trap ≠ .none then 3 else if c.seq.hold ≠ 0 then 2 else 1
/-- R92: BUSY: an operation occupies the array, or a wavefront of a stroke, a restore, a LOAD or a DRAIN is in flight. A RUN that waits at the
head of the queue occupies the array from its first stroke or skip on (DESIGN CHOICE, log 44). -/
def Core.opaBusy (c : Core) : Bool :=
  (match c.queue with | a :: _ => a.begun.isSome || 0 < a.done | [] => false) || c.half < c.opaActive

/-- R93: the effective mask, and the groups it leaves. -/
def Pkg.kerfMask (p : Pkg) (key : Nat) (rt : Nat) : Nat := ((p.die (key / 72)).kerfFuse.getD (key % 72) 0 ||| rt) % 2 ^ 17
def Pkg.short (p : Pkg) (key rt : Nat) : Bool := kerfShort (p.kerfMask key rt) (p.groupsNeeded (key / 72))

/-- R203, R245: the threads of a core's UPDATE that are parked, and those that have requests. -/
def Requester.updThread (key : Nat) : Requester → Option Nat
  | .update k t => if k = key then some t else none
  | _ => none
def Pkg.updParked (p : Pkg) (key : Nat) : List Nat :=
  (List.range p.board.dies).flatMap (fun n => ((p.die n).waits.filter (fun x => !x.woken)).filterMap (fun x => x.who.updThread key))
def Pkg.updThreads (p : Pkg) (key : Nat) : List Nat :=
  (List.range p.board.dies).flatMap (fun n => (p.die n).trk.filterMap (fun e => e.who.updThread key) ++
    (p.die n).waits.filterMap (fun x => x.who.updThread key))

def Pkg.liveCore (p : Pkg) (key o : Nat) (v : Word) : Word :=
  let c := p.core key
  if o = 0 then putFlds v [(fCORE_SEQ_STATUS_STATE, c.seqState), (fCORE_SEQ_STATUS_HOLD, c.holdNow),
    (fCORE_SEQ_STATUS_LOOPS, c.seq.loops.length), (fCORE_SEQ_STATUS_STARTQ, c.startq.length)]
  else if o = 4 then BitVec.ofNat 32 c.seq.pc
  else if o = 8 then putFlds v [(fCORE_SEQ_TRAP_CAUSE, c.seq.trap.cause), (fCORE_SEQ_TRAP_CODE, c.seq.trap.code)]
  else if o = 0xC then BitVec.ofNat 32 c.seq.tag
  else if o = 0x10 then putFlds v [(fCORE_PEG_STATUS_SAT, flag01 c.pegSat.isSome), (fCORE_PEG_STATUS_FIRST, c.pegSat.getD 0)]
  else if 0x100 ≤ o && o < 0x200 then BitVec.ofNat 32 (c.peg ((o - 0x100) / 4))
  else if o = 0x204 then BitVec.ofNat 32 c.skips
  else if o = 0x208 then BitVec.ofNat 32 c.mispred
  else if o = 0x20C then putFlds v [(fCORE_OPA_STATUS_BUSY, flag01 c.opaBusy), (fCORE_OPA_STATUS_SPEC, flag01 c.spec.isSome),
    (fCORE_OPA_STATUS_QUEUED, c.queue.length)]
  else if o = 0x300 then putFlds v [(fCORE_GTH_STATUS_ACTIVE, bitsOf (c.threads.map Prod.fst ++ p.updThreads key)),
    (fCORE_GTH_STATUS_PARKED, bitsOf ((c.threads.filter (fun t => t.2.parked.isSome)).map Prod.fst ++ p.updParked key))]
  else if o = 0x304 then putFlds v [(fCORE_GTH_OUT_MISSES, p.lineReqs key)]
  else if o = 0x308 then putFlds v [(fCORE_GTH_FAULT_VALID, flag01 c.gfault.valid), (fCORE_GTH_FAULT_CAUSE, c.gfault.cause),
    (fCORE_GTH_FAULT_MORE, flag01 c.gfault.more), (fCORE_GTH_FAULT_THREAD, c.gfault.thread), (fCORE_GTH_FAULT_DESC, c.gfault.desc / 64)]
  else if o = 0x30C then BitVec.ofNat 32 c.gfault.pos
  else if o = 0x310 then BitVec.ofNat 32 c.gfault.addr
  else if o = 0x314 then BitVec.ofNat 32 (c.gfault.addr / 2 ^ 32 % 2 ^ 16)
  else if o = 0x318 then BitVec.ofNat 32 c.dhits
  else if o = 0x31C then BitVec.ofNat 32 c.dmisses
  else if o = 0x400 then putFlds v [(fCORE_UPD_STATUS_ACTIVE, flag01 c.upd.isSome)]
  else v

/-- R423, R437: a word of a core's counters. -/
def Core.counter (c : Core) (now i : Nat) : Nat :=
  if i = 20 then (c.cnt.getD 20 0 + c.ran now) % 2 ^ 64 else if i < 25 then c.cnt.getD i 0 else 0
def halfOf (o v : Nat) : Word := BitVec.ofNat 32 (if o % 8 = 0 then v else v / 2 ^ 32)

/-- R420, R422: counter `i` of set `s` of a die; set 0 takes in its cores. -/
def Pkg.setCounter (p : Pkg) (n s i : Nat) : Nat :=
  if 31 ≤ i || !p.present n then 0
  else
    let cores := if i ≤ 20 then p.cores.filter (fun e => e.1 / 72 = n) else []
    if s = 0 then cores.foldl (fun t e => (t + e.2.counter p.ftc.now i) % 2 ^ 64) ((p.die n).cnt.getD i 0)
    else
      let hit := if i = 20 then cores.filter (fun e => p.filterHits s e.2.seq.ids) else []
      hit.foldl (fun t e => (t + e.2.ran p.ftc.now) % 2 ^ 64) ((p.die n).fcnt.getD ((s - 1) * 32 + i) 0)

def Pkg.liveKerf (p : Pkg) (key o : Nat) (v : Word) : Word :=
  if o = 0 then BitVec.ofNat 32 ((p.die (key / 72)).kerfFuse.getD (key % 72) 0)
  else if o = 4 then BitVec.ofNat 32 ((p.core key).kerf % 2 ^ 17)    -- R11, R97: the map in effect
  else if o = 8 then
    let m := p.kerfMask key (p.core key).kerf
    let k := (groupsOf m).length
    putFlds v [(fCORE_KERF_STATUS_SHORT, flag01 (k < p.groupsNeeded (key / 72))), (fCORE_KERF_STATUS_AVAILABLE, k), (fCORE_KERF_STATUS_BYPASS, m)]
  else v

/-- R418: the core due next, the lowest of several. -/
def Pkg.dueNext (p : Pkg) (n : Nat) : Option Nat :=
  ((List.range 72).foldl (fun b c => match p.dueAt n c with
    | some t => (match b with | some (u, _) => if t < u then some (t, c) else b | none => some (t, c))
    | none => b) (none : Option (Nat × Nat))).map Prod.snd
/-- R394: a bound core that has waited more than 16 s for a program boundary. -/
def Pkg.overdue (p : Pkg) (n c : Nat) : Bool :=
  let q := p.core (coreKey n c)
  (q.seq.running || q.upd.isSome) && (match p.dueAt n c with | some t => t + 16000000000 < p.ftc.now | none => false)

/-- Words of a CD block. SLEW, IDLE_GATE, CEIL, TRIM, MODE and VFIXED read as committed from the commit on, though R64 has them act later
(DESIGN CHOICE, log 44). -/
def Pkg.liveCd (p : Pkg) (n o : Nat) (v : Word) : Word :=
  let d := p.die n
  if o = 0 then putFlds v [(fCD_CORE_STATUS_SPARES, d.spares.length), (fCD_CORE_STATUS_FENCED, (d.fenced.filter (fun c => d.logical c = none)).length),
    (fCD_CORE_STATUS_FUSED, d.fused.length), (fCD_CORE_STATUS_DIE, n)]
  else if 0x100 ≤ o && o < 0x200 then putFlds v [(fCD_CORE_MAP_PHYS, d.bind.getD ((o - 0x100) / 4) 0x7F)]
  else if o = 0x1000 then putFlds v [(fCD_GOV_CTRL_N, p.govN n)]
  else if o = 0x1004 then putFlds v [(fCD_GOV_STATUS_QUEUED, d.gov.length),
    (fCD_GOV_STATUS_GATED, (d.bind.filter (fun e => (p.core (coreKey n e.2)).pwr = .gated)).length)]
  else if o = 0x1008 then putFlds v [(fCD_RATE_CEIL_FW_CEIL, d.fwCeil), (fCD_RATE_CEIL_EFFECTIVE, p.ceiling n)]
  else if o = 0x1014 then putFlds v [(fCD_VSTATUS_TJ, d.tj), (fCD_VSTATUS_VNOW, d.setMv)]
  else if o = 0x8000 then putFlds v [(fMEM_SCRUB_STATUS_QUEUED, d.scrubq.length), (fMEM_SCRUB_STATUS_PARKED, flag01 d.scrubParked),
    (fMEM_SCRUB_STATUS_BUSY, flag01 d.scrub.isSome)]
  else if o = 0x9100 then putFlds v [(fCD_POOL_STATUS_QUEUED, d.engq.length), (fCD_POOL_STATUS_PARKED, bitsOf d.engParked),
    (fCD_POOL_STATUS_BUSY, bitsOf (d.engs.map Prod.fst))]
  else if o = 0x9208 then putFlds v [(fCD_TRK_STATUS_WAITING, d.waits.length), (fCD_TRK_STATUS_IN_USE, d.trk.length)]
  else if o = 0x9300 then putFlds v [(fCD_COLL_STATUS_PARKED, bitsOf ((d.streams.filter (fun s => s.2.parked)).map Prod.fst)),
    (fCD_COLL_STATUS_ACTIVE, bitsOf (d.streams.map Prod.fst))]
  else if o = 0x9304 then putFlds v [(fCD_COLL_QUEUE_RECORDS, d.ready.length), (fCD_COLL_QUEUE_QUEUED, d.collq.length)]
  else if o = 0x9BFC then putFlds v [(fCD_DPEG_STATUS_SAT, flag01 d.pegSat.isSome), (fCD_DPEG_STATUS_FIRST, d.pegSat.getD 0)]
  else if 0x9C00 ≤ o && o < 0xA000 then BitVec.ofNat 32 (p.dpeg n ((o - 0x9C00) / 4))
  else if o = 0x204 then
    putFlds v [(fCD_KAT_STATUS_NEXT, (p.dueNext n).getD 0), (fCD_KAT_STATUS_OVERDUE, (d.bind.filter (fun e => p.overdue n e.2)).length)]
  else v

def Pkg.liveHs (p : Pkg) (o : Nat) (v : Word) : Word :=
  if o = 0 then putFlds v [(fHS_IDENT_CD_COUNT, p.board.dies), (fHS_IDENT_STEP_MAJOR, Config.stepping.toNat / 16), (fHS_IDENT_STEP_MINOR, Config.stepping.toNat % 16)]
  else if o = 4 then putFlds v [(fHS_CD_PRESENT_CD_FAULTED, bitsOf ((List.range p.board.dies).filter (fun n => (p.die n).faulted))),
    (fHS_CD_PRESENT_CD_PRESENT, 2 ^ p.board.dies - 1)]
  else if o = 0x310 then
    -- R281: epochs older than the one in progress, or than CUR
    let ref := p.fld aEpoch fHS_EPOCH_PENDING
    putFlds v [sat fHS_EPOCH_FENCE_OLDER ((p.cmds.filter (fun e => e.2.isColl && e.2.fire.isSome && e.2.fin = none &&
        newerEpoch ref e.2.collEpoch)).length),
      sat fHS_EPOCH_FENCE_FENCES (match p.epochNow with
        | some (_, c) => (p.fw.epochFrom.filter (fun x => x.2 = c.f 28 2)).length
        | none => 0)]
  else if o = 0x604 then putFlds v [(fHS_POWER_STATUS_VR_ALERT, flag01 p.board.vrAlert)]    -- R484: the pin
  else v

def Pkg.liveRing (p : Pkg) (o : Nat) (v : Word) : Word :=
  if o = 0x14 then
    let l := p.rd aCtxLoad
    let i := bits l 0 15
    if bits l 31 1 = 0 then putFlds v [(fRING_CTX_STATUS_ENABLED, flag01 (p.ring i).en),
      sat fRING_CTX_STATUS_INFLIGHT ((p.cmds.filter (fun e => e.2.ring = i)).length)]
    else putFlds v [(fRING_CTX_STATUS_ENABLED, flag01 (p.cq i).en),
      sat fRING_CTX_STATUS_INFLIGHT ((p.cmds.filter (fun e => e.2.fin.isSome && p.cqOf e.2 = i)).length)]
  else if o = 0x18 then putFlds v [(fRING_CTRL_IDLE, flag01 p.cmds.isEmpty)]
  else if o = 0x1C then putFlds v [(fRING_OUT_CLASS3, p.class3), (fRING_OUT_IN_USE, p.cmds.length)]
  else if o = 0x24 then putFlds v [(fRING_LINK_IDE, flag01 p.port.ide), (fRING_LINK_WIDTH, p.port.width), (fRING_LINK_SPEED, p.port.speed)]
  else if 0x80000 ≤ o && o < 0x88000 then p.regs.getD (0x100000 + o) (if o % 16 = 12 then 1#32 else 0#32)
  else if 0x88000 ≤ o && o < 0x88100 then
    BitVec.ofNat 32 (bitsOf ((List.range 32).filter (fun i => p.port.msixPend.contains ((o - 0x88000) * 8 + i))))
  else v

def Pkg.liveFab (p : Pkg) (o : Nat) (v : Word) : Word :=
  if 0x20 ≤ o && o < 0x30 then
    let q := p.tport ((o - 0x20) / 4)
    putFlds v [(fFAB_PORT_STATUS_UP, if p.portUp ((o - 0x20) / 4) then q.upBits else 0), (fFAB_PORT_STATUS_PRESENT, 2 ^ groupCount p.board.dies - 1),
      (fFAB_PORT_STATUS_NBR_OK, flag01 q.nbrOk), (fFAB_PORT_STATUS_HELD, flag01 q.held), (fFAB_PORT_STATUS_NBR, q.nbr)]
  else if 0x10000 ≤ o && o < 0x20000 then
    let b := (o - 0x10000) / 0x4000
    let i := (o - 0x10000) % 0x4000
    BitVec.ofNat 32 (ofBytes ((List.range 4).map (fun k => BitVec.ofNat 8 (p.route b (i + k)))))
  else v

/-- R226: a stack is on its die; a DIMM where the board has one. -/
def Pkg.liveMem (p : Pkg) (n m o : Nat) (v : Word) : Word :=
  if o = 0 then putFlds v [(fMEM_STATUS_PRESENT, if m < 2 then 1 else flag01 (p.board.dimms.find (n * 2 + (m - 2))).isSome)] else v

def FtcState.code : FtcState → Nat
  | .free => 0 | .acquiring => 1 | .locked => 2 | .holdover => 3

def Pkg.liveFtc (p : Pkg) (o : Nat) (v : Word) : Word :=
  if o = 0 then BitVec.ofNat 32 p.ftc.now
  else if o = 4 then BitVec.ofNat 32 (p.ftc.now / 2 ^ 32)
  else if o = 0x18 then
    let x := max (-32768) (min 32767 p.ftc.offset)
    putFlds v [(fFTC_STATUS_STATE, p.ftc.st.code), (fFTC_STATUS_PARENT, p.ftc.parent), (fFTC_STATUS_DEPTH, p.ftc.depth),
      (fFTC_STATUS_OFFSET, (x + 65536).toNat % 65536)]
  else v

def Pkg.areaNow (p : Pkg) : Area := if p.fw.activeArea then p.fw.area1 else p.fw.area0
/-- R455: bytes of an area in use: the base's header and items, the marker, the entries. -/
def Area.bytes (a : Area) : Nat := 32 + 16 * a.items.length + 32 + 32 * a.entries.length

def Pkg.liveMgt (p : Pkg) (o : Nat) (v : Word) : Word :=
  if o = 0 then putFlds v [(fMGT_BOOT_STATE, if p.fw.waiting then 2 else if p.fw.running.isSome then 1 else 0),
    (fMGT_BOOT_SOURCE, flag01 p.fw.bootRam), (fMGT_BOOT_SVN, (p.fw.running.map Image.svn).getD 0), (fMGT_BOOT_MIN_SVN, p.fw.minSvn)]
  else if o = 4 then BitVec.ofNat 32 ((p.fw.running.map Image.version).getD 0)
  else if o = 8 then BitVec.ofNat 32 p.board.serial
  else if o = 0xC then BitVec.ofNat 32 (p.board.serial / 2 ^ 32)
  else if o = 0x14 then putFlds v [(fMGT_NET_STATUS_LINK, flag01 p.mgt.linkUp),
    sat fMGT_NET_STATUS_UNACKED (max (p.fw.sentTo 0) (p.fw.sentTo 1))]
  else if o = 0x18 then putFlds v [(fMGT_I3C_STATUS_DA_VALID, flag01 p.mgt.i3cAddr.isSome), (fMGT_I3C_STATUS_DYN_ADDR, p.mgt.i3cAddr.getD 0)]
  else if o = 0x60 then putFlds v [(fMGT_STORE_STATUS_AREA, flag01 p.fw.activeArea), (fMGT_STORE_STATUS_COMPACTING, flag01 p.fw.compacting),
    (fMGT_STORE_STATUS_FILL, p.areaNow.bytes * 100 / 0x800000), sat fMGT_STORE_STATUS_PENDING p.fw.jbuf.length]
  else if o = 0x64 then BitVec.ofNat 32 p.areaNow.gen
  else v

/-- Four bytes of a list, as a word; bytes beyond it read 0. -/
def wordOf (l : List Byte) (o : Nat) : Word := BitVec.ofNat 32 (ofBytes ((l.drop o).take 4))

/-- R27, R466, R470: a word of the Milnik window; every word reads 0 where Milnik does not answer. -/
def Milnik.reg (m : Milnik) (o : Nat) : Word :=
  if !m.powered then 0#32
  else if o = 0 then BitVec.ofNat 32 m.identWord
  else if o = 4 then BitVec.ofNat 32 m.statusWord
  else if o = 8 then BitVec.ofNat 32 m.seq
  else if o = 0xC then BitVec.ofNat 32 (m.seq / 2 ^ 32)
  else if o = 0x10 then BitVec.ofNat 32 m.mtime
  else if o = 0x14 then BitVec.ofNat 32 (m.mtime / 2 ^ 32)
  else if o = 0x18 then BitVec.ofNat 32 m.boots
  else if o = 0x100 || o = 0x340 then BitVec.ofNat 32 m.liveGen
  else if 0x140 ≤ o && o < 0x340 then wordOf m.live (o - 0x140)
  else if 0x1000 ≤ o && o < 0x10000 then wordOf Config.milnikChain (o - 0x1000)
  else if 0x10000 ≤ o && o < 0x20000 then
    match m.ram.find? (fun e => e.1 % 64 = (o - 0x10000) / 0x400) with
    | some e => wordOf e.2 ((o - 0x10000) % 0x400)
    | none => 0#32
  else 0#32

/-- The value of a BAR0 word but for the Milnik window. -/
def Pkg.ownWord (p : Pkg) (a : Nat) : Word :=
  let a := a / 4 * 4
  -- R358: of the CXL component registers the HDM decoders are here; the others are the standard's
  if 0xF0000 ≤ a && a < 0x100000 then (p.hdmWord a).getD (Config.freeWord 1 a)
  else
    match locOf a with
    | none => 0#32
    | some l =>
      let v := match wordSpec a with
        | some w => p.rd a &&& ~~~(BitVec.ofNat 32 w.wo)
        | none => 0#32
      match l.blk with
      | .hs => p.liveHs l.off v
      | .ring => p.liveRing l.off v
      | .fab => p.liveFab l.off v
      | .ftc => p.liveFtc l.off v
      | .mgt => p.liveMgt l.off v
      | .mtr => 0#32
      | .obs =>
        if 0x10000 ≤ l.off && l.off < 0x12000 then
          let o := l.off - 0x10000
          halfOf o (p.setCounter (o / 0x400) (o % 0x400 / 0x100) (o % 0x100 / 8))
        else if 0x40000 ≤ l.off && l.off < 0x80000 then wordOf p.fw.lastSample (l.off - 0x40000)
        else v
      | .cd => if p.present l.die then p.liveCd l.die l.off v else 0#32
      | .core =>
        if !p.present l.die then 0#32
        else if 0x800 ≤ l.off && l.off < 0x900 then halfOf l.off ((p.core (coreKey l.die l.unit)).counter p.ftc.now ((l.off - 0x800) / 8))
        else p.liveCore (coreKey l.die l.unit) l.off v
      | .kerf => if p.present l.die then p.liveKerf (coreKey l.die l.unit) l.off v else 0#32
      | .mem => if p.present l.die then p.liveMem l.die l.unit l.off v else 0#32

/-- The value of a BAR0 word, without what a read latches. -/
def Pkg.word (p : Pkg) (m : Milnik) (a : Nat) : Word :=
  match locOf (a / 4 * 4) with
  | some l => if l.blk = .mtr then m.reg l.off else p.ownWord a
  | none => p.ownWord a

/-- R323, R423: 64-bit registers whose low word latches their high word. -/
def latches (a : Nat) : Bool :=
  a / 8 * 8 = 0x300000 || a / 8 * 8 = 0x2000010 || (0x1010000 ≤ a && a < 0x1012000) ||
    (match locOf a with | some l => l.blk = .core && 0x800 ≤ l.off && l.off < 0x900 | none => false)

def Origin.code : Origin → Nat
  | .bar0 => 0 | .udp => 1 | .mctp => 2
/-- The latch of a port for a register. -/
def latchKey (o : Origin) (a : Nat) : Nat := 2 ^ 32 * o.code + a / 8 * 8

/-- A 32-bit read of BAR0 from a port of origin (R10, R323): a low word latches the high word, which the next read of the
high word from that port takes. -/
def Pkg.readReg (p : Pkg) (m : Milnik) (o : Origin) (a : Nat) : Pkg × Word :=
  if !latches a then (p, p.word m a)
  else if a / 4 % 2 = 0 then ({ p with latch := p.latch.set (latchKey o a) (p.word m (a / 8 * 8 + 4)) }, p.word m a)
  else
    match p.latch.find (latchKey o a) with
    | some v => ({ p with latch := p.latch.del (latchKey o a) }, v)
    | none => (p, p.word m a)

/-- FTC_NOW_READ: a read of a latching register's word, as BAR0 or the management port makes it; a read over BAR0 is
answered with data. -/
def Pkg.latchRead (p : Pkg) (m : Milnik) (o : Origin) (a : Nat) : Pkg :=
  let a := a / 4 * 4
  if !latches a || (o = .bar0 && !(p.linkUp && p.port.memSpace)) then p
  else
    let x := p.readReg m o a
    x.1.emit (.hostData a (toBytes 4 x.2.toNat) false)

/-! Commits (R11, R40, R42). -/

/-- R424: ticks between samples. -/
def sampleStep (interval : Nat) : Nat := 1000 * max 10 interval
/-- R427: the sampling tick at which the last commit takes effect, where that is still to come. -/
def Pkg.oldTick (p : Pkg) : Option Nat :=
  p.fw.smpOld.bind (fun o =>
    let t := (o.2 / sampleStep o.1 + 1) * sampleStep o.1
    if p.ftc.now < t then some t else none)
/-- A commit of OBS_SMP_CTRL, which was `old`: the fields before act up to the next sampling tick. -/
def Pkg.oldSampling (p : Pkg) (old : Word) : Pkg :=
  if p.oldTick.isSome then p
  else
    let f (f : Fld) : Nat := bits old f.lo f.w
    let on := f fOBS_SMP_CTRL_INTERVAL ≠ 0 && f fOBS_SMP_CTRL_SIZE_LOG2 ≠ 0
    { p with fw := { p.fw with smpOld := if on then some (f fOBS_SMP_CTRL_INTERVAL, p.ftc.now) else none } }

/-- What a commit of a word does beyond its new value. -/
def Pkg.committed (p : Pkg) (a : Nat) (old : Word) : Pkg :=
  match locOf a with
  | none => p
  | some l =>
    let new := p.rd a
    match l.blk with
    | .fab => if 0x10 ≤ l.off && l.off < 0x20 then p.portCtrl ((l.off - 0x10) / 4) else p
    | .ftc => if l.off = 8 && bits old 0 1 ≠ bits new 0 1 then p.gmChanged else p
    | .obs =>
      -- R427, R430: a new BASE, SIZE_LOG2 or SP empties the ring
      let ctl := old &&& 0xDF000000#32 ≠ new &&& 0xDF000000#32
      let p := if l.off = 8 then p.oldSampling old else p
      if (l.off = 8 && ctl) || ((l.off = 0 || l.off = 4) && old ≠ new) then
        p.emptyRing (rOBS_SMP_HEAD.at 0 0 0) (rOBS_SMP_TAIL.at 0 0 0)
      else if (l.off = 0x108 && ctl) || ((l.off = 0x100 || l.off = 0x104) && old ≠ new) then
        p.emptyRing (rOBS_TRC_HEAD.at 0 0 0) (rOBS_TRC_TAIL.at 0 0 0)
      else p
    | _ => p.committedCd l old new

/-- One shadow word takes effect. -/
def Pkg.commitWord (p : Pkg) (e : Nat × Word) : Pkg :=
  match wordSpec e.1 with
  | none => p
  | some w => (p.takeShadow e w).committed e.1 (p.rd e.1)

/-- R317: a commit of the switch registers makes a switch pending, in place of one that was; one whose AT has passed takes
place at the commit. -/
def Pkg.commitSwitch (p : Pkg) : Pkg :=
  let next := p.fld (rFAB_RT_SWITCH.at 0 0 0) fFAB_RT_SWITCH_NEXT
  let p := (p.setFld aRtStatus fFAB_RT_STATUS_PENDING next).setFld aRtStatus fFAB_RT_STATUS_PEND 1
  if p.rd64 (rFAB_RT_AT.at 0 0 0) < p.ftc.now then (p.setFld aRtStatus fFAB_RT_STATUS_LATE 1).switchBank else p

/-- COMMIT of block `k`: every shadow copy of the block takes effect together, and the commit is counted. The clamp register of a die
that is absent has no block, and a write of its COMMIT changes nothing (log 42). -/
def Pkg.commit (p : Pkg) (k : Nat) : Pkg :=
  if 16 ≤ k || k = 6 || k = 7 || (8 ≤ k && !p.present (k - 8)) then p
  else
    let mine := p.shadow.filter (fun e => clampAt e.1 = k)
    let p := { p with shadow := p.shadow.filter (fun e => !(clampAt e.1 = k)) }
    let p := mine.foldl Pkg.commitWord p
    let p := if mine.any (fun e => e.1 = rFAB_RT_SWITCH.at 0 0 0 || e.1 = rFAB_RT_AT.at 0 0 0 || e.1 = rFAB_RT_AT.at 0 0 0 + 4)
      then p.commitSwitch else p
    p.bumpWrap (rHS_CLAMP.at 0 0 k) fHS_CLAMP_COUNT

/-! Writes. -/

/-- R318: the route bank of an entry word, where the fabric block's offset names one. -/
def routeBank (o : Nat) : Option (Nat × Nat) := if 0x10000 ≤ o && o < 0x20000 then some ((o - 0x10000) / 0x4000, (o - 0x10000) % 0x4000) else none

def Pkg.routeWrite (p : Pkg) (b i : Nat) (v : Word) : Pkg :=
  if b = p.bank || (p.fld aRtStatus fFAB_RT_STATUS_PEND = 1 && b = p.fld aRtStatus fFAB_RT_STATUS_PENDING) then
    p.setFld aRtStatus fFAB_RT_STATUS_WR_DISCARD 1
  else { p with fab := { p.fab with routes := (List.range 4).foldl (fun t k => t.set (16384 * b + i + k) (bits v (8 * k) 8)) p.fab.routes } }

/-- R358, R380: the MSI-X table: a vector whose mask is cleared sends its pending message. -/
def Pkg.msixWrite (p : Pkg) (a : Nat) (v : Word) : Pkg :=
  let p := p.wr a v
  let i := (a - 0x180000) / 16
  if a % 16 = 12 && bitAt v 0 = false && p.port.msixPend.contains i then
    ({ p with port := { p.port with msixPend := p.port.msixPend.filter (fun x => !(x = i)) } }).raiseVector i
  else p

/-- RING_CTX_LOAD (R368). -/
def Pkg.ctxLoad (p : Pkg) (v : Nat) : Pkg :=
  let kind := v / 2 ^ 31 % 2
  let op := v / 2 ^ 29 % 4
  let i := if kind = 0 then v % 2 ^ 15 else v % 2 ^ 12
  if op = 0 then (if kind = 0 then p.loadRing i else p.loadCq i)
  else if op = 1 then (if kind = 0 then p.stopRing i else p.stopCq i)
  else p.named kind op i false

/-- HOST_RESET (R408, R386): 0xA5 written to GO. A request that is merged into a reset which is due has its event, too. -/
def Pkg.hostReset (p : Pkg) : Pkg :=
  if p.fw.inReset || p.fw.resetReq ≠ none then p.event { Event.blank 0x77 with action := 8 } else p.wantReset 0x77

/-- R327, R390: a write of an entry puts it into state 2: its job's commands end; no ABORT says whose (log 8). -/
def Pkg.jobWritten (p : Pkg) (k : Nat) (old : Word) : Pkg :=
  let job := p.fld (aJob k) fFAB_JOB_JOB
  if job ≠ 0 && p.fld (aJob k) fFAB_JOB_STATE = 2 && (bits old fFAB_JOB_STATE.lo fFAB_JOB_STATE.w ≠ 2 || bits old fFAB_JOB_JOB.lo fFAB_JOB_JOB.w ≠ job) then
    let x := ({ p with fab := { p.fab with origins := p.fab.origins.del job } }).fresh
    x.1.abortJob job (Config.freeNat x.2 % 2 ^ 14)
  else p

/-- What a write does beyond the stored bits: WO triggers, and fields that live outside the register file. -/
def Pkg.written (p : Pkg) (l : Loc) (a : Nat) (old v : Word) : Pkg :=
  match l.blk with
  | .hs =>
    if l.off = 0x538 then (if v.toNat % 256 = 0xA5 then p.hostReset else p)
    else if 0x200 ≤ l.off && l.off < 0x240 then (if bitAt v 0 then p.commit ((l.off - 0x200) / 4) else p)
    else p
  | .ring => if l.off = 0x10 then p.ctxLoad v.toNat else p
  | .fab =>
    if l.off = 0x240 then (if bitAt v 4 then p.fabAbort (v.toNat % 16) else p)
    else if 0x10 ≤ l.off && l.off < 0x20 then (if bitAt v 8 then p.retrain ((l.off - 0x10) / 4) else p)
    else if 0x200 ≤ l.off && l.off < 0x240 then p.jobWritten ((l.off - 0x200) / 4) old
    else p
  | .cd =>
    if l.off = 0x9BFC then (if bitAt v 31 then p.updDie l.die (fun d => { d with pegSat := none }) else p)
    else if 0x9C00 ≤ l.off && l.off < 0xA000 then p.setDpeg l.die ((l.off - 0x9C00) / 4) v.toNat
    else if l.off = 0x9308 then (if bitAt v 31 then p.setFld a fCD_COLL_FAULT_MORE 0 else p)
    else p
  | .mem => if l.off = 0xC && bitAt v 31 then p.setFld a fMEM_ERR_INFO_MORE 0 else p
  | .core =>
    let key := coreKey l.die l.unit
    if l.off = 0x10 then (if bitAt v 31 then p.onKey key (fun c => { c with pegSat := none }) else p)
    else if 0x100 ≤ l.off && l.off < 0x200 then p.onKey key (fun c => c.setPeg ((l.off - 0x100) / 4) v.toNat)
    else p
  | _ => p

/-- A 32-bit write that the arbiter applies: each bit by its access type (R10, R34). -/
def Pkg.applyWord (p : Pkg) (a : Nat) (v : Word) : Pkg :=
  match locOf a with
  | none => p
  | some l =>
    if (l.blk = .cd || l.blk = .core || l.blk = .kerf || l.blk = .mem) && !p.present l.die then p
    else
      match (if l.blk = .fab then routeBank l.off else none) with
      | some (b, i) => p.routeWrite b i v
      | none =>
        if 0x180000 ≤ a && a < 0x188000 then p.msixWrite a v
        else
          match wordSpec a with
          | none => p
          | some w =>
            let old := p.rd a
            let rw := BitVec.ofNat 32 w.rw
            let new := ((old &&& ~~~rw) ||| (v &&& rw)) &&& ~~~(v &&& BitVec.ofNat 32 w.w1c)
            let p := if w.rw = 0 && w.w1c = 0 then p else p.wr a new
            let p := if w.cl = 0 then p else { p with shadow := p.shadow.set a (v &&& BitVec.ofNat 32 w.cl) }
            p.written l a old v

/-- R453: whether a field of the word resets from the configuration store. -/
def persists (a : Nat) : Bool :=
  (match wordSpec a with | some w => w.store ≠ 0 | none => false) ||
    (match locOf a with | some l => l.blk = .fab && (routeBank l.off).isSome | none => false)

/-- A write of COMMIT. -/
def isCommit (a v : Nat) : Bool := 0x200 ≤ a && a < 0x240 && v % 2 = 1

/-- R440: a response of the management port: header and body. -/
def Pkg.respond (p : Pkg) (c : Chan) (ty status tag : Nat) (body : List Byte) : Pkg :=
  p.emit (.response c (toBytes 1 ty ++ toBytes 1 1 ++ toBytes 2 status ++ toBytes 4 tag ++ toBytes 4 body.length ++ toBytes 4 0 ++ body))
def Origin.chan : Origin → Chan
  | .bar0 => .doe | .udp => .udp | .mctp => .mctp

/-- A write takes effect: of an HDM decoder (R356), or of one or two registers (R32). -/
def Pkg.takeWrite (p : Pkg) (off : Nat) (wide : Bool) (v : Nat) : Pkg :=
  if (hdmSlot off).isSome then p.hdmPuts off wide v
  else
    let p := p.applyWord off (BitVec.ofNat 32 v)
    if wide then p.applyWord (off + 4) (BitVec.ofNat 32 (v / 2 ^ 32)) else p

/-- R32, R41, R453, R454: a write reaches the register arbiter: it is held while the journal's buffer is full; otherwise it is
journaled and applied, and a REG_WRITE that it ends is answered (R442). -/
def Pkg.arbiter (p : Pkg) (w : HeldWrite) : Pkg :=
  if 65536 ≤ p.fw.jbuf.length || !p.fw.jwait.isEmpty || !p.fw.jheld.isEmpty then { p with fw := { p.fw with jheld := p.fw.jheld ++ [w] } }
  else
    let wide := w.size = 8
    let p := p.jput (if isCommit w.off w.value || (wide && isCommit (w.off + 4) (w.value / 2 ^ 32)) then 2 else 1) w.origin.code w.size
      (persists w.off || (wide && persists (w.off + 4))) w.off (w.value % (if wide then 2 ^ 64 else 2 ^ 32))
    let p := p.takeWrite w.off wide w.value
    match w.reply with
    | some tag => p.respond w.origin.chan 2 0 tag []
    | none => p

/-- The accesses that REGISTER_WRITE, COMMIT, HOST_RESET and the other register commands make: one aligned write of 4 or 8
bytes. The host reaches BAR0 while the link is up and memory space is enabled (log 13); the management port while its
requests are served (R442). -/
def Pkg.served (p : Pkg) : Bool := p.fw.running.isSome && !p.fw.waiting
def Pkg.mayReach (p : Pkg) : Origin → Bool
  | .bar0 => p.linkUp && p.port.memSpace
  | .udp => p.served && p.mgt.linkUp && p.fld (rMGT_NET_CTRL.at 0 0 0) fMGT_NET_CTRL_EN = 1
  | .mctp => p.served && p.mgt.i3cAddr.isSome
def Pkg.access (p : Pkg) (off size value : Nat) (o : Origin) : Pkg :=
  let size := if size = 8 then 8 else 4
  if p.mayReach o then p.arbiter ⟨off / size * size, size, value % 2 ^ (8 * size), o, none⟩ else p

/-- R356, R360, R453: the host writes a field of decoder `k`: as every write into BAR0, through the arbiter. -/
def Pkg.hdmWrite (p : Pkg) (k : Nat) (f : HdmField) (v : Nat) : Pkg :=
  if 4 ≤ k then p
  else match f with
    | .commit => p.access (hdmOff k .commit) 4 (2 ^ 9 * (v % 2)) .bar0
    | .skip => (p.access (hdmOff k .skip) 4 v .bar0).access (hdmOff k .skip + 4) 4 (v / 2 ^ 32) .bar0
    | f => p.access (hdmOff k f) 8 v .bar0

end Sys2Proof.Machine
end

