-- ==== Sys2Proof/Machine/Kat.lean ====
section
/-! DEFINITION. Known-answer tests (R392 to R396), repair of column groups (R96, R97) and rebinding (R16 to R18, R397,
R398). -/
namespace Sys2Proof.Machine

def Pkg.updFw (p : Pkg) (f : Fw → Fw) : Pkg := { p with fw := f p.fw }

/-! Rebinding. -/

/-- R398: what of a core's state moves to the spare. -/
def Core.moveTo (src dst : Core) : Core :=
  { dst with bench := src.bench, benchUE := src.benchUE, stat := src.stat, statUE := src.statUE
             pegs := src.pegs, pegSat := src.pegSat, sk := src.sk, fretA := src.fretA, fretB := src.fretB
             bank0 := src.bank0, bank1 := src.bank1, ckpt := src.ckpt, startq := src.startq, icache := [], dcache := [] }

/-- R16, R398: logical core `lc` moves to the spare `s`, with the state `src`; REBIND (R397) names the core left. A gated spare is woken
where work waits for it; one without work stays gated until work comes (log 42). A rotation test of the spare is broken off (log 29). -/
def Pkg.moveCore (p : Pkg) (n lc s : Nat) (src : Core) (old : Option Nat) : Pkg :=
  let p := match old with
    | some c => p.onKey (coreKey n c) (fun x => { x with startq := [] })
    | none => p
  let p := p.setCore (coreKey n s) (src.moveTo (p.core (coreKey n s)))
  let p := (p.bindTo n lc (some s)).updFw (fun f => { f with boundAt := f.boundAt.set (coreKey n s) p.ftc.now, tests := f.tests.del (coreKey n s) })
  let p := if (p.core (coreKey n s)).startq.isEmpty then p else p.wake (coreKey n s)
  p.event { Event.blank 0x91 with die := n, lcore := lc, pcore := old.getD 255, detail := s }

/-- R17, R18: no spare is left: the logical core stays unbound, its queued programs trap with cause UNBOUND (R18), each with its event (R386),
and the package is drained and flagged. -/
def Pkg.unbind (p : Pkg) (n lc c reason : Nat) : Pkg :=
  let q := (p.core (coreKey n c)).startq
  let p := (p.onKey (coreKey n c) (fun x => { x with startq := [] })).bindTo n lc none
  let p := q.foldl (fun p e =>
    let p := (p.failCmd e.cmd 1 (2 ^ 29 * n + 2 ^ 23 * lc + 4 * 2 ^ 16) 0 (64 * n + lc)).stopCores e.cmd none
    let p := p.policyLater fHS_FAULT_POLICY_TRAP e.cmd { Event.blank 0x21 with
      die := n, lcore := lc, job := p.jobOf e.cmd, tag := e.tag, layer := e.ids.layer, op := e.ids.op, detail := 4 }
    (p.updCmd e.cmd (fun k => { k with left := k.left.filter (fun x => !(x = n * 64 + lc)) })).endIfDone e.cmd) p
  p.drainFlag reason

/-- A fenced core's logical core gets the next spare, or none. -/
def Pkg.replace (p : Pkg) (n lc c reason : Nat) (src : Core) : Pkg :=
  match p.nextSpare n with
  | some s => p.moveCore n lc s src (some c)
  | none => p.unbind n lc c reason

/-- R399: the command that ran on the core when a CORE_UE fenced it has ended. -/
def Pkg.ueOver (p : Pkg) (key : Nat) : Bool :=
  match p.fw.rebindAfter.find key with
  | some k => (match p.cmds.find k with | some c => c.fin ≠ none | none => true)
  | none => true

/-- Logical cores of a die whose rebinding is due: bound to a fenced core that runs no program, or unbound while a spare is
there (R18, R399). -/
def Pkg.dueRebind (p : Pkg) (n lc : Nat) : Bool :=
  let d := p.die n
  match d.bind.find lc with
  | some c =>
    let q := p.core (coreKey n c)
    d.fenced.contains c && !q.seq.running && q.upd.isNone && p.ueOver (coreKey n c)
  | none => (p.nextSpare n).isSome

/-- REBIND (R397): the waiting rebinding of the lowest logical core of the die. It is one step here: no increment and no
access arrives within it. -/
def Pkg.rebind (p : Pkg) (n lc : Nat) : Pkg :=
  if !p.present n || 64 ≤ lc || !p.dueRebind n lc || (List.range lc).any (fun x => p.dueRebind n x) then p
  else
    match (p.die n).bind.find lc with
    | some c =>
      let p := p.updFw (fun f => { f with tests := f.tests.del (coreKey n c), rebindAfter := f.rebindAfter.del (coreKey n c) })
      p.replace n lc c 0x11 (p.core (coreKey n c))
    | none =>
      match p.nextSpare n with
      | some s => p.moveCore n lc s (p.core (coreKey n s)) none
      | none => p

/-! Column groups. -/

/-- R96, steps 2 to 4: the group is bypassed and the full test runs. -/
def Pkg.bypass (p : Pkg) (n c g : Nat) : Pkg :=
  let a := rCORE_KERF_FAIL.at n c 0
  let p := p.fwSet a fCORE_KERF_FAIL_GROUPS (p.fld a fCORE_KERF_FAIL_GROUPS ||| 2 ^ (g % 17))
  let r := rCORE_KERF_RT.at n c 0
  let p := p.fwCommit n r fCORE_KERF_RT_MASK (p.fld r fCORE_KERF_RT_MASK ||| 2 ^ (g % 17))
  (p.takeKerf (coreKey n c)).updFw (fun f => { f with fullTests := f.fullTests.set (coreKey n c) ⟨p.ftc.now, true⟩ })

/-- KERF_COMMIT_APPLY (R97): the committed map of a bound core takes effect once its array queue is empty and no wavefront
is in flight; a core left short is fenced. -/
def Pkg.kerfApply (p : Pkg) (n c : Nat) : Pkg :=
  let key := coreKey n c
  let q := p.core key
  let rt := p.fld (rCORE_KERF_RT.at n c 0) fCORE_KERF_RT_MASK
  if !p.present n || 72 ≤ c || q.kerf = rt || !q.queue.isEmpty || q.spec.isSome then p
  else
    let p := (p.onKey key Core.settle).takeKerf key
    if p.short key rt && ((p.die n).logical c).isSome then p.fence n c else p

/-! Tests. -/

def ticksPerSecond : Nat := 1000000000

/-- ROTATION_TEST (R392, R393): a core that has fallen due is tested; a gated one is woken first. -/
def Pkg.rotationTest (p : Pkg) (n c : Nat) : Pkg :=
  let key := coreKey n c
  match p.dueAt n c with
  | none => p
  | some t =>
    if !p.testTurn n c then p
    else
      let p := p.until t
      if (p.core key).pwr ≠ .awake then p.wake key
      else
        (p.setFld (rCD_KAT_STATUS.at n 0 0) fCD_KAT_STATUS_LAST c).updFw (fun f =>
          { f with tests := f.tests.set key ⟨false, p.ftc.now, p.core key⟩, due := f.due.set key ⟨p.ftc.now, 1, 1⟩ })

/-- R393: the saved state, restored bit for bit: fretboards, banks, and bench offsets 0x2C_0000 to 0x2F_FFFF; the instruction
cache is invalidated. -/
def Core.restored (now saved : Core) : Core :=
  let mine := now.bench.cells.delRange 0x2C0000 0x300000
  let back := saved.bench.cells.filter (fun e => 0x2C0000 ≤ e.1 && e.1 < 0x300000)
  { now with bench := { now.bench with cells := back.foldl (fun t e => t.set e.1 e.2) mine }
             benchUE := now.benchUE.filter (fun w => w * 8 < 0x2C0000) ++ saved.benchUE.filter (fun w => 0x2C0000 ≤ w * 8)
             fretA := saved.fretA, fretB := saved.fretB, bank0 := saved.bank0, bank1 := saved.bank1, icache := [] }

/-- R392: a round is complete once every functional core of the die has been tested. -/
def Pkg.noteTested (p : Pkg) (n c : Nat) : Pkg :=
  let l := c :: p.fw.round.getD n []
  let all := (p.die n).functional.all l.contains
  let p := p.updFw (fun f => { f with round := f.round.set n (if all then [] else l) })
  if all then p.bumpWrap (rCD_KAT_STATUS.at n 0 0) fCD_KAT_STATUS_ROUNDS else p

/-- R395: KAT_FAIL of a bound core. -/
def Pkg.katFail (p : Pkg) (n lc c action : Nat) (windowFrom : Nat) : Pkg :=
  p.event { Event.blank 0x12 with die := n, lcore := lc, pcore := c, action := action, windowFrom := windowFrom }

/-- ROTATION_TEST_END (R393, R395, R396): the test passed, or it failed, with the column group it names, if any. -/
def Pkg.rotationTestEnd (p : Pkg) (n c : Nat) (pass : Bool) (group : Option Nat) : Pkg :=
  let key := coreKey n c
  match p.fw.tests.find key with
  | none => p
  | some t =>
    let p := (p.updFw (fun f => { f with tests := f.tests.del key })).noteTested n c
    let whole := (p.core key).restored t.saved
    if pass then (p.setCore key whole).updFw (fun f => { f with passed := f.passed.set key p.ftc.now })
    else
      let p := p.bumpSat (rCD_KAT_FAILS.at n 0 0) fCD_KAT_FAILS_COUNT
      match (p.die n).logical c with
      | none =>
        let p := (p.fence n c).event { Event.blank 0x13 with die := n, pcore := c, action := 1 }
        match group with | some g => p.bypass n c g | none => p
      | some lc =>
        let wf := max (p.fw.passed.getD key 0) (p.fw.boundAt.getD key 0)
        let spare := ((p.fence n c).nextSpare n).isSome
        let p := (p.fence n c).replace n lc c 0x12 whole
        let p := p.katFail n lc c (if spare then 3 else 49) wf
        match group with
        | some g => p.bypass n c g
        | none => p.updFw (fun f => { f with fullTests := f.fullTests.set key ⟨p.ftc.now, false⟩ })

/-- FULL_TEST_END (R96, R395, R396): the full test of a fenced core ends. -/
def Pkg.fullTestEnd (p : Pkg) (n c : Nat) (pass : Bool) (group : Option Nat) : Pkg :=
  let key := coreKey n c
  match p.fw.fullTests.find key with
  | none => p
  | some ft =>
    let p := p.updFw (fun f => { f with fullTests := f.fullTests.del key })
    if pass then
      if !ft.bypassed then p.unreproduced n
      else if p.short key (p.core key).kerf then p
      else (p.unfence n c).updFw (fun f => { f with passed := f.passed.set key p.ftc.now,
                                                    due := f.due.set key ⟨ft.since, 1, 1⟩ })
    else
      match group with
      | some g => if ft.bypassed then p else p.bypass n c g
      | none => p

end Sys2Proof.Machine
end

