-- ==== Sys2Proof/Machine/Store.lean ====
section
/-! DEFINITION. The configuration store (R453 to R457): journal entries on their way to flash, the two areas, compaction, and
the restore at power-up and package reset. -/
namespace Sys2Proof.Machine

/-! Replay (R456). -/

/-- What a replay knows: the words as written, their shadow copies, the pending route bank (R318), firmware's items. -/
structure Replay where
  regs : Tbl Word
  shadow : Tbl Word
  pend : Option Nat
  items : Tbl Nat
  routes : Tbl Nat           -- bank × 16,384 + coordinate → entry
  deriving DecidableEq, Repr

def Replay.rd (r : Replay) (a : Nat) : Word := r.regs.getD a (resetWord a)
def Replay.cur (r : Replay) : Nat := bits (r.rd aRtStatus) fFAB_RT_STATUS_CUR.lo fFAB_RT_STATUS_CUR.w

/-- One journaled word written. -/
def Replay.write (r : Replay) (a : Nat) (v : Word) : Replay :=
  match (match locOf a with | some l => if l.blk = .fab then routeBank l.off else none | none => none) with
  | some (b, i) =>
    if b = r.cur || some b = r.pend then r
    else { r with routes := (List.range 4).foldl (fun t k => t.set (16384 * b + i + k) (bits v (8 * k) 8)) r.routes }
  | none =>
    match wordSpec a with
    | none => r
    | some w =>
      let rw := BitVec.ofNat 32 w.rw
      let new := ((r.rd a &&& ~~~rw) ||| (v &&& rw)) &&& ~~~(v &&& BitVec.ofNat 32 w.w1c)
      let r := if w.rw = 0 && w.w1c = 0 then r else { r with regs := r.regs.set a new }
      if w.cl = 0 then r else { r with shadow := r.shadow.set a (v &&& BitVec.ofNat 32 w.cl) }

/-- One journaled commit of block `k`. -/
def Replay.commit (r : Replay) (k : Nat) : Replay :=
  let mine := r.shadow.filter (fun e => clampAt e.1 = k)
  let r := { r with shadow := r.shadow.filter (fun e => !(clampAt e.1 = k)) }
  let r := mine.foldl (fun r e =>
    let cl := BitVec.ofNat 32 ((wordSpec e.1).map WordSpec.cl |>.getD 0)
    { r with regs := r.regs.set e.1 ((r.rd e.1 &&& ~~~cl) ||| (e.2 &&& cl)) }) r
  if mine.any (fun e => e.1 = rFAB_RT_SWITCH.at 0 0 0 || e.1 = rFAB_RT_AT.at 0 0 0 || e.1 = rFAB_RT_AT.at 0 0 0 + 4) then
    { r with pend := some (bits (r.rd (rFAB_RT_SWITCH.at 0 0 0)) 0 2) }
  else r

/-- R455: what a base keeps as firmware's items, beside those of its own (the numbers are the model's, log 14): a shadow copy that a later
commit may still make effective (R456), FAB_RT_SWITCH, the bank of a pending switch; and the item that a restore journals. -/
def itemShadow (a : Nat) : Nat := 0xE0000000 + a
def itemNext : Nat := 0xD0000000
def itemPend : Nat := 0xF3000000
def itemBoot : Nat := 0xF4000000

/-- R11, R318, R456: at a reset shadow copies and the pending switch are gone, and a word keeps what the store holds of it. -/
def Replay.boot (r : Replay) : Replay :=
  { r with shadow := [], pend := none
           regs := r.regs.filterMap (fun e => match wordSpec e.1 with
             | some w => if w.store = 0 then none
                 else some (e.1, (resetWord e.1 &&& ~~~(BitVec.ofNat 32 w.store)) ||| (e.2 &&& BitVec.ofNat 32 w.store))
             | none => none) }

/-- One entry. -/
def Replay.entry (r : Replay) (e : JEntry) : Replay :=
  if e.kind = 1 then
    let r := r.write e.off (BitVec.ofNat 32 e.value)
    if e.size = 8 then r.write (e.off + 4) (BitVec.ofNat 32 (e.value / 2 ^ 32)) else r
  else if e.kind = 2 then
    let r := if e.value % 2 = 1 then r.commit ((e.off - 0x200) / 4) else r
    if e.size = 8 && e.value / 2 ^ 32 % 2 = 1 then r.commit ((e.off - 0x200) / 4 + 1) else r
  else if e.kind = 3 then
    if e.off = itemBoot then r.boot
    else if 0xF0000000 ≤ e.off then { r with items := r.items.set e.off e.value }
    else { r with regs := r.regs.set e.off (BitVec.ofNat 32 e.value), shadow := r.shadow.del e.off
                  pend := if e.off = aRtStatus then none else r.pend }
  else r

/-- R455: an item of a base. -/
structure BaseItem where
  kind : Nat
  size : Nat
  off : Nat
  value : Nat
  deriving DecidableEq, Repr
def BaseItem.bytes (i : BaseItem) : List Byte := toBytes 1 i.kind ++ toBytes 1 i.size ++ toBytes 2 0 ++ toBytes 4 i.off ++ toBytes 8 i.value
def BaseItem.parse (b : List Byte) : BaseItem :=
  let f (o n : Nat) : Nat := ofBytes ((b.drop o).take n)
  ⟨f 0 1, f 1 1, f 4 4, f 8 8⟩

def Replay.item (r : Replay) (e : BaseItem) : Replay :=
  if e.kind = 3 then
    if e.off = itemPend then { r with pend := some e.value }
    else if e.off = itemNext then { r with regs := r.regs.set (rFAB_RT_SWITCH.at 0 0 0) (BitVec.ofNat 32 e.value) }
    else if itemShadow 0 ≤ e.off && e.off < itemShadow 0x10000000 then
      { r with shadow := r.shadow.set (e.off - itemShadow 0) (BitVec.ofNat 32 e.value) }
    else { r with items := r.items.set e.off e.value }
  else
    match (match locOf e.off with | some l => if l.blk = .fab then routeBank l.off else none | none => none) with
    | some (b, i) => { r with routes := (List.range 4).foldl (fun t k => t.set (16384 * b + i + k) (e.value / 2 ^ (8 * k) % 256)) r.routes }
    | none => { r with regs := r.regs.set e.off (BitVec.ofNat 32 e.value) }

def Replay.run (base : List (List Byte)) (entries : List JEntry) : Replay :=
  entries.foldl Replay.entry ((base.map BaseItem.parse).foldl Replay.item ⟨[], [], none, [], []⟩)

/-! Flash. -/

def areaBytes : Nat := 0x800000
def Pkg.setArea (p : Pkg) (a : Area) : Pkg :=
  p.updFw (fun f => if f.activeArea then { f with area1 := a } else { f with area0 := a })

/-- R454: held writes reach the arbiter again, in order. -/
def Pkg.releaseHeld (p : Pkg) : Pkg :=
  let ws := p.fw.jheld
  ws.foldl Pkg.arbiter (p.updFw (fun f => { f with jheld := [] }))

/-- R454: the oldest buffered entry reaches flash; while a compaction runs, entries wait (R455). -/
def Pkg.flushOne (p : Pkg) : Pkg :=
  match p.fw.jbuf with
  | [] => p
  | e :: es =>
    let a := p.areaNow
    if p.fw.compacting || areaBytes < a.bytes + 32 then p
    else (p.setArea { a with entries := a.entries ++ [e.bytes] }).updFw (fun f => { f with jbuf := es ++ f.jwait.take 1, jwait := f.jwait.drop 1 })

/-- JOURNAL_FLUSH: `n` buffered entries reach flash in SEQ order, and held writes take the room. -/
def Pkg.journalFlush (p : Pkg) (n : Nat) : Pkg := (iterate Pkg.flushOne n p).releaseHeld

/-- R455: the items of a base: every persistent field that the store holds, KIND 1 or 3. -/
def Replay.base (r : Replay) : List BaseItem :=
  let routeWords := (r.routes.map (fun e => e.1 / 4 * 4)).eraseDups
  (r.regs.filter (fun e => persists e.1)).map (fun e => ⟨1, 4, e.1, e.2.toNat⟩)
    ++ routeWords.map (fun i => ⟨1, 4, 0x210000 + i / 16384 * 0x4000 + i % 16384,
        ofBytes ((List.range 4).map (fun k => BitVec.ofNat 8 (r.routes.getD (i + k) 0)))⟩)
    ++ r.items.map (fun e => ⟨3, 8, e.1, e.2⟩) ++ (match r.pend with | some b => [⟨3, 8, itemPend, b⟩] | none => [])
    ++ (match r.regs.find (rFAB_RT_SWITCH.at 0 0 0) with | some v => [⟨3, 8, itemNext, v.toNat⟩] | none => [])
    ++ r.shadow.map (fun e => ⟨3, 8, itemShadow e.1, e.2.toNat⟩)

/-- R455: the base of the other area: every persistent field as of P, the SEQ of the last entry in flash. -/
def Area.next (a : Area) : Area :=
  let seq := match a.good.getLast? with | some e => e.seq | none => a.seq
  Area.based (a.gen + 1) seq ((Replay.run a.items a.good).base.map BaseItem.bytes)

def Pkg.areaOther (p : Pkg) : Area := if p.fw.activeArea then p.fw.area0 else p.fw.area1
def Pkg.setOther (p : Pkg) (a : Area) : Pkg := p.updFw (fun f => if f.activeArea then { f with area0 := a } else { f with area1 := a })

/-- COMPACTION (R455): its next step. With less than 1 MiB free the base goes into the other area; then the marker commits it, and that area is
the active one; only then the old area is erased. -/
def Pkg.compaction (p : Pkg) : Pkg :=
  let a := p.areaNow
  if !p.fw.compacting then
    if areaBytes < a.bytes + 0x100000 then (p.setOther a.next).updFw (fun f => { f with compacting := true }) else p
  else if p.areaOther.marker.isEmpty then
    (p.setOther (p.areaOther.marked p.ftc.now)).updFw (fun f => { f with activeArea := !f.activeArea })
  else (p.setOther .erased).updFw (fun f => { f with compacting := false })

/-! Restore (R456). -/

/-- R456: the area taken: the higher GEN among those whose base and marker stand. -/
def Fw.chosen (f : Fw) : Bool := f.area1.valid && (!f.area0.valid || f.area0.gen < f.area1.gen)

/-- Firmware's items: bindings, fenced cores, the event SEQ. -/
def Pkg.putItem (p : Pkg) (e : Nat × Nat) : Pkg :=
  if 0xF0000000 ≤ e.1 && e.1 < 0xF0000000 + 512 then
    let n := (e.1 - 0xF0000000) / 64
    let c := (e.1 - 0xF0000000) % 64
    p.updDie n (fun d => { d with bind := if e.2 = 0x7F then d.bind.del c else d.bind.set c e.2 })
  else if 0xF1000000 ≤ e.1 && e.1 < 0xF1000000 + 576 then
    let n := (e.1 - 0xF1000000) / 72
    let c := (e.1 - 0xF1000000) % 72
    p.updDie n (fun d => { d with
      fenced := if e.2 = 1 then (if d.fenced.contains c then d.fenced else c :: d.fenced) else d.fenced.filter (fun x => !(x = c)) })
  else if e.1 = itemEvent then p.updFw (fun f => { f with eventSeq := e.2 })
  else p

/-- Every field that resets from the store takes its value; a bank that the store does not hold has the default routes
(R315). -/
def Pkg.restore (p : Pkg) (r : Replay) : Pkg :=
  let p := r.regs.foldl (fun p e =>
    match wordSpec e.1 with
    | some w => if w.store = 0 then p
        else p.wr e.1 ((p.rd e.1 &&& ~~~(BitVec.ofNat 32 w.store)) ||| (e.2 &&& BitVec.ofNat 32 w.store))
    | none => p) p
  let p := r.items.foldl Pkg.putItem p
  let p : Pkg := { p with fab := { p.fab with routes := r.routes
                                              fill := (p.coord, dimOf (p.fld aDim fFAB_DIM_SX), dimOf (p.fld aDim fFAB_DIM_SY)) } }
  -- R11, R318: a switch that was pending is discarded, with every shadow copy, and the journal says so
  let p := p.fwItem itemBoot 0
  -- the runtime kerf maps are in use (R96)
  { p with cores := (List.range (p.board.dies * 72)).foldl (fun t k =>
      let rt := p.fld (aKerfRt k) fCORE_KERF_RT_MASK
      if rt = 0 then t else t.set k { p.core k with kerf := rt }) p.cores }

end Sys2Proof.Machine
end

