-- ==== Sys2Proof/Machine/TabWord.lean ====
section
/-! DEFINITION. The layout of a tab word (R141 to R153): its header, its ID parcel and the bodies of its slots, read into the
operations that the slots issue. -/
namespace Sys2Proof.Machine

/-- R142: the fields of a header. -/
def hdrIdle (h : Word) : Nat := bits h 16 8
def hdrEnd (h : Word) : Bool := bitAt h 9
def hdrIdx (h : Word) : Bool := bitAt h 8
def hdrMask (h : Word) : Nat := bits h 0 8

/-- R143: the IDs of an ID parcel, for a job. -/
def idsOf (job : Nat) (w : Word) : Ids := ⟨job, bits w 16 16, bits w 0 16⟩

/-- R141: the position of slot `k`'s body within its word, where the header names it. -/
def bodyAt (h : Word) (k : Nat) : Option Nat :=
  if hdrMask h / 2 ^ k % 2 = 0 then none
  else some (1 + bits h 8 1 + (List.range k).foldl (fun t i => t + bits h i 1 * slotParcels.getD i 0) 0)

/-- The operations of the CTL slot (R145). -/
inductive CtlOp where
  | nop
  | loop (src : LoopSrc) (len : Nat)
  | pwait (peg n : Nat) (keep : Bool)
  | padd (peg n : Nat)
  | pset (peg n : Nat)
  | psig (scope n target : Nat)
  | brz (sreg : Nat) (off : Int)
  | brnz (sreg : Nat) (off : Int)
  | skey (key sa sb : Nat)
  | qwait (mask : Nat)
  | raise (code : Nat)
  | unlisted
  deriving DecidableEq, Repr

/-- R145: a CTL body. Parcel 1 where the table gives 0 is not looked at: the operation runs as if it were 0 (DESIGN CHOICE, log 44). -/
def ctlOf (w0 w1 : Word) : CtlOp :=
  let n := w1.toNat
  match bits w0 27 5 with
  | 0 => .nop
  | 1 => .loop (if bitAt w0 26 then .reg (bits w0 16 5) else .imm n) (bits w0 0 16)
  | 2 => .pwait (bits w0 0 6) n (bitAt w0 26)
  | 3 => .padd (bits w0 0 6) n
  | 4 => .pset (bits w0 0 6) n
  | 5 => .psig (bits w0 24 3) (bits w0 0 16) n
  | 6 => .brz (bits w0 16 5) (signedOf 32 n)
  | 7 => .brnz (bits w0 16 5) (signedOf 32 n)
  | 8 => .skey (bits w0 24 3) (bits w0 16 5) (bits w0 11 5)
  | 9 => .qwait (bits w0 0 5)
  | 10 => .raise (bits w0 0 16)
  | _ => .unlisted

/-- An SCA body (R147): its opcode, D, A, the second operand, and the immediate. -/
structure ScaBody where
  op : Nat
  d : Nat
  a : Nat
  b : SOpnd
  imm : Word
  deriving DecidableEq, Repr

def scaOf (w0 w1 : Word) : ScaBody :=
  ⟨bits w0 26 6, bits w0 21 5, bits w0 16 5, if bitAt w0 10 then .imm w1 else .reg (bits w0 11 5), w1⟩

/-- An LDS body (R148). -/
structure LdsBody where
  op : Nat
  reg : Nat
  a : Nat
  off : Nat
  deriving DecidableEq, Repr

def ldsOf (w : Word) : LdsBody := ⟨bits w 29 3, bits w 24 5, bits w 19 5, bits w 0 19⟩

/-- A VEC body (R149). -/
structure VecBody where
  op : Nat
  d : Nat
  a : Nat
  b : Nat
  c : Nat
  key : Option Nat           -- SR is 1
  deriving DecidableEq, Repr

def vecOf (w : Word) : VecBody :=
  ⟨bits w 26 6, bits w 21 5, bits w 16 5, bits w 11 5, bits w 6 5, if bitAt w 5 then some (bits w 2 3) else none⟩

/-- A ROW body (R150). -/
structure RowBody where
  op : Nat
  d : Nat
  a : Nat
  hi : Bool
  toff : Nat
  deriving DecidableEq, Repr

def rowOf (w : Word) : RowBody := ⟨bits w 28 4, bits w 23 5, bits w 18 5, bitAt w 17, bits w 0 11⟩

/-- R151 to R153: PV and PEG. -/
def pegOf (pv : Bool) (q : Nat) : Option Nat := if pv then some q else none

/-- An ARR body (R151). -/
inductive ArrBody where
  | run (o : RunOp)
  | load (o : MoveOp)
  | drain (o : MoveOp)
  | unlisted
  deriving DecidableEq, Repr

def runOf (w0 w1 w2 : Word) : RunOp :=
  { bank := bits w0 29 1, ovw := bitAt w0 21, aSlot := bits w1 31 1, bSlot := bits w1 19 1, aTr := bitAt w1 30, bTr := bitAt w1 18
    aStart := bits w1 20 10, bStart := bits w1 8 10, count := bits w2 21 11, aFmt := bits w0 14 4, bFmt := bits w0 10 4
    comp := bitAt w0 20, mute := bits w0 18 2, peg := pegOf (bitAt w0 28) (bits w0 22 6) }

/-- R151: a LOAD or a DRAIN. SCALE, KEY and RND of a LOAD are not looked at: it runs as if they were 0 (DESIGN CHOICE, log 44). -/
def moveOf (w0 w1 w2 : Word) : MoveOp :=
  { bank := bits w0 29 1, cols := bitAt w0 21, fmt := bits w0 17 4, areg := bits w0 12 5, off := bits w1 10 22
    rows := bits w1 3 7 + 1, stride := bits w2 16 16, scale := signedOf 8 (bits w2 8 8)
    key := if bitAt w2 4 then some (bits w2 5 3) else none, peg := pegOf (bitAt w0 28) (bits w0 22 6) }

def arrOf (w0 w1 w2 : Word) : ArrBody :=
  match bits w0 30 2 with
  | 0 => .run (runOf w0 w1 w2)
  | 1 => .load (moveOf w0 w1 w2)
  | 2 => .drain (moveOf w0 w1 w2)
  | _ => .unlisted

/-- An FBF body (R152). -/
def fillOf (w0 w1 : Word) : FillArg :=
  { b := bitAt w0 31, slot := bits w0 30 1, fmt := bits w0 26 4, areg := bits w0 21 5, peg := pegOf (bitAt w0 20) (bits w0 14 6)
    stride := bits w0 0 14 * 16, start := bits w1 22 10, count := bits w1 11 11 }

/-- A GTH body (R153): its opcode and operands. -/
def gthOf (w0 w1 : Word) : Nat × GthArg :=
  (bits w0 28 4, ⟨bits w0 23 5, pegOf (bitAt w0 22) (bits w0 16 6), w1.toNat⟩)

/-- The CTL operation of a word, where it has one. -/
def ctlIn (w : List Word) : Option CtlOp :=
  match w with
  | [] => none
  | h :: _ => (bodyAt h 0).map (fun i => ctlOf (w.getD i 0#32) (w.getD (i + 1) 0#32))

end Sys2Proof.Machine
end

