-- ==== Sys2Proof/Machine/Jobs.lean ====
section
/-! DEFINITION. Hangs and their diagnostics (R401 to R406), the end of an abort (R391) and of a drain (R329), the summaries of
R386, and the resending of events (R442). -/
namespace Sys2Proof.Machine

/-! Diagnostic records (R404). -/

def aDiag : Nat := rHS_DIAG_CTRL.at 0 0 0
def Pkg.diagHost (p : Pkg) : Bool := p.fld aDiag fHS_DIAG_CTRL_SIZE_LOG2 ≠ 0 && p.hostMem
def Pkg.diagSpace (p : Pkg) : Nat := if p.diagHost then 2 ^ clampTo 16 26 (p.fld aDiag fHS_DIAG_CTRL_SIZE_LOG2) else 0x100000

/-- A record is written, in place of the one before. -/
def Pkg.putDiag (p : Pkg) (kind job nodes edges cycles trigger : Nat) (trunc : Bool) (body : List Byte) : Pkg :=
  let seq := p.fw.diagSeq + 1
  let r := toBytes 4 seq ++ toBytes 1 kind ++ toBytes 1 (flag01 trunc) ++ toBytes 2 job ++ toBytes 8 p.ftc.now ++ toBytes 4 nodes
    ++ toBytes 4 edges ++ toBytes 4 cycles ++ toBytes 1 trigger ++ toBytes 35 0 ++ body
  let p := (p.setFld aDiag fHS_DIAG_CTRL_SEQ seq).updFw (fun f => { f with diagSeq := seq, diag := r })
  if p.diagHost then p.hostWrite (4096 * (p.rd64 (rHS_DIAG_BASE.at 0 0 0) / 4096)) r else p.updFw (fun f => { f with flashDiag := r })

/-! Raw snapshots (R406). -/

/-- The registers that a snapshot covers, in order. -/
def Pkg.snapRegs (p : Pkg) : List Nat :=
  let dies := List.range p.board.dies
  let cores := dies.flatMap (fun n => (List.range 72).map (fun c => (n, c)))
  cores.flatMap (fun x => [rCORE_SEQ_STATUS, rCORE_SEQ_PC, rCORE_SEQ_TRAP, rCORE_SEQ_TAG].map (fun r => r.at x.1 x.2 0))
    ++ cores.flatMap (fun x => rCORE_PEG_STATUS.at x.1 x.2 0 :: (List.range 64).map (fun q => rCORE_PEG.at x.1 x.2 q))
    ++ dies.flatMap (fun n => rCD_DPEG_STATUS.at n 0 0 :: (List.range 256).map (fun q => rCD_DPEG.at n 0 q))
    ++ dies.map (fun n => rCD_GOV_STATUS.at n 0 0) ++ dies.map (fun n => rCD_TRK_STATUS.at n 0 0)
    ++ dies.map (fun n => rCD_POOL_STATUS.at n 0 0)
    ++ dies.flatMap (fun n => [rCD_COLL_STATUS, rCD_COLL_QUEUE, rCD_COLL_FAULT, rCD_COLL_FAULT_BLOCK, rCD_COLL_FAULT_TAG, rCD_COLL_NONFIN].map (fun r => r.at n 0 0))
    ++ dies.map (fun n => rMEM_SCRUB_STATUS.at n 0 0) ++ [rRING_OUT.at 0 0 0]
    ++ (List.range 4).map (fun i => rFAB_PORT_STATUS.at 0 0 i) ++ [rFTC_STATUS.at 0 0 0]

def snapEntry (source value : Nat) : List Byte := toBytes 4 source ++ toBytes 4 0 ++ toBytes 8 value

/-- Credits of a port's virtual channel that this package holds (R305). -/
def Pkg.credits (p : Pkg) (i tc vc : Nat) : Nat := bufferUnits tc - (p.tport i).credit.getD (tc * 2 + vc) 0

def Pkg.snapEntries (p : Pkg) : List (List Byte) :=
  p.snapRegs.map (fun a => snapEntry a (p.ownWord a).toNat)
    ++ (p.rings.filter (fun e => e.2.en)).flatMap (fun e =>
        [snapEntry (0xF0000000 + Config.queueNo 0 e.1) e.2.head, snapEntry (0xF0000000 + Config.queueNo 1 e.1) e.2.tail])
    ++ (p.cqs.filter (fun e => e.2.en)).flatMap (fun e =>
        [snapEntry (0xF0000000 + Config.queueNo 2 e.1) e.2.head, snapEntry (0xF0000000 + Config.queueNo 3 e.1) e.2.n])
    ++ (List.range 4).flatMap (fun i => (List.range 4).flatMap (fun tc => (List.range 2).map (fun vc =>
        snapEntry (0xF0000000 + Config.queueNo 4 (i * 16 + tc * 2 + vc)) (p.credits i tc vc))))

/-- A raw snapshot, as the event of CODE `trigger` calls for it. -/
def Pkg.snapshot (p : Pkg) (trigger : Nat) : Pkg :=
  let es := p.snapEntries
  let fit := (p.diagSpace - 64) / 16
  p.putDiag 2 0 (min fit es.length) 0 0 trigger (fit < es.length) (es.take fit).flatten

/-! The wait-for graph (R404, R405). -/

structure Node where
  kind : Nat
  die : Nat
  id : Nat
  tag : Nat
  value : Nat
  want : Nat
  remote : Bool
  key : Nat                  -- what tells nodes of one kind apart
  deriving DecidableEq, Repr

/-- A command's state as a node gives it. -/
def Cmd.state (c : Cmd) : Nat := if c.stage = .fetched || c.stage = .firing then 0 else if c.stage = .fired || c.stage = .queued then 1 else 2

/-- A core that is held on a PWAIT: the peg and the count. -/
def Core.awaiting (c : Core) : Option (Nat × Nat) :=
  match c.fetchedWord with
  | some w => (match ctlIn w with | some (.pwait q n _) => if c.seq.running && c.pwaitOk q n = false then some (q, n) else none | _ => none)
  | none => none

/-- Bound cores that run a program or an UPDATE. -/
def Pkg.runners (p : Pkg) : List (Nat × Nat × Core) :=
  ((List.range p.board.dies).flatMap (fun n => (p.die n).bind.map (fun e => (n, e.1, p.core (coreKey n e.2))))).filter
    (fun x => x.2.2.seq.running || x.2.2.upd.isSome)
/-- The tag that runs on a core. -/
def Pkg.tagOn (p : Pkg) (c : Core) : Nat :=
  match c.upd with
  | some u => ((p.cmds.find u.1).map Cmd.tag).getD 0
  | none => c.seq.tag

/-- R168: the die pegs that a command waits for, each with the sum that it needs. -/
def Cmd.pegs (c : Cmd) : List (Nat × Nat × Nat) :=
  (c.waits.map (fun w => (w.1, w.2.1, (c.waits.filter (fun v => v.1 = w.1 && v.2.1 = w.2.1)).foldl (fun t v => t + v.2.2) 0))).eraseDups
/-- Waits of commands at their firing stage that no peg meets yet. -/
def Pkg.awaited (p : Pkg) : List (Nat × Nat × Nat × Nat) :=
  (p.cmds.filter (fun e => e.2.fire = none && e.2.fin = none)).flatMap (fun e => (e.2.pegs.filter (fun w => p.dpeg w.1 w.2.1 < w.2.2)).map (fun w => (e.1, w)))

/-- A shard of which the stream still waits for an agreed code, or for the acknowledgement of a contribution. -/
def Stream.shardOpen (s : Stream) (c : Cmd) (r : Nat) : Bool :=
  (List.range (c.shardBlocks s.n r)).any (fun b => match s.agreed.find (blockKey r b) with
    | some code => code ≠ 255 && !s.ackd.contains (blockKey r b)
    | none => true)

/-- R405: the rank that a stream waits for first: for its READY; as owner for its codes, its contribution or its data; for what its owner
sends; for its shard, or the acknowledgement of the own one. -/
def Stream.missing (s : Stream) (c : Cmd) : Nat :=
  let all := List.range s.n
  let others := all.filter (fun r => !(r = s.rank))
  let gather := [others.find? (fun r => !s.shards.contains r), others.find? (fun r => !s.shardAcks.contains r)]
  let l := others.find? (fun r => !s.ready.contains r) ::
    (if c.collOp = 1 then gather
     else if c.ranked then
       [if s.commits < s.n then some s.commits else none, others.find? (fun r => !s.grants.contains r), others.find? (fun r => !s.ackd.contains r)]
     else
       (s.own.find? (fun b => b.2.agreed = none)).bind (fun b => all.find? (fun r => (b.2.codes.find r).isNone)) ::
       (s.own.find? (fun b => b.2.agreed.isSome && b.2.agreed ≠ some 255 && b.2.applied.length < s.n)).bind
         (fun b => all.find? (fun r => !b.2.applied.contains r)) ::
       others.find? (s.shardOpen c) :: (if c.collOp = 2 then gather else []))
  (l.findSome? id).getD 0

def Pkg.resNode (n : Nat) (r : Res) : Nat :=
  2 ^ 24 * n + (match r with | .tracker => 0 | .bank ddr i => 1 + 2 * i + flag01 ddr | .chan ddr i => 2 ^ 20 + 2 * i + flag01 ddr)

/-- The streams, with their dies and commands. -/
def Pkg.streamsNow (p : Pkg) : List (Nat × Nat × Stream × Cmd) :=
  (List.range p.board.dies).flatMap (fun n => (p.die n).streams.filterMap (fun s => (p.cmds.find s.2.cmd).map (fun c => (n, s.1, s.2, c))))
/-- The member of another package that a stream waits for. -/
def Pkg.remoteOf (p : Pkg) (s : Stream) (c : Cmd) : Option Nat :=
  (s.members[s.missing c]?).bind (fun m => if entryCoord m = p.coord then none else some (entryCoord m * 8 + entryDie m))
/-- The node of what a stream waits for: another package; of a member here its stream, or its command where no stream runs yet. -/
def Pkg.streamWaits (p : Pkg) (s : Stream) (c : Cmd) : Option (Nat × Nat) :=
  match p.remoteOf s c with
  | some m => some (9, m)
  | none => (s.members[s.missing c]?).bind (fun m =>
      match p.findStream (entryDie m) c.collEpoch c.collGroup c.collCid with
      | some x => some (5, entryDie m * 16 + x.1)
      | none => (p.cmds.find? (fun e => e.2.isTriple c.collEpoch c.collGroup c.collCid && e.2.collDie = entryDie m && e.2.fin = none)).map
          (fun e => (1, e.1)))

/-- R169: what fired commands wait for: the cores whose start queues are full, and earlier waiters that share a core. -/
def Pkg.roomWaits (p : Pkg) : List ((Nat × Nat) × Nat × Nat) :=
  p.startWaiters.zipIdx.flatMap (fun x =>
    let set := p.coreSet x.1.2
    let full := set.filter (fun y => match p.phys (y / 64) (y % 64) with | some key => 4 ≤ (p.core key).startq.length | none => false)
    full.map (fun y => ((1, x.1.1), (2, y)))
      ++ ((p.startWaiters.take x.2).filter (fun e => (p.coreSet e.2).any set.contains)).map (fun e => ((1, x.1.1), (1, e.1))))

/-- Torus outputs at which frames wait: port, class and channel, and the first of the frames. -/
def Pkg.outputsNow (p : Pkg) : List (Nat × Nat × Nat × OutFrame) :=
  (List.range 4).flatMap (fun i => (List.range 4).flatMap (fun tc => (List.range 2).filterMap (fun vc =>
    ((p.tport i).out.find? (fun e => tcOf e.f.ty = tc && e.f.vc = vc)).map (fun e => (i, tc, vc, e)))))
def outKey (i tc vc : Nat) : Nat := i * 16 + tc * 2 + vc

/-- The neighbours whose credit those outputs wait for (log 19). -/
def Pkg.neighbours (p : Pkg) : List Nat := ((p.outputsNow.map (fun x => (p.tport x.1).nbr)).eraseDups)

def Pkg.nodes (p : Pkg) : List Node :=
  let streams := p.streamsNow
  p.cmds.map (fun e => ⟨1, 255, e.2.ring, e.2.tag, e.2.state, e.2.f 12 8, false, e.1⟩)
    ++ p.runners.map (fun x => ⟨2, x.1, x.2.1, p.tagOn x.2.2, x.2.2.seq.pc % 2 ^ 32 + 2 ^ 32 * (p.ownWord (rCORE_SEQ_STATUS.at x.1 (((p.die x.1).bind.find x.2.1).getD 0) 0)).toNat, 0, false, x.1 * 64 + x.2.1⟩)
    ++ p.runners.filterMap (fun x => x.2.2.awaiting.map (fun w => ⟨3, x.1, x.2.1 * 64 + w.1, 0, x.2.2.peg w.1, w.2, false, (x.1 * 64 + x.2.1) * 64 + w.1⟩))
    ++ ((p.awaited.map (fun w => (w.2.1, w.2.2.1))).eraseDups).map (fun w => ⟨4, w.1, w.2, 0, p.dpeg w.1 w.2,
        (p.awaited.filter (fun y => y.2.1 = w.1 && y.2.2.1 = w.2)).foldl (fun t y => max t y.2.2.2) 0, false, w.1 * 256 + w.2⟩)
    ++ streams.map (fun x => ⟨5, x.1, x.2.1, x.2.2.2.tag, x.2.2.2.collCid, x.2.2.1.missing x.2.2.2, false, x.1 * 16 + x.2.1⟩)
    ++ p.outputsNow.map (fun x => ⟨6, 255, outKey x.1 x.2.1 x.2.2.1, 0, p.credits x.1 x.2.1 x.2.2.1, x.2.2.2.f.units, false, outKey x.1 x.2.1 x.2.2.1⟩)
    ++ (p.rings.filter (fun e => e.2.en && 0 < e.2.waiting)).map (fun e => ⟨7, 255, e.1, 0, e.2.head, e.2.tail, false, e.1⟩)
    ++ (p.cqs.filter (fun e => e.2.en && !e.2.hasRoom)).map (fun e => ⟨8, 255, e.1, 0, e.2.head,
        (p.cmds.filter (fun x => x.2.fin.isSome && p.cqOf x.2 = e.1)).length, false, e.1⟩)
    ++ ((streams.filterMap (fun x => p.remoteOf x.2.2.1 x.2.2.2)).eraseDups).map (fun m => ⟨9, 255, m / 8, 0, 0, m % 8, true, m⟩)
    ++ p.neighbours.map (fun c => ⟨9, 255, c, 0, 0, 255, true, 2 ^ 20 + c⟩)
    ++ (List.range p.board.dies).flatMap (fun n => (((p.die n).waits.map (fun w => w.res)).eraseDups).map (fun r =>
        ⟨10, n, Config.queueNo 5 (Pkg.resNode n r), 0, p.inUse n r, p.quota n r, false, Pkg.resNode n r⟩))

/-- Commands whose SIGNAL targets a peg of this package: local (scope 1) or of a die (2); SCOPE 3 and 4 with the own coordinate are the same
(R162). -/
def Pkg.pegTo (p : Pkg) (scope target : Nat) : List (Nat × Nat) :=
  (p.cmds.filter (fun e =>
    let s := e.2.f 20 8
    let sc := s / 2 ^ 56 % 8
    let t := s % 2 ^ 32
    e.2.fin = none && s / 2 ^ 63 = 1 && t % 2 ^ 18 = target && (sc = scope || (sc = scope + 2 && t / 2 ^ 18 = p.coord)))).map (fun e => (1, e.1))

/-- The node of what waits for the tracker. -/
def Pkg.waiterNode (p : Pkg) : Requester → Option (Nat × Nat)
  | .thread k _ | .fetch k | .update k _ => (p.lcore k).map (fun lc => (2, k / 72 * 64 + lc))
  | .engine e => ((p.die (e / 8)).engs.find (e % 8)).map (fun k => (1, k))
  | .scrub m => (p.die m).scrub.map (fun k => (1, k))
  | .stream i => some (5, i)
  | .command k => some (1, k)
  | .writeback _ | .host | .headstock | .firmware | .answer _ | .fabric _ => none

/-- The node of what a frame at an output serves: the stream of a collective, or the command of its TAG. -/
def Pkg.senderNode (p : Pkg) (e : OutFrame) : Option (Nat × Nat) :=
  if e.input < 4 then none
  else if 0x10 ≤ e.f.ty && e.f.ty < 0x20 then
    (p.findStream e.f.srcDie e.f.epoch e.f.group e.f.id).map (fun x => (5, e.f.srcDie * 16 + x.1))
  else (p.cmds.find? (fun c => c.2.tag = e.f.id && c.2.job = e.f.job && c.2.fin = none)).map (fun c => (1, c.1))

/-- What the fetch of a ring, or of commands behind an ORDER, waits for (R371, R372, R374). -/
def Pkg.ringWaits (p : Pkg) (r : Nat) (q : Ring) : List (Nat × Nat) :=
  ((p.cmds.filter (fun e => (e.2.ring = r && e.2.order && e.2.stage = .fetched && !p.orderOk e.1 e.2) ||
    (!p.tableRoom q.prio && (p.cmds.length = 16384 || e.2.prio = 3)))).map (fun e => (1, e.1)))
def Pkg.orderWaits (p : Pkg) : List ((Nat × Nat) × Nat × Nat) :=
  (p.cmds.filter (fun e => e.2.order && e.2.stage = .fetched && !p.orderOk e.1 e.2)).flatMap (fun e =>
    (p.cmds.filter (fun d => d.2.ring = e.2.ring && d.2.arr < e.2.arr && d.2.fin = none)).map (fun d => ((1, e.1), (1, d.1))))

/-- Edges between nodes, named by kind and key: FROM waits for TO. -/
def Pkg.edges (p : Pkg) : List ((Nat × Nat) × Nat × Nat) :=
  p.awaited.map (fun w => ((1, w.1), (4, w.2.1 * 256 + w.2.2.1)))
    ++ (p.cmds.filter (fun e => e.2.stage = .running)).flatMap (fun e => e.2.left.map (fun x => ((1, e.1), (2, x))))
    ++ p.runners.filterMap (fun x => x.2.2.awaiting.map (fun w => ((2, x.1 * 64 + x.2.1), (3, (x.1 * 64 + x.2.1) * 64 + w.1))))
    ++ p.runners.flatMap (fun x => match x.2.2.awaiting with
        | some w => (p.pegTo 1 (2 ^ 15 * x.1 + 2 ^ 9 * x.2.1 + w.1)).map (fun t => ((3, (x.1 * 64 + x.2.1) * 64 + w.1), t))
        | none => [])
    ++ ((p.awaited.map (fun w => (w.2.1, w.2.2.1))).eraseDups).flatMap (fun w => (p.pegTo 2 (2 ^ 15 * w.1 + w.2)).map (fun t => ((4, w.1 * 256 + w.2), t)))
    ++ p.streamsNow.flatMap (fun x => ((1, x.2.2.1.cmd), (5, x.1 * 16 + x.2.1)) :: (match p.streamWaits x.2.2.1 x.2.2.2 with
        | some t => [((5, x.1 * 16 + x.2.1), t)]
        | none => []))
    ++ p.roomWaits
    ++ p.outputsNow.map (fun x => ((6, outKey x.1 x.2.1 x.2.2.1), (9, 2 ^ 20 + (p.tport x.1).nbr)))
    ++ (List.range 4).flatMap (fun i => (p.tport i).out.filterMap (fun e =>
        (p.senderNode e).map (fun s => (s, (6, outKey i (tcOf e.f.ty) e.f.vc)))))
    ++ p.rings.flatMap (fun r => if r.2.en && 0 < r.2.waiting then (p.ringWaits r.1 r.2).map (fun t => ((7, r.1), t)) else [])
    ++ p.orderWaits
    ++ (p.cmds.filter (fun e => e.2.fin.isSome)).map (fun e => ((1, e.1), (8, p.cqOf e.2)))
    ++ (List.range p.board.dies).flatMap (fun n => (p.die n).waits.filterMap (fun w =>
        (p.waiterNode w.who).map (fun s => (s, (10, Pkg.resNode n w.res)))))

/-- Nodes reachable in `k` steps or fewer. -/
def reach (es : List (Nat × Nat)) : Nat → List Nat → List Nat
  | 0, l => l
  | k + 1, l => reach es k ((l ++ (es.filter (fun e => l.contains e.1)).map Prod.snd).eraseDups)

def Node.bytes (x : Node) (flags : Nat) : List Byte :=
  toBytes 1 x.kind ++ toBytes 1 flags ++ toBytes 1 x.die ++ toBytes 1 0 ++ toBytes 4 x.id ++ toBytes 4 x.tag ++ toBytes 4 0
    ++ toBytes 8 x.value ++ toBytes 8 x.want

/-- A graph is written for a job that stalls. -/
def Pkg.graph (p : Pkg) (job : Nat) : Pkg :=
  let all := p.nodes
  let edges := p.edges.filterMap (fun e =>
    match all.findIdx? (fun x => (x.kind, x.key) = e.1), all.findIdx? (fun x => (x.kind, x.key) = e.2) with
    | some a, some b => some (a, b)
    | _, _ => none)
  let next (i : Nat) : List Nat := ((edges.filter (fun e => e.1 = i)).map Prod.snd).eraseDups
  let far := (List.range all.length).map (fun i => reach edges all.length (next i))
  let joined (i j : Nat) : Bool := (far.getD i []).contains j && (far.getD j []).contains i
  let inCycle (i : Nat) : Bool := joined i i
  let ns := all.zipIdx.map (fun x => x.1.bytes (flag01 (inCycle x.2)
    + (if (x.1.kind = 3 || x.1.kind = 4) && !edges.any (fun e => e.1 = x.2) then 2 else 0) + (if x.1.remote then 4 else 0)))
  -- nodes are cut in descending KIND until the record fits, with the edges to them
  let kept := (List.range (ns.length + 1)).foldl (fun b k =>
    if 64 + 32 * k + 8 * (edges.filter (fun e => e.1 < k && e.2 < k)).length ≤ p.diagSpace then k else b) 0
  let es := edges.filter (fun e => e.1 < kept && e.2 < kept)
  -- nodes that reach each other hold one cycle where none of them has two ways on; how many cycles are found where one has is not given (log 19)
  let on := (List.range all.length).filter inCycle
  let parts := (on.filter (fun i => !on.any (fun j => j < i && joined i j))).length
  let x := p.fresh
  let cycles := if on.all (fun i => ((next i).filter (joined i)).length = 1) then parts else min (parts + Config.freeNat x.2) (2 ^ 32 - 1)
  x.1.putDiag 1 job kept es.length cycles 0x61 (kept < ns.length)
    ((ns.take kept).flatten ++ es.flatMap (fun e => toBytes 4 e.1 ++ toBytes 4 e.2))

/-! The job watchdog (R401, R402). -/

def Pkg.jobsNow (p : Pkg) : List Nat := (p.cmds.map (fun e => e.2.job)).eraseDups

/-- R402: a job that stalls ends. Its watchdog starts anew (log 42). -/
def Pkg.hang (p : Pkg) (job : Nat) : Pkg :=
  let all := p.nodes
  let ks := (p.cmds.filter (fun e => e.2.job = job)).map Prod.fst
  -- R406: while a full test runs, a raw snapshot takes the graph's place
  let graphs := p.fw.fullTests.isEmpty
  let p := if graphs then p.graph job else p.snapshot 0x61
  let seq := p.fw.diagSeq % 2 ^ 32
  let p := ks.foldl (fun p k => p.endCmd 10 10 seq (if graphs then (all.findIdx? (fun x => x.kind = 1 && x.key = k)).getD 0 else 0) k) p
  let go := job ≠ 0 && (p.jobIn job 1).isSome
  let p := if go then p.sendAbort job else p
  (p.event { Event.blank 0x61 with job := job, action := if go then 4 else 0, diag := seq }).progress job

/-- JOB_WATCHDOG (R401): the check at the next multiple of 100 ms. -/
def Pkg.jobWatchdog (p : Pkg) : Pkg :=
  let p := p.until (100000000 * (p.ftc.now / 100000000 + 1))
  let jobs := p.jobsNow
  -- a job's watchdog runs while it has a command; one that has shown no progress yet starts now
  let kept : Tbl Nat := p.fw.jobFtc.filter (fun e => jobs.contains e.1)
  let seen := jobs.foldl (fun (t : Tbl Nat) j => match t.find j with | some _ => t | none => t.set j p.ftc.now) kept
  let p := p.updFw (fun f => { f with jobFtc := seen })
  let limit := p.fld (rHS_WDOG.at 0 0 0) fHS_WDOG_LIMIT
  if limit = 0 || p.fw.inReset then p
  else
    let stalled := jobs.filter (fun j => p.fw.jobFtc.getD j 0 + 1000000 * limit ≤ p.ftc.now)
    stalled.foldl Pkg.hang p

/-- START_STALL (R406, R410): a step of bring-up, of a package reset or of a full test overruns its bound. -/
def Pkg.startStall (p : Pkg) : Pkg :=
  let p := p.snapshot 0x62
  p.event { Event.blank 0x62 with diag := p.fw.diagSeq % 2 ^ 32 }

/-- ABORT_DONE (R391). -/
def Pkg.abortDone (p : Pkg) (job : Nat) : Pkg :=
  if p.fw.abortPend.contains job && !p.cmds.any (fun e => e.2.job = job) then
    (p.updFw (fun f => { f with abortPend := f.abortPend.filter (fun j => !(j = job)) })).event { Event.blank 0x92 with job := job }
  else p

/-- DRAINED (R329): the output queues are empty, or 10 ms have passed; the ports are disabled, and the drain is reported. -/
def Pkg.drained (p : Pkg) : Pkg :=
  if !p.fw.draining then p
  else
    let p := if (List.range 4).all (fun i => (p.tport i).out.isEmpty) then p else p.after 10000000
    let p := (List.range 4).foldl (fun p i => (p.setFld (rFAB_PORT_CTRL.at 0 0 i) fFAB_PORT_CTRL_DISABLE 1).portCtrl i) p
    let p := (p.updFw (fun f => { f with draining := false })).setFld aHealth fHS_HEALTH_DRAINED 1
    p.event (Event.blank 0x94)

/-- MEM_CE (R386): a controller's summary of the correctable errors since the last one. -/
def Pkg.memCE (p : Pkg) (n m : Nat) : Pkg :=
  if !p.present n || 4 ≤ m then p
  else
    let now := p.fld (rMEM_ECC_CORR.at n m 0) fMEM_ECC_CORR_COUNT
    let seen := p.fw.ceSeen.getD (n * 4 + m) 0
    let p := p.updFw (fun f => { f with ceSeen := f.ceSeen.set (n * 4 + m) now })
    if seen < now then p.event { Event.blank 0x32 with die := n, unit := m, detail := now - seen } else p

/-- DT_REPLAY (R386): a summary of `k` dovetail replays. -/
def Pkg.dtReplay (p : Pkg) (k : Nat) : Pkg := if k = 0 then p else p.event { Event.blank 0x42 with detail := k }

/-- EVENT_RESEND (R442): a record that a collector has not acknowledged goes out again, 1 s after it went out last. -/
def Pkg.eventResend (p : Pkg) (k seq : Nat) : Pkg :=
  if p.fld (rMGT_NET_CTRL.at 0 0 0) fMGT_NET_CTRL_EN = 1 && p.fw.unacked.any (fun u => u.1 = k && u.2.1 = seq && u.2.2 ≠ 0) then
    let p := p.until (p.fw.sentAt.getD (k * 2 ^ 32 + seq % 2 ^ 32) 0 + 1000000000)
    (p.updFw (fun f => { f with unacked := f.unacked.map (fun u =>
      if u.1 = k && u.2.1 = seq then (k, seq, u.2.2 + 1) else u) })).sendEvent k seq
  else p

end Sys2Proof.Machine
end

