-- ==== Sys2Proof/Machine/Boot.lean ====
section
/-! DEFINITION. Boot and firmware images (R443 to R449, R451). -/
namespace Sys2Proof.Machine

/-- A field of an image's header (R444). -/
def imgField (b : List Byte) (o n : Nat) : Nat := ofBytes ((b.drop o).take n)
def imgPart (b : List Byte) (o n : Nat) : List Byte := (b.drop o).take n
def imgSvn (b : List Byte) : Nat := imgField b 12 1

/-- R445: the slot of the signer's key, not revoked. -/
def keySlot (revoked : Nat) (b : List Byte) : Option Nat :=
  (List.range 4).find? (fun k => Config.keyHash k = Config.sha384 (imgPart b 72 96) && revoked / 2 ^ k % 2 = 0)

/-- R445, R447: what the boot ROM's check answers: 0 OK, 1 BAD_SIGNATURE, 2 BAD_SVN, 3 BAD_LENGTH. -/
def imageStatus (revoked minSvn : Nat) (b : List Byte) : Nat :=
  let n := imgField b 16 4
  if b.length < 512 || n % 4096 ≠ 0 || 16773120 < n || b.length < 512 + n then 3
  else if imgField b 0 4 ≠ 0x4D495746 || imgField b 4 4 ≠ 1 then 1
  else if (keySlot revoked b).isNone then 1
  else if !Config.ecdsaVerify (imgPart b 72 96) (Config.sha384 (imgPart b 0 168)) (imgPart b 168 96) then 1
  else if Config.sha384 (imgPart b 512 n) ≠ imgPart b 24 48 then 1
  else if imgSvn b < minSvn then 2
  else 0

def Image.ofBytes (b : List Byte) : Image := ⟨imgField b 8 4, imgSvn b, b⟩

/-- R451: the measurements, fixed at boot. -/
def Fw.measure (f : Fw) (i : Image) : List (List Byte) :=
  [Config.bootRomDigest, Config.sha384 (imgPart i.bytes 0 168), Config.fuseMapDigest f.minSvn f.revoked, Config.milnikKeyDigest]

/-- Firmware runs an image from headstock RAM. -/
def Pkg.runImage (p : Pkg) (i : Image) (ram : Bool) : Pkg :=
  p.updFw (fun f => { f with running := some i, bootRam := ram, waiting := false, transfer := none, measures := f.measure i })

/-- R445, R446, R480: the boot ROM runs the flash image, or waits for one over DOE. -/
def Pkg.bootRom (p : Pkg) : Pkg :=
  let wait : Pkg := p.updFw (fun f => { f with running := none, waiting := true, transfer := none, measures := [] })
  if p.fld (rHS_STRAPS.at 0 0 0) fHS_STRAPS_FW_WAIT = 1 then wait
  else
    match p.fw.image with
    | some i => if imageStatus p.fw.revoked p.fw.minSvn i.bytes = 0 then p.runImage i false else wait
    | none => wait

end Sys2Proof.Machine
end

