-- ==== Sys2Proof/Machine/Reset.lean ====
section
/-! DEFINITION. Resets (R408 to R413, R481, R482) and bring-up (R483): shavings (R407), what a reset clears and what it keeps,
the steps from the boot ROM to READY. -/
namespace Sys2Proof.Machine

/-! Shavings (R407). -/

/-- Bytes of a bench or a stat store whose reads are uncorrectable are written as 0. -/
def shavedBytes (m : Mem) (bad : List Nat) (a n : Nat) : List Byte :=
  (List.range n).map (fun i => if ueIn bad (a + i) 1 then 0#8 else m.read (a + i))

def shavedRow (b : Bank) (i : Nat) : List Byte :=
  (List.range 128).flatMap (fun j => toBytes 4 (b.cell i j).v.toNat ++ toBytes 2 (b.cell i j).c.toNat)

/-- UE flags of the parts of a record: bytes sampled of the bench, from `off` KiB, and of the stat store. -/
def Core.ueParts (c : Core) (off benchBytes statBytes : Nat) : Nat :=
  flag01 (benchBytes ≠ 0 && ueIn c.benchUE (1024 * off) benchBytes) + 2 * flag01 (statBytes ≠ 0 && ueIn c.statUE 0 statBytes)

/-- The 512 bytes of a header; where its fields lie is the model's own (log 20). -/
def Shaving.header (s : Shaving) (benchBytes statBytes : Nat) : List Byte :=
  let body := match s.core with
    | none => toBytes 312 0
    | some c =>
      toBytes 4 (putFlds 0#32 [(fCORE_SEQ_STATUS_STATE, c.seqState), (fCORE_SEQ_STATUS_HOLD, c.holdNow),
          (fCORE_SEQ_STATUS_LOOPS, c.seq.loops.length), (fCORE_SEQ_STATUS_STARTQ, c.startq.length)]).toNat
        ++ toBytes 4 c.seq.pc ++ toBytes 4 (putFlds 0#32 [(fCORE_SEQ_TRAP_CAUSE, c.seq.trap.cause), (fCORE_SEQ_TRAP_CODE, c.seq.trap.code)]).toNat
        ++ toBytes 4 c.seq.tag ++ (List.range 64).flatMap (fun q => toBytes 4 (c.peg q)) ++ toBytes 40 0
  let ue := match s.core with
    | none => 0
    | some c => c.ueParts s.off benchBytes statBytes
  toBytes 1 s.die ++ toBytes 1 s.lcore ++ toBytes 1 s.pcore ++ toBytes 1 ue ++ toBytes 4 0 ++ toBytes 8 s.ftc ++ body ++ toBytes 184 0

def aShav : Nat := rHS_SHAV_CTRL.at 0 0 0

/-- A record in host form. -/
def Shaving.host (s : Shaving) (benchKib statKib : Nat) : List Byte :=
  s.header (1024 * benchKib) (1024 * statKib) ++ (match s.core with
    | none => toBytes (1024 * benchKib + 1024 * statKib + 196608) 0
    | some c => shavedBytes c.bench c.benchUE (1024 * s.off) (1024 * benchKib) ++ shavedBytes c.stat c.statUE 0 (1024 * statKib)
        ++ (List.range 128).flatMap (shavedRow c.bank0) ++ (List.range 128).flatMap (shavedRow c.bank1))

/-- A record in flash form: 8 KiB; a segment that failed its check on the way there stays as flash is when erased. -/
def Shaving.flash (s : Shaving) : List Byte :=
  let bs := s.header 4096 0 ++ (match s.core with
    | none => toBytes 7168 0
    | some c => shavedBytes c.bench c.benchUE (1024 * s.off) 4096
        ++ (List.range 2).flatMap (shavedRow c.bank0) ++ (List.range 2).flatMap (shavedRow c.bank1)) ++ toBytes 512 0
  match s.lost with
  | some b => bs.take (256 * b) ++ List.replicate (min 256 (bs.length - 256 * b)) 0xFF#8 ++ bs.drop (256 * b + 256)
  | none => bs

def Pkg.shave (p : Pkg) : List Shaving :=
  (List.range p.board.dies).flatMap (fun n => (List.range 64).map (fun lc =>
    let c := (p.die n).bind.find lc
    ⟨n, lc, c.getD 0x7F, p.ftc.now, c.map (fun c => p.core (coreKey n c)), p.fld aShav fHS_SHAV_CTRL_BENCH_OFF, none⟩))

/-- R231, R233: bytes go to host memory but for the segment whose check has failed. -/
def Pkg.hostWriteBut (p : Pkg) (a : Nat) (bs : List Byte) : Option Nat → Pkg
  | some b => (p.hostWrite a (bs.take (256 * b))).hostWrite (a + 256 * b + 256) (bs.drop (256 * b + 256))
  | none => p.hostWrite a bs

/-- Step 5 of R410: to the host, or to flash. The flash area keeps what its records hold as the cores stood. `bad`: a record, and a segment of
it (R232, counted in the record), whose check fails at its destination: it is not committed, and the record's die reports it (R233). -/
def Pkg.shavings (p : Pkg) (bad : Option (Nat × Nat)) : Pkg :=
  let l := p.shave.zipIdx.map (fun s => match bad with
    | some (r, b) => if s.2 = r then { s.1 with lost := some b } else s.1
    | none => s.1)
  let p := match l.find? (fun s => s.lost.isSome) with | some s => p.datapath s.die 0 | none => p
  if p.fld aShav fHS_SHAV_CTRL_HOST = 1 && p.hostMem then
    let bk := p.fld aShav fHS_SHAV_CTRL_BENCH_KIB
    let sk := p.fld aShav fHS_SHAV_CTRL_STAT_KIB
    let size := 512 + 1024 * bk + 1024 * sk + 196608
    let p := l.zipIdx.foldl (fun p s => p.hostWriteBut (4096 * (p.rd64 (rHS_SHAV_BASE.at 0 0 0) / 4096) + size * s.2) (s.1.host bk sk) s.1.lost) p
    p.setFld (rHS_RESET_STATUS.at 0 0 0) fHS_RESET_STATUS_FLASH_SHAV 0
  else (p.updFw (fun f => { f with shavings := l })).setFld (rHS_RESET_STATUS.at 0 0 0) fHS_RESET_STATUS_FLASH_SHAV 1

/-! What a reset clears. -/

/-- R16: the first binding of a die: logical core c to its c-th functional core. -/
def firstBind (fused : List Nat) : Tbl Nat :=
  (((List.range 72).filter (fun c => !fused.contains c)).take 64).zipIdx.map (fun x => (x.2, x.1))

/-- A die after a reset: its fuses and its supply stand; bindings and fenced cores come back from the store. The ceiling of a thermal trip
(R49) ends with it, which the spec leaves open (DESIGN CHOICE, log 44). -/
def Die.cleared (d : Die) : Die :=
  { Die.init with bind := firstBind d.fused, fused := d.fused, kerfFuse := d.kerfFuse, baseMv := d.baseMv, setMv := d.setMv, tj := d.tj, line := d.line }

/-- Registers that a package reset keeps: the MSI-X table, HS_RESET_STATUS, the straps, and CLK_LOST, which only a write clears (R411, R479,
R480). -/
def keptReg (a : Nat) : Bool :=
  (0x180000 ≤ a && a < 0x188000) || a = rHS_RESET_STATUS.at 0 0 0 || a = rHS_STRAPS.at 0 0 0 || a = rHS_POWER_STATUS.at 0 0 0

/-- Step 8 of R410: compute dies and headstock logic reset, and transmitters go off. The CXL link, configuration space and the HDM decoders
stand (R411). -/
def Pkg.clear (p : Pkg) : Pkg :=
  let p : Pkg := { p with
    regs := p.regs.filter (fun e => keptReg e.1), shadow := [], latch := []
    dies := p.dies.map (fun e => (e.1, e.2.cleared)), cores := [], epoch := p.epoch + 1
    snoops := [], answered := [], used := [], touched := none, posted := [], rings := [], cqs := [], cmds := []
    port := { p.port with bells := [], lastRing := [] }
    fab := { Fabric.reset with abortSeq := p.fab.abortSeq, fill := p.fab.fill }, admitted := []
    board := { p.board with clkGone := [] }
    mgt := { p.mgt with i3cAddr := none } }
  let p := p.updFw (fun f => { f with
    events := [], unacked := [], sentAt := [], resetReq := none, inReset := false, draining := false, abortPend := [], jobFtc := [], wdogOff := false
    tests := [], due := [], passed := [], fullTests := [], rebindAfter := [], unrepro := [], datapath := [], ueLines := [], ceSeen := [], boundAt := [], round := []
    phases := [], curStep := none, curSlow := false, epochFrom := [], epochNeed := [], epochCmd := none, epochSent := false, shares := []
    jheld := [], running := none, waiting := false, bootRam := false, transfer := none, smpSeq := 0, smpOld := none
    lastSample := [], evTrace := [], trcLost := 0, trcUs := (0, 0), booted := false, bootNote := none })
  let p := p.setFld (rHS_POWER_STATUS.at 0 0 0) fHS_POWER_STATUS_VR_FAIL 0
  let st := p.rd (rHS_STRAPS.at 0 0 0)
  (p.setFld aCoord fFAB_COORD_PX (bits st 0 7)).setFld aCoord fFAB_COORD_PY (bits st 7 7)

/-- R218, R411: HBM4 and DDR5 contents are lost. -/
def Pkg.memGone (p : Pkg) : Pkg :=
  let p := { p with mem := ⟨[], 2 ^ 42 + p.epoch, []⟩, badLines := [], board := { p.board with memLost := false } }
  p.setFld (rHS_RESET_STATUS.at 0 0 0) fHS_RESET_STATUS_MEM_LOST 1

/-! From the boot ROM to READY. -/

/-- What bring-up, or steps 8 to 11 of a package reset, meets. -/
structure BringUp where
  x : Nat                    -- straps (R480), latched at the release of PKG_RST_N
  y : Nat
  fwWait : Bool
  mgtDef : Bool
  testN : Bool
  speed : Nat                -- the host link, where it trains: 1 or 2; 0 down
  width : Nat
  hbmBad : List (Nat × Nat)  -- die, stack that fails to train
  ddrBad : List (Nat × Nat)  -- die, channel that is not trained (R216)
  failed : List (Nat × Option Nat)      -- cores (die × 72 + core) that fail the short test, with the column group named
  recurs : Option Nat        -- a package-level fault recurs: its CODE (R413)
  ticks : Nat                -- FTC ticks from the reset's step 1 to READY
  recursOn : Nat := 0        -- the die of that fault, where its CODE is 0x71 to 0x74
  shaved : Option (Nat × Nat) := none   -- a shavings record, and a segment of it, that fails its check (R231, R233)
  deriving DecidableEq, Repr

/-- R216: the DIMM of a channel that is usable: supported (R215), and trained. -/
def Pkg.usable (p : Pkg) (o : BringUp) (n c : Nat) : Option Dimm :=
  match p.board.dimms.find (n * 2 + c) with
  | some m => if m.supported && !o.ddrBad.contains (n, c) then some m else none
  | none => none

/-- R216: the capacities that the controllers map, in GiB; 96 GiB an HBM4 stack. Channel 1 is off where both are usable and their DIMMs differ
in capacity or organisation. -/
def Pkg.trainMem (p : Pkg) (o : BringUp) : Pkg :=
  (List.range p.board.dies).foldl (fun p n =>
    let hbm (p : Pkg) (s : Nat) : Pkg :=
      let ok := !o.hbmBad.contains (n, s)
      let p := p.wr (rMEM_STATUS.at n s 0) (putFlds 0#32 [(fMEM_STATUS_TRAINED, flag01 ok), (fMEM_STATUS_CAPACITY, 96)])
      if ok then p else (p.event { Event.blank 0x33 with die := n, unit := s, action := 48 }).drainFlag 0x33
    let differ := match p.usable o n 0, p.usable o n 1 with | some a, some b => a ≠ b | _, _ => false
    let ddr (p : Pkg) (c : Nat) : Pkg :=
      let off := c = 1 && differ
      let cap := match p.usable o n c with | some m => m.capacity | none => 0
      p.wr (rMEM_STATUS.at n (2 + c) 0) (putFlds 0#32 [(fMEM_STATUS_TRAINED, flag01 (cap ≠ 0)), (fMEM_STATUS_DISABLED, flag01 off),
        (fMEM_STATUS_CAPACITY, if off then 0 else cap)])
    ddr (ddr (hbm (hbm p 0) 1) 0) 1) p

/-- R412: one core that failed the short test, all of them being fenced. -/
def Pkg.shortFail (p : Pkg) (x : Nat × Option Nat) : Pkg :=
  let n := x.1 / 72
  let c := x.1 % 72
  let p := match (p.die n).logical c with
    | none => p.event { Event.blank 0x13 with die := n, pcore := c, action := 1 }
    | some lc =>
      match p.nextSpare n with
      | some s => ((p.bindTo n lc (some s)).event { Event.blank 0x91 with die := n, lcore := lc, pcore := c, detail := s }).katFail n lc c 3 0
      | none => (p.bindTo n lc none).katFail n lc c 49 0
  match x.2 with
  | some g => p.bypass n c g
  | none => p

/-- R17, R18: the logical cores of a die that no physical core stands behind; they take the spares that are there. -/
def Pkg.unbound (p : Pkg) (n : Nat) : List Nat := (List.range 64).filter (fun lc => ((p.die n).bind.find lc).isNone)
def Pkg.bindSpares (p : Pkg) (n : Nat) : Pkg :=
  (p.unbound n).foldl (fun p lc =>
    match p.nextSpare n with
    | some s => (p.bindTo n lc (some s)).event { Event.blank 0x91 with die := n, lcore := lc, detail := s }
    | none => p) p

/-- The short test of every functional core; one that passed counts as tested (R392, R412). With a die that cannot bind all 64 logical cores
the package is drained and flagged. -/
def Pkg.shortTests (p : Pkg) (o : BringUp) : Pkg :=
  let bad := o.failed.filter (fun x => p.present (x.1 / 72) && (p.die (x.1 / 72)).functional.contains (x.1 % 72))
  let p := bad.foldl (fun p x => p.fence (x.1 / 72) (x.1 % 72)) p
  let p := bad.foldl Pkg.shortFail p
  let p := (List.range p.board.dies).foldl Pkg.bindSpares p
  if (List.range p.board.dies).all (fun n => (p.unbound n).isEmpty) then p else p.drainFlag 0x12

/-- R392: the first due times, spread over the period from READY on. -/
def Pkg.firstDue (p : Pkg) : Pkg :=
  (List.range p.board.dies).foldl (fun p n =>
    let cs := (p.die n).functional
    cs.zipIdx.foldl (fun p x => p.updFw (fun f => { f with
      due := f.due.set (coreKey n x.1) ⟨p.ftc.now, x.2 + 1, cs.length⟩
      passed := f.passed.set (coreKey n x.1) p.ftc.now })) p) p

/-- R295: every lane group that exists and is switched on starts to train. -/
def Pkg.startTraining (p : Pkg) : Pkg := (List.range 4).foldl (fun p i => p.portCtrl i) p

def aReset : Nat := rHS_RESET_STATUS.at 0 0 0

/-- Steps 10 to 12 of R410, and 4 to 7 of R483, once firmware runs. -/
def Pkg.toReady (p : Pkg) (o : BringUp) : Pkg :=
  let cold := p.fw.cold
  let p := match p.fw.bootNote with | some e => (p.eventFrom e.ftc e).updFw (fun f => { f with bootNote := none }) | none => p
  let a := if p.fw.chosen then p.fw.area1 else p.fw.area0
  let p := p.updFw (fun f => { f with activeArea := f.chosen, compacting := false })
  let r := (Replay.run a.items (a.good ++ p.fw.jbuf ++ p.fw.jwait)).boot
  let p := p.restore r
  -- R458: one entry for an image that DOE supplied; what its VALUE holds is not stated (log 22)
  let p : Pkg := match (if p.fw.bootRam then p.fw.running else none) with
    | some i => let x := p.fresh; x.1.jput 4 4 4 false i.version (Config.freeNat x.2 % 2 ^ 32)
    | none => p
  -- R480: MGT_DEF where the store holds no entry for EN
  let en := rMGT_NET_CTRL.at 0 0 0
  let p := if (r.regs.find en).isNone then p.setFld en fMGT_NET_CTRL_EN (p.fld (rHS_STRAPS.at 0 0 0) fHS_STRAPS_MGT_DEF) else p
  let p := ((p.trainMem o).shortTests o).startTraining
  let p := p.after o.ticks
  let p := p.firstDue.updFw (fun f => { f with booted := true })
  match (if cold then none else o.recurs) with
  | some code =>
    let die := if 0x71 ≤ code && code ≤ 0x74 && p.present o.recursOn then some o.recursOn else none
    let p := match die with | some n => p.updDie n (fun d => { d with faulted := true }) | none => p
    (p.event { Event.blank code with die := die.getD 255, action := 48 }).drainFlag code
  | none =>
    if cold && !o.hbmBad.isEmpty then p
    else
      let cause := p.fld aReset fHS_RESET_STATUS_CAUSE
      -- R412: of a package that is drained already DRAINED reads 1
      let p := (p.setFld aReset fHS_RESET_STATUS_READY 1).drained
      let p := if cold || cause = 0x77 then p else p.updFw (fun f => { f with readies := p.ftc.now :: f.readies })
      p.event (Event.blank 0x93)

/-! Package reset. -/

/-- Step 6 of R410: entries that can be written are written, in the order of the table. -/
def Pkg.writeEntries (p : Pkg) : Pkg := (p.cmds.map Prod.fst).foldl (fun p k => p.completionEntry k) p

/-- R298: in steps 1 to 7 the torus ports forward frames in transit: those that wait in the input buffers leave, and ABORTs flood on. -/
def Pkg.transit : Nat → Pkg → Pkg
  | 0, p => p
  | fuel + 1, p =>
    match p.fab.inbox.zipIdx.find? (fun x => x.1.1 < 4 && p.takeable (p.fab.inbox.take x.2) x.1) with
    | none => p
    | some x =>
      let q : Pkg := { p with fab := { p.fab with inbox := listDel p.fab.inbox x.2 } }
      Pkg.transit fuel (if x.1.2.ty = 0x20 then q.abortFrame (5 + x.1.1) x.1.2 else q.leaveInput x.1.1 x.1.2 (fun p => p))

/-- R298, R305: what waits at the outputs leaves: in the time of steps 1 to 7 the neighbours acknowledge what they have received, and return its
credit (log 43). -/
def Port.acked (q : Port) : Port :=
  { q with sent := [], credit := [], groups := q.groups.map (fun g => (g.1, { g.2 with rtx := [] })) }
def Pkg.emptyOut (i : Nat) : Nat → Pkg → Pkg
  | 0, p => p
  | n + 1, p =>
    if (p.tport i).out.isEmpty && (p.tport i).again.isEmpty then p else Pkg.emptyOut i n ((p.updPort i Port.acked).serve i)
def Pkg.allOut (p : Pkg) : Pkg :=
  (List.range 4).foldl (fun p i => Pkg.emptyOut i ((p.tport i).out.length + (p.tport i).again.length) p) p

/-- Step 7 of R410: BISnpData for the lines that the host holds, and the data that it returns, where the link is up (R361); records that waited
for them; then every dirty line is written back. -/
def Pkg.quiesce (p : Pkg) (held : List (Nat × List Byte)) : Pkg :=
  let dies := List.range p.board.dies
  let p := if !p.linkUp then p
    else
      let p := dies.foldl (fun p n => (p.die n).held.foldl (fun p l => p.emit (.snoop l false)) p) p
      held.foldl (fun p x =>
        match p.owner x.1 with
        | some n => if (p.die n).held.contains (lineOf x.1) then { p.writeLine n (lineOf x.1) (x.2.take 64) 7 0 .absent with touched := none } else p
        | none => p) p
  let p := dies.foldl (fun p n => p.updDie n (fun d => { d with held := [], hostq := [] })) p
  let p := Pkg.landPosted p.posted.length p
  dies.foldl (fun p n => (p.die n).bcache.foldl (fun p e => if e.2.dirty || e.2.poisoned then p.writeBack n e.1 e.2 else p) p) p

/-- R319: the FTC counts on through a package reset; but for the grandmaster's it resumes in HOLDOVER. -/
def Pkg.ftcResumes (p : Pkg) (gm : Bool) : Pkg :=
  if gm then p
  else { p with ftc := { p.ftc with st := .holdover, parent := 7, depth := 255, good := 0, slew := 0, holdSince := p.ftc.now, unsyncReported := false } }

/-- Steps 8 and 9: the reset itself, the boot ROM, and the rest where firmware runs. -/
def Pkg.reboot (p : Pkg) (o : BringUp) (first : Option Event) : Pkg :=
  let lost := p.board.memLost
  let p := ((p.clear.ftcResumes (p.isGM && 4 ≤ p.ftc.parent)).updFw (fun f => { f with cold := false })).setFld aReset fHS_RESET_STATUS_MEM_LOST 0
  let p := if lost then p.memGone else p
  let p := (p.updFw (fun f => { f with bootNote := first })).bootRom
  if p.fw.waiting then p else p.toReady o

/-- PACKAGE_RESET (R410 to R413): the reset that is due runs, from step 1 to READY; `held`: what the host returns in step 7. It is one command
here: no frame arrives within it (log 43). -/
def Pkg.packageReset (p : Pkg) (held : List (Nat × List Byte)) (o : BringUp) : Pkg :=
  match p.fw.resetReq with
  | none => p
  | some cause =>
    let recent := p.fw.readies.filter (fun t => p.ftc.now < t + 3600 * ticksPerSecond)
    if cause ≠ 0x77 && 2 ≤ recent.length then (p.updFw (fun f => { f with resetReq := none })).drainFlag cause
    else
      let start := p.ftc.now
      let p := (p.setFld aReset fHS_RESET_STATUS_CAUSE cause).setFld aReset fHS_RESET_STATUS_READY 0
      let p := (p.bumpSat aReset fHS_RESET_STATUS_COUNT).setFld aReset fHS_RESET_STATUS_LOST 0
      let p := if cause = 0x77 then p.event { Event.blank 0x77 with action := 8 } else p
      let p := p.updFw (fun f => { f with inReset := true })
      let p := (List.range 16).foldl (fun p k =>
        if p.fld (aJob k) fFAB_JOB_STATE = 1 then p.sendAbort (p.fld (aJob k) fFAB_JOB_JOB) else p) p
      let p : Pkg := { p with cores := p.cores.map (fun e => (e.1, { e.2 with seq := { e.2.seq with stopping := true } })) }
      let p := (Pkg.transit p.fab.inbox.length p).allOut
      let p := (p.snapshot cause).shavings o.shaved
      let p := (p.cmds.map Prod.fst).foldl (fun p k => p.finish k 9 cause start) p
      let p := p.writeEntries
      let p := if p.cmds.isEmpty then p else p.setFld aReset fHS_RESET_STATUS_LOST 1
      -- R429: the traces of the event records sent so far
      (p.quiesce held).settle.reboot o none

/-- FW_WATCHDOG (R409): the hardware resets the package. -/
def Pkg.fwWatchdog (p : Pkg) (held : List (Nat × List Byte)) (o : BringUp) : Pkg :=
  if p.fw.running.isNone then p
  else
    let e : Event := { Event.blank 0x76 with action := 8, ftc := p.ftc.now }
    let p := (p.setFld aReset fHS_RESET_STATUS_CAUSE 0x76).setFld aReset fHS_RESET_STATUS_READY 0
    let p := ((p.bumpSat aReset fHS_RESET_STATUS_COUNT).setFld aReset fHS_RESET_STATUS_LOST 1).setFld aReset fHS_RESET_STATUS_FLASH_SHAV 0
    (p.quiesce held).reboot o (some e)

/-! Cold reset and bring-up. -/

/-- COLD_RESET (R475, R481, R482): PKG_RST_N or PKG_PWROK goes low. Only Milnik, the flash, the fuses and the board stand;
journal entries not yet in flash are lost (R454). -/
def Pkg.coldReset (p : Pkg) (pwrok : Bool) : Pkg :=
  let p := p.clear
  let p : Pkg := { p with
    regs := [], ftc := Ftc.reset, port := HostPort.reset p.port.top, fab := { Fabric.reset with fill := p.fab.fill }
    mgt := ⟨false, none⟩
    dies := p.dies.map (fun e => (e.1, { e.2 with baseMv := 750, setMv := 750 }))
    board := { p.board with rstN := false, pwrok := pwrok && p.board.pwrok, thermTrip := false } }
  (p.updFw (fun f => { f with jbuf := [], jwait := [], jseq := f.jseq - f.jbuf.length - f.jwait.length, eventSeq := 0, readies := [], cold := true, diag := [], diagSeq := 0 })).memGone

/-- R356: the host link trains at 64 or 32 GT/s and x16 or x8; at anything else it stays down. -/
def HostPort.train (h : HostPort) (speed width : Nat) : HostPort :=
  if (speed = 1 || speed = 2) && (width = 8 || width = 16) then { h with speed := speed, width := width } else { h with speed := 0, width := 0 }

/-- BRING_UP (R480, R483): the release of PKG_RST_N, or, in the boot wait, the steps that follow once a supplied image runs. The FTC starts at
the release (R319): a grandmaster's at FTC_INIT, whose reset value is 0, as every other does. -/
def Pkg.bringUp (p : Pkg) (o : BringUp) : Pkg :=
  if !p.board.pwrok then p
  else if !p.board.rstN then
    let p := { p with board := { p.board with rstN := true }, ftc := { p.ftc with now := p.rd64 (rFTC_INIT.at 0 0 0) }
                      port := p.port.train (if p.board.perstN then o.speed else 0) o.width }
    let p := p.wr (rHS_STRAPS.at 0 0 0) (putFlds 0#32 [(fHS_STRAPS_X, o.x), (fHS_STRAPS_Y, o.y), (fHS_STRAPS_FW_WAIT, flag01 o.fwWait),
      (fHS_STRAPS_MGT_DEF, flag01 o.mgtDef), (fHS_STRAPS_TEST_N, flag01 o.testN)])
    let p := (p.setFld aCoord fFAB_COORD_PX o.x).setFld aCoord fFAB_COORD_PY o.y
    let p := p.bootRom
    if p.fw.waiting then p else p.toReady o
  else if p.fw.running.isSome && !p.fw.booted then p.toReady o
  else p

end Sys2Proof.Machine
end

