-- ==== Sys2Proof/Machine/Board.lean ====
section
/-! DEFINITION. Board events: supplies (R49, R473 to R476), temperature (R477), reference clocks (R478, R479), the host port's
reset and link (R357, R481, R482), dovetail links (R21), and PKG_ALERT_N (R471). -/
namespace Sys2Proof.Machine

/-- PKG_PWROK (R474): the board asserts it once every rail of stage 5 is within tolerance. -/
def Pkg.pwrok (p : Pkg) : Pkg := { p with board := { p.board with pwrok := true } }

/-- The package runs (PKG_PWROK and PKG_RST_N high). -/
def Pkg.powered (p : Pkg) : Bool := p.board.pwrok && p.board.rstN

/-- R357: the host link is lost. -/
def Pkg.linkLost (p : Pkg) : Pkg :=
  if !p.linkUp then p
  else ({ p with port := { p.port with speed := 0, width := 0, ide := false } }).packageFault 0x75 none

/-- HOST_LINK: the link layer has retried flits, of any transfer, `retries` times; where it is then `lost`, it has given up, or an IDE integrity
check has failed (R357). -/
def Pkg.hostLink (p : Pkg) (retries : Nat) (lost : Bool) : Pkg :=
  if !p.linkUp then p else if lost then (p.retried retries).linkLost else p.retried retries

/-- HOST_PORT_RESET (R481): CXL_PERST_N goes low; the port, configuration space and the component registers reset. -/
def Pkg.hostPortReset (p : Pkg) : Pkg :=
  let p : Pkg := { p with board := { p.board with perstN := false } }
  let p := p.linkLost
  { p with regs := p.regs.filter (fun e => !(0x180000 ≤ e.1 && e.1 < 0x188000))
           port := { HostPort.reset p.port.top with bells := p.port.bells, lastRing := p.port.lastRing } }

/-- CXL_PERST_N_RELEASE (R482): CXL_PERST_N rises, and the port trains where the package is out of cold reset. -/
def Pkg.perstRelease (p : Pkg) (speed width : Nat) : Pkg :=
  if p.board.perstN then p
  else
    let p : Pkg := { p with board := { p.board with perstN := true } }
    if p.powered then { p with port := p.port.train speed width } else p

/-- THERM_TRIP (R477): asserted until PKG_RST_N is. -/
def Pkg.thermTrip (p : Pkg) : Pkg := if p.board.pwrok then { p with board := { p.board with thermTrip := true } } else p

/-- VR_ALERT (R476, R484). -/
def Pkg.vrAlert (p : Pkg) (on : Bool) : Pkg := { p with board := { p.board with vrAlert := on } }

/-- R476: rails that PMBus reads; one out of tolerance, and whether it is below. -/
inductive Rail where
  | aux | hs | dt | fab | ddrio
  | hbm (die stack : Nat)
  deriving DecidableEq, Repr

def Rail.ofMemory : Rail → Bool
  | .ddrio | .hbm .. => true
  | _ => false

/-- PMBUS_POLL (R475, R476): 1 ms on, every non-core rail is read; the first one out of tolerance starts a package reset. -/
def Pkg.pmbusPoll (p : Pkg) (out : List (Rail × Bool)) : Pkg :=
  out.foldl (fun p x =>
    let p : Pkg := if x.1.ofMemory then { p with board := { p.board with memLost := true } } else p
    p.packageFault (if x.2 then 0x71 else 0x72) (match x.1 with | .hbm n _ => some n | _ => none)) (p.after 1000000)

/-! R49: the rail monitor of VDD_CDn. -/
def Pkg.railUnder (p : Pkg) (n : Nat) : Pkg := if p.present n then p.packageFault 0x71 (some n) else p
def Pkg.railOver (p : Pkg) (n : Nat) : Pkg := if p.present n then p.packageFault 0x72 (some n) else p

/-- DOVETAIL (R21): a link of die `n` fails. -/
def Pkg.dovetailFail (p : Pkg) (n : Nat) : Pkg := if p.present n then p.packageFault 0x74 (some n) else p

/-- R479: the reference clocks. -/
inductive Clk where
  | cxl | ftc
  | fab (die : Nat)
  | hbm (die : Nat)
  | ddr (die : Nat)
  deriving DecidableEq, Repr

def Clk.bit : Clk → Nat
  | .cxl => 0 | .ftc => 1 | .fab _ => 2 | .hbm _ => 3 | .ddr _ => 4

/-- R479: the contents of a range become unpredictable. -/
def Pkg.scrambleMem (p : Pkg) (lo hi : Nat) : Pkg :=
  let x := p.fresh
  { x.1 with mem := p.mem.scramble lo hi (2 ^ 43 + x.2), badLines := p.badLines.delRange lo hi, board := { p.board with memLost := true } }

/-- CLK_LOST (R479). -/
def Pkg.clkLost (p : Pkg) (c : Clk) : Pkg :=
  if !p.powered then p
  else
    let old := p.fld aPower fHS_POWER_STATUS_CLK_LOST
    let p := p.setFld aPower fHS_POWER_STATUS_CLK_LOST (old ||| 2 ^ c.bit)
    match c with
    | .cxl => p.linkLost
    | .ftc => p.ftcLoss
    | .fab n => (List.range 4).foldl (fun p i => (List.range (groupCount p.board.dies)).foldl (fun p g =>
        if groupDie p.board.dies i g = n then p.laneGroupDown i g else p) p) p
    | .hbm n => ({ p with board := { p.board with clkGone := (3, n) :: p.board.clkGone } }).scrambleMem (hbmBase n) (hbmBase (n + 1))
    | .ddr n => ({ p with board := { p.board with clkGone := (4, n) :: p.board.clkGone } }).scrambleMem (ddrBase n) (ddrBase (n + 1))

/-- R471: the pins that a package in reset drives low: DDRn_RST_N and XSPI_RST_N. `true`: high. -/
def Pkg.memRstN (p : Pkg) : Bool := p.powered

/-- R471: PKG_ALERT_N is asserted. -/
def Pkg.alert (p : Pkg) : Bool :=
  p.fld aHealth fHS_HEALTH_FLAGGED = 1 || p.fw.resetReq.isSome || (!p.fw.booted && !p.fw.cold) || p.fld aPower fHS_POWER_STATUS_CLK_LOST ≠ 0

end Sys2Proof.Machine
end

