-- ==== Sys2Proof/Machine/Observe.lean ====
section
/-! DEFINITION. Samples of the counters (R424 to R427). -/
namespace Sys2Proof.Machine

def aSmpCtrl : Nat := rOBS_SMP_CTRL.at 0 0 0
def aSmpHead : Nat := rOBS_SMP_HEAD.at 0 0 0
def aSmpStatus : Nat := rOBS_SMP_STATUS.at 0 0 0

/-- R425: the section of die `n`: 1,088 bytes. -/
def Pkg.dieSection (p : Pkg) (n : Nat) : List Byte :=
  toBytes 1 n ++ toBytes 3 0 ++ toBytes 4 (p.ownWord (rCD_MAP_GEN.at n 0 0)).toNat
    ++ toBytes 4 (p.ownWord (rCD_BEAT_RATE.at n 0 0)).toNat ++ toBytes 4 (p.ownWord (rCD_VSTATUS.at n 0 0)).toNat ++ toBytes 48 0
    ++ (List.range 4).flatMap (fun s => (List.range 32).flatMap (fun i => toBytes 8 (p.setCounter n s i)))

/-- R425: the section of a logical core: 320 bytes; of an unbound one only the binding is there. -/
def Pkg.coreSection (p : Pkg) (n lc : Nat) : List Byte :=
  match (p.die n).bind.find lc with
  | none => toBytes 1 n ++ toBytes 1 lc ++ toBytes 1 0x7F ++ toBytes 317 0
  | some pc =>
    let c := p.core (coreKey n pc)
    toBytes 1 n ++ toBytes 1 lc ++ toBytes 1 pc ++ toBytes 1 0 ++ toBytes 4 c.seq.tag ++ toBytes 2 c.seq.ids.layer
      ++ toBytes 2 c.seq.ids.op ++ toBytes 4 (p.ownWord (rCORE_SEQ_STATUS.at n pc 0)).toNat ++ toBytes 48 0
      ++ (List.range 32).flatMap (fun i => toBytes 8 (c.counter p.ftc.now i))

/-- R425: the record of the sample that is taken now. -/
def Pkg.sampleRecord (p : Pkg) : List Byte :=
  let cores := p.fld aSmpCtrl fOBS_SMP_CTRL_CORES
  let dies := List.range p.board.dies
  let body := dies.flatMap p.dieSection ++
    (if cores = 1 then dies.flatMap (fun n => (List.range 64).flatMap (fun c => p.coreSection n c)) else [])
  toBytes 4 0x3153424F ++ toBytes 4 p.fw.smpSeq ++ toBytes 8 p.ftc.now ++ toBytes 2 p.coord
    ++ toBytes 1 (cores + (if p.ftc.st = .locked then 0 else 2)) ++ toBytes 1 (2 ^ p.board.dies - 1) ++ toBytes 4 (64 + body.length)
    ++ toBytes 40 0 ++ body

/-- A sample that is not written. -/
def Pkg.dropSample (p : Pkg) : Pkg := p.bumpSat aSmpStatus fOBS_SMP_STATUS_DROPPED

/-- R426: the record goes into the ring, after a pad where it would cross the ring's end. It is dropped where the ring is full, or lies in host
memory that is out of reach (R357, log 44). -/
def Pkg.putSample (p : Pkg) (r : List Byte) : Pkg :=
  let size := 2 ^ clampTo 20 31 (p.fld aSmpCtrl fOBS_SMP_CTRL_SIZE_LOG2)
  let head := p.headNow aSmpHead
  let tail := p.fld (rOBS_SMP_TAIL.at 0 0 0) fOBS_SMP_TAIL_TAIL
  let used := (head + 2 ^ 32 - tail) % 2 ^ 32
  let off := head % size
  let pad := if size < off + r.length then size - off else 0
  let sp := p.fld aSmpCtrl fOBS_SMP_CTRL_SP
  let base := p.rd64 (rOBS_SMP_BASE.at 0 0 0)
  if size < used + pad + r.length || !p.ringOpen sp then p.dropSample
  else
    let p := if pad = 0 then p else p.ringWrite sp (base + off) (toBytes 4 0x5053424F ++ toBytes 16 0 ++ toBytes 4 pad ++ toBytes 40 0) none
    (p.ringWrite sp (base + (off + pad) % size) r (some (aSmpHead, (head + pad + r.length) % 2 ^ 32))).bumpWrap aSmpStatus fOBS_SMP_STATUS_SAMPLES

/-- Samples are taken. -/
def Pkg.sampling (p : Pkg) : Bool := p.fld aSmpCtrl fOBS_SMP_CTRL_INTERVAL ≠ 0 && p.fld aSmpCtrl fOBS_SMP_CTRL_SIZE_LOG2 ≠ 0
/-- R424, R427: the next sampling tick: a multiple of INTERVAL × 1,000 ticks, under the fields in effect until then. -/
def Pkg.sampleTick (p : Pkg) : Option Nat :=
  match p.oldTick with
  | some t => some t
  | none =>
    let step := sampleStep (p.fld aSmpCtrl fOBS_SMP_CTRL_INTERVAL)
    if p.sampling then some ((p.ftc.now / step + 1) * step) else none

/-- SAMPLE: the next sampling tick is reached, and committed fields take effect; `late`: the sample before is not yet written (R424). -/
def Pkg.sample (p : Pkg) (late : Bool) : Pkg :=
  match p.sampleTick with
  | none => p
  | some t =>
    let p := (p.until t).updFw (fun f => { f with smpOld := none })
    if !p.sampling then p
    else if late then p.dropSample
    else
      let r := p.sampleRecord
      (p.updFw (fun f => { f with smpSeq := (f.smpSeq + 1) % 2 ^ 32, lastSample := r })).putSample r

end Sys2Proof.Machine
end

