-- ==== Sys2Proof/Machine/Manage.lean ====
section
/-! DEFINITION. Management messages (R438 to R442), the firmware protocol (R444 to R449), attestation (R450 to R452) and the
DOE mailbox (R364). Where the fields of firmware and attestation bodies lie is the model's own (log 21). -/
namespace Sys2Proof.Machine

/-- Whether a request on a transport is answered (R438, R439, R442, R446): over DOE while the host link is up. -/
def Pkg.hears (p : Pkg) : Chan → Bool
  | .doe => p.linkUp
  | .udp => p.mayReach .udp
  | .mctp => p.mayReach .mctp
def Chan.origin : Chan → Origin
  | .doe => .bar0 | .udp => .udp | .mctp => .mctp
/-- R453: ORIGIN of a journal entry. -/
def Chan.jorigin : Chan → Nat
  | .doe => 4 | .udp => 1 | .mctp => 2

/-! Register access and events (R442). -/

/-- The words of a REG_READ, in ascending order, each as a 32-bit access of its port. -/
def Pkg.readRegs (m : Milnik) (o : Origin) (a : Nat) : Nat → Pkg → List Byte → Pkg × List Byte
  | 0, p, acc => (p, acc)
  | n + 1, p, acc => let x := p.readReg m o a; Pkg.readRegs m o (a + 4) n x.1 (acc ++ toBytes 4 x.2.toNat)

/-- REG_READ, and a request of a TYPE that R441 does not list. -/
def Pkg.regRead (p : Pkg) (m : Milnik) (c : Chan) (tag off count ty : Nat) : Pkg :=
  if c = .doe || !p.hears c then p
  else if ty = 0 || 7 < ty then p.respond c ty 1 tag []
  else if count = 0 || 256 < count then p.respond c 1 2 tag []
  else let x := Pkg.readRegs m c.origin (off / 4 * 4) count p []; x.1.respond c 1 0 tag x.2

/-- The words of a REG_WRITE; the last one answers. -/
def Pkg.writeRegs (o : Origin) (tag : Nat) : List Word → Nat → Pkg → Pkg
  | [], _, p => p
  | v :: vs, a, p => Pkg.writeRegs o tag vs (a + 4) (p.arbiter ⟨a, 4, v.toNat, o, if vs.isEmpty then some tag else none⟩)

/-- REG_WRITE. -/
def Pkg.regWrite (p : Pkg) (c : Chan) (tag off : Nat) (ws : List Word) : Pkg :=
  if c = .doe || !p.hears c then p
  else if ws.isEmpty || 256 < ws.length then p.respond c 2 2 tag []
  else Pkg.writeRegs c.origin tag ws (off / 4 * 4) p

/-- R442: records that wait are sent while a collector has fewer than 256 unacknowledged. -/
def Pkg.sendWaiting (p : Pkg) (k : Nat) : Pkg :=
  match (if p.fw.sentTo k < 256 then p.fw.unacked.find? (fun u => u.1 = k && u.2.2 = 0) else none) with
  | some u => (p.updFw (fun f => { f with unacked := f.unacked.map (fun v => if v = u then (k, u.2.1, 1) else v) })).sendEvent k u.2.1
  | none => p

/-- EVENT: collector `k` acknowledges record `seq`. -/
def Pkg.eventAck (p : Pkg) (k seq : Nat) : Pkg :=
  if !p.hears .udp || !p.fw.unacked.any (fun u => u.1 = k && u.2.1 = seq && u.2.2 ≠ 0) then p
  else (p.updFw (fun f => { f with unacked := f.unacked.filter (fun u => !(u.1 = k && u.2.1 = seq)) })).sendWaiting k

/-- EVT_READ. -/
def Pkg.evtRead (p : Pkg) (c : Chan) (tag first count : Nat) : Pkg :=
  if c = .doe || !p.hears c then p
  else if count = 0 || 16 < count then p.respond c 4 2 tag []
  else
    let es := (List.range count).filterMap (fun i => p.fw.record (first + i))
    if es.length = count then p.respond c 4 0 tag (es.flatMap Event.bytes) else p.respond c 4 4 tag []

/-- JRNL_READ: entries of the active area. -/
def Pkg.jrnlRead (p : Pkg) (c : Chan) (tag first count : Nat) : Pkg :=
  if c = .doe || !p.hears c then p
  else if count = 0 || 32 < count then p.respond c 5 2 tag []
  else
    let es := (List.range count).filterMap (fun i => p.areaNow.good.find? (fun e => e.seq = (first + i) % 2 ^ 32))
    if es.length = count then p.respond c 5 0 tag (es.flatMap JEntry.bytes) else p.respond c 5 4 tag []

/-! The firmware protocol (R447). -/

/-- R446, R452: what is served: firmware runs, or, over DOE, the boot ROM waits. -/
def Pkg.fwHears (p : Pkg) (c : Chan) : Bool := p.hears c && (p.served || (c = .doe && p.fw.waiting))

def Pkg.fwReply (p : Pkg) (c : Chan) (tag status : Nat) (body : List Byte) : Pkg :=
  if c = .doe then p.emit (.response .doe (toBytes 1 status ++ body)) else p.respond c 6 0 tag (toBytes 1 status ++ body)

/-- The largest image, header and body. -/
def bufferBytes : Nat := 0x1000000

/-- BEGIN. -/
def Pkg.fwBegin (p : Pkg) (c : Chan) (tag len : Nat) : Pkg :=
  if !p.fwHears c then p
  else if p.fw.transfer.any (fun t => !(t.chan = c)) then p.fwReply c tag 4 []
  else if bufferBytes < len then p.fwReply c tag 3 []
  else (p.updFw (fun f => { f with transfer := some ⟨c, len, []⟩ })).fwReply c tag 0 []

/-- DATA. -/
def Pkg.fwData (p : Pkg) (c : Chan) (tag off : Nat) (bs : List Byte) : Pkg :=
  if !p.fwHears c then p
  else
    match p.fw.transfer with
    | none => p.fwReply c tag 6 []
    | some t =>
      if t.chan ≠ c then p.fwReply c tag 4 []
      else if bs.isEmpty || (if c = .doe then 4096 else 1024) < bs.length || t.length < off + bs.length then p.fwReply c tag 3 []
      else (p.updFw (fun f => { f with transfer := some { t with buf := t.buf.setRun off bs } })).fwReply c tag 0 []

/-- The buffer's bytes; one that no DATA has written is free (log 7). -/
def Transfer.bytes (t : Transfer) : List Byte :=
  (List.range t.length).map (fun i => match t.buf.find i with | some b => b | none => Config.freeByte 2 i)

/-- R448: how the write of the firmware region goes: it stands, its check fails, or a reset or loss of power cuts it. -/
inductive FlashWrite where
  | good | bad | cut
  deriving DecidableEq, Repr

/-- END. -/
def Pkg.fwEnd (p : Pkg) (c : Chan) (tag : Nat) (w : FlashWrite) : Pkg :=
  if !p.fwHears c then p
  else
    match p.fw.transfer with
    | none => p.fwReply c tag 6 []
    | some t =>
      if t.chan ≠ c then p.fwReply c tag 4 []
      else
        let b := t.bytes
        let st := imageStatus p.fw.revoked p.fw.minSvn b
        let p := p.updFw (fun f => { f with transfer := none })
        if st ≠ 0 then p.fwReply c tag st []
        else if p.fw.waiting then (p.fwReply c tag 0 []).runImage (Image.ofBytes b) true
        else
          let img := Image.ofBytes b
          match w with
          | .cut => p.updFw (fun f => { f with image := none })
          | _ =>
            let ok := w = .good
            let p := (p.updFw (fun f => { f with image := if ok then some img else none })).fwReply c tag (if ok then 0 else 5) []
            let x := p.fresh
            x.1.jput 4 c.jorigin 4 false img.version (Config.freeNat x.2 % 2 ^ 32)

/-- STATUS: MGT_BOOT, the running VERSION and SVN, and the bytes received of a transfer. -/
def Pkg.fwStatus (p : Pkg) (c : Chan) (tag : Nat) : Pkg :=
  if !p.fwHears c then p
  else p.fwReply c tag 0 (toBytes 4 (p.ownWord (rMGT_BOOT.at 0 0 0)).toNat ++ toBytes 4 ((p.fw.running.map Image.version).getD 0)
    ++ toBytes 4 ((p.fw.running.map Image.svn).getD 0) ++ toBytes 4 ((p.fw.transfer.map (fun t => t.buf.length)).getD 0))

/-- LOCK_SVN (R449). -/
def Pkg.lockSvn (p : Pkg) (c : Chan) (tag : Nat) : Pkg :=
  if !p.fwHears c then p
  else
    match (if p.fw.waiting || p.fw.bootRam then none else p.fw.running) with
    | none => p.fwReply c tag 6 []
    | some i =>
      let m := max p.fw.minSvn i.svn
      ((p.updFw (fun f => { f with minSvn := m })).jput 4 c.jorigin 4 false i.version m).fwReply c tag 0 []

/-! Attestation (R450 to R452). -/

def Pkg.attReply (p : Pkg) (c : Chan) (tag status : Nat) (body : List Byte) : Pkg :=
  if c = .doe then p.emit (.response .doe body) else p.respond c 7 status tag body

/-- GET_CERT: the response to OFFSET 0 also gives the total length. -/
def Pkg.getCert (p : Pkg) (c : Chan) (tag off len : Nat) : Pkg :=
  if !p.hears c || !p.served then p
  else if len = 0 || 1024 < len then p.attReply c tag 2 []
  else p.attReply c tag 0 ((if off = 0 then toBytes 4 Config.deviceChain.length else []) ++ (Config.deviceChain.drop off).take len)

/-- GET_MEAS: the measurements of MASK, signed with NONCE and COUNTER. -/
def Pkg.getMeas (p : Pkg) (c : Chan) (tag : Nat) (nonce : List Byte) (mask : Nat) : Pkg :=
  if !p.hears c || !p.served then p
  else
    let n := p.fw.measCounter + 1
    let entries := p.fw.measures.zipIdx.flatMap (fun x => if mask / 2 ^ x.2 % 2 = 1 then toBytes 1 x.2 ++ x.1 else [])
    let body := entries ++ nonce ++ toBytes 1 (flag01 p.fw.bootRam) ++ toBytes 8 n
    let sig := Config.deviceSign (Config.sha384 (nonce ++ toBytes 4 mask ++ body))
    (p.updFw (fun f => { f with measCounter := n })).attReply c tag 0 (body ++ sig)

/-! DOE (R364). -/

/-- R364, R446: the protocols served, by their place in the table of R364. -/
def Pkg.doeProtocols (p : Pkg) : List Nat := if p.fw.waiting then [0, 3] else if p.served then [0, 1, 2, 3, 4] else []

/-- R364: the vendor and type of a protocol: Discovery is type 0x00 of the PCI-SIG and CDAT type 0x02 of the CXL Consortium (PRESUMED, log 21);
Tautal's are 0x01 and 0x02; IDE_KM's are its standard's. -/
def doeName (k : Nat) : List Byte :=
  match k with
  | 0 => toBytes 2 0x0001 ++ [0x00#8]
  | 1 => toBytes 2 0x1E98 ++ [0x02#8]
  | 3 => toBytes 2 (Config.vendorId).toNat ++ [0x01#8]
  | 4 => toBytes 2 (Config.vendorId).toNat ++ [0x02#8]
  | k => toBytes 3 (Config.doeProtocol k).toNat

/-- DOE_DISCOVERY: the protocol at an index, and the index that follows, or 0 at the end. -/
def Pkg.doeDiscovery (p : Pkg) (i : Nat) : Pkg :=
  let l := p.doeProtocols
  if !p.linkUp || l.isEmpty then p
  else p.emit (.doe (match l[i]? with
    | some k => doeName k ++ toBytes 1 (if i + 1 < l.length then i + 1 else 0)
    | none => doeName 5 ++ toBytes 1 0))

/-- R364: the ranges of CDAT: HBM4, DDR5 where populated, bench windows; each as handle, base and length. -/
def Pkg.cdatRanges (p : Pkg) : List (Nat × Nat × Nat) :=
  (List.range p.board.dies).flatMap (fun n =>
    let hbm : List (Nat × Nat × Nat) := [(3 * n, hbmBase n, 0x3000000000)]
    let ddr : List (Nat × Nat × Nat) := if p.ddrBytes n = 0 then [] else [(3 * n + 1, ddrBase n, p.ddrBytes n)]
    let bench : List (Nat × Nat × Nat) := [(3 * n + 2, benchBase n 0, 0x10000000)]
    hbm ++ ddr ++ bench)

/-- A latency or bandwidth entry of CDAT, a DSLBIS (log 21): handle, data type, base unit, value. -/
def dslbis (handle type unit v : Nat) : List Byte :=
  toBytes 1 1 ++ toBytes 1 0 ++ toBytes 2 24 ++ toBytes 1 handle ++ toBytes 1 0 ++ toBytes 1 type ++ toBytes 1 0 ++ toBytes 8 unit
    ++ toBytes 2 v ++ toBytes 6 0

/-- DDR5 channels that a die maps (R216). -/
def Pkg.ddrChannels (p : Pkg) (n : Nat) : Nat :=
  ([2, 3].filter (fun m => p.fld (rMEM_STATUS.at n m 0) fMEM_STATUS_CAPACITY ≠ 0)).length

/-- R24, R215, and chapter 6 under R190: HBM4 320 ns and 5.12 TB/s; DDR5 420 ns and 51.2 GB/s a channel. Read latency (type 1) in ns, bandwidth
(type 3) in units of 100 MB/s. -/
def Pkg.cdatRates (p : Pkg) (handle : Nat) : List Byte :=
  if handle % 3 = 0 then dslbis handle 1 1000 320 ++ dslbis handle 3 100 51200
  else if handle % 3 = 1 then dslbis handle 1 1000 420 ++ dslbis handle 3 100 (512 * p.ddrChannels (handle / 3))
  else Config.cdatPerformance handle

/-- CDAT: a DSMAS entry for each range, and its latency and bandwidth entries. -/
def Pkg.cdat (p : Pkg) : Pkg :=
  if !p.linkUp || !p.served then p
  else p.emit (.doe (p.cdatRanges.flatMap (fun r =>
    toBytes 1 0 ++ toBytes 1 0 ++ toBytes 2 24 ++ toBytes 1 r.1 ++ toBytes 3 0 ++ toBytes 8 r.2.1 ++ toBytes 8 r.2.2
      ++ p.cdatRates r.1)))

/-- IDE_KM: keys are set on the host link, or IDE is taken off it. -/
def Pkg.ideKm (p : Pkg) (on : Bool) : Pkg :=
  if !p.linkUp || !p.served then p
  else ({ p with port := { p.port with ide := on } }).emit (.doe (doeName 2))

/-! The management port's link and IP (R438), and I3C (R439). -/

/-- The port's IPv6 address. -/
def Pkg.netAddr (p : Pkg) : Nat :=
  (List.range 4).foldl (fun t w => t + (p.rd (rMGT_NET_ADDR.at 0 0 0 + 4 * w)).toNat * 2 ^ (32 * w)) 0

/-- NEIGHBOUR_DISCOVERY: a solicitation for `target`. -/
def Pkg.neighbourDiscovery (p : Pkg) (target : Nat) : Pkg :=
  if p.hears .udp && target = p.netAddr then p.emit (.net 0 (toBytes 16 p.netAddr)) else p

/-- ICMPV6_ECHO: a request to the port's address. -/
def Pkg.icmpEcho (p : Pkg) (data : List Byte) : Pkg := if p.hears .udp then p.emit (.net 1 data) else p

/-- ENTDAA. -/
def Pkg.entdaa (p : Pkg) (addr : Nat) : Pkg := if p.served then { p with mgt := { p.mgt with i3cAddr := some (addr % 128) } } else p

/-- MANAGEMENT_PORT_LINK. -/
def Pkg.mgtLink (p : Pkg) (up : Bool) : Pkg := if p.powered then { p with mgt := { p.mgt with linkUp := up } } else p

end Sys2Proof.Machine
end

