-- ==== Sys2Proof/Machine/Scalar.lean ====
section
/-! DEFINITION. The SCA slot (R147, R156) and the LDS slot (R148, R140) on one core. Every meaning reads its sources in
the issue beat and schedules its result (R136). -/
namespace Sys2Proof.Machine

/-- R147: an SCA result for S[D], visible after `lat` beats. -/
def Core.sca (c : Core) (lat d : Nat) (v : Dword) : Core := c.schedule 1 lat (.s d v)

def scaAdd (x y : Dword) : Dword := x + y
def scaSub (x y : Dword) : Dword := x - y
def scaAnd (x y : Dword) : Dword := x &&& y
def scaOr (x y : Dword) : Dword := x ||| y
def scaXor (x y : Dword) : Dword := x ^^^ y
/-- R147: shifts by operand [5:0]. -/
def scaShl (x y : Dword) : Dword := x <<< (y.toNat % 64)
def scaShr (x y : Dword) : Dword := x >>> (y.toNat % 64)
def scaSar (x y : Dword) : Dword := x.sshiftRight (y.toNat % 64)
def scaMul (x y : Dword) : Dword := x * y
def scaMin (x y : Dword) : Dword := if x.slt y then x else y
def scaMax (x y : Dword) : Dword := if x.slt y then y else x
def scaSlt (x y : Dword) : Dword := if x.slt y then 1#64 else 0#64
def scaSeq (x y : Dword) : Dword := if x = y then 1#64 else 0#64
/-- R147: IMM32 in the high word, the low word of S[A]. -/
def scaMovhi (a : Dword) (v : Word) : Dword := v ++ a.truncate 32

/-- R156: the iteration index of a loop level, 0 where fewer are active. -/
def Core.lidx (c : Core) (d : Nat) : Dword :=
  match c.seq.loops[d % 4]? with
  | some l => BitVec.ofNat 64 l.index
  | none => 0#64

/-- R148: VLD, SLD and VLDB read the bench in their issue beat. An uncorrectable word raises CORE_UE (R177). -/
def Core.vld (c : Core) (r a off : Nat) : Core :=
  let p := c.benchAddr a off
  (c.noteUE (c.benchBad p 256)).schedule 2 6 (.v r 0 (bytesLanes (fun k => c.bench.read (p + k)) 64))

def Core.sld (c : Core) (r a off : Nat) : Core :=
  let p := c.benchAddr a off
  (c.noteUE (c.benchBad p 8)).schedule 2 4 (.s r (BitVec.ofNat 64 (c.bench.field p 8)))

def Core.vldb (c : Core) (r a off : Nat) : Core :=
  let p := c.benchAddr a off
  (c.noteUE (c.benchBad p 4)).schedule 2 6 (.v r 0 (List.replicate 64 (BitVec.ofNat 32 (c.bench.field p 4))))

/-- R140, R148: stores are complete at the end of their issue beat. -/
def Core.vst (c : Core) (r a off : Nat) : Core := c.benchWr (c.benchAddr a off) (lanesBytes (c.rdV r))
def Core.sst (c : Core) (r a off : Nat) : Core := c.benchWr (c.benchAddr a off) (toBytes 8 (c.rdS r).toNat)

end Sys2Proof.Machine
end

