-- ==== Sys2Proof/Machine/Vector.lean ====
section
/-! DEFINITION. The VEC slot (R149, R120, R121) and the ROW slot (R150, R122) on one core. -/
namespace Sys2Proof.Machine

/-- R139, R149: a VEC result for V[D]; R420: 64 lane operations are counted. -/
def Core.vec (c : Core) (lat d : Nat) (v : List Word) : Core :=
  (c.schedule 3 lat (.v d 0 v)).countAs c.seq.ids 16 64

/-- A lane-wise operation on two registers. -/
def Core.lanes2 (c : Core) (f : Word → Word → Word) (a b : Nat) : List Word := List.zipWith f (c.rdV a) (c.rdV b)

/-- A × B + C in each lane, rounded once. -/
def Core.lanesFma (c : Core) (a b d : Nat) : List Word :=
  (List.range 64).map (fun l => ffma (c.lane a l) (c.lane b l) (c.lane d l))

/-- R149: A where C is non-zero in its bits, B elsewhere. -/
def Core.lanesSel (c : Core) (a b d : Nat) : List Word :=
  (List.range 64).map (fun l => if c.lane d l = 0#32 then c.lane b l else c.lane a l)

/-- R149: the exact value of lane `l` of a register that holds packed elements of a format. -/
def laneFV (e : Elem) (r : List Word) (l : Nat) : FV := elemFV e (unpack e.bitsOf (laneByte r) l) 127

/-- R149, R114, R115, R117: A converted from one format code to another, packed from byte 0, the rest 0. -/
def Core.cvtLanes (c : Core) (a src dst : Nat) (key : Option Nat) : List Word :=
  let r := c.rdV a
  natLanes (packNat (fmtOf dst).bitsOf
    ((List.range 64).map (fun l => convTo (fmtOf dst) (skRnd (key.map c.rdSK) 0 l) (laneFV (fmtOf src) r l))))

/-- R107, R117, R149: two MX blocks; elements from byte 0, scales at bytes 192 and 193. -/
def Core.mxLanes (c : Core) (a fmt : Nat) (key : Option Nat) : List Word :=
  let e := fmtOf fmt
  let x (l : Nat) : FV × Rnd := (f32 (c.lane a l), skRnd (key.map c.rdSK) 0 l)
  let b0 := mxEncode e ((List.range 32).map x)
  let b1 := mxEncode e ((List.range 32).map (fun l => x (32 + l)))
  natLanes (packNat e.bitsOf (b0.2 ++ b1.2) + b0.1 * 2 ^ (8 * 192) + b1.1 * 2 ^ (8 * 193))

/-- R121, R149: the tree's result in every lane. -/
def Core.reduceLanes (c : Core) (f : Word → Word → Word) (a : Nat) : List Word :=
  List.replicate 64 (tree64 f (c.rdV a))

/-- R150: a ROW function on half a register; the other half of V[D] is unchanged. R420: 32 lane operations. -/
def Core.rowFn (c : Core) (lat : Nat) (f : Word → Word) (d a : Nat) (hi : Bool) : Core :=
  (c.schedule 4 lat (.v d (if hi then 32 else 0) ((c.half32 a hi).map f))).countAs c.seq.ids 18 32

/-- R150: TLD; an uncorrectable word raises CORE_UE (R177). -/
def Core.tld (c : Core) (d : Nat) (hi : Bool) (toff : Nat) : Core :=
  let p := toff * 128
  (c.noteUE (ueIn c.statUE p 128)).schedule 4 4
    (.v d (if hi then 32 else 0) (bytesLanes (fun k => c.stat.read (p + k)) 32))

/-- R150: TST writes the stat store in issue order. -/
def Core.tst (c : Core) (a : Nat) (hi : Bool) (toff : Nat) : Core :=
  { c with stat := c.stat.write (toff * 128) (lanesBytes (c.half32 a hi)), statUE := ueClear c.statUE (toff * 128) 128 }

end Sys2Proof.Machine
end

