-- ==== Sys2Proof/Machine/Slots.lean ====
section
/-! DEFINITION. How a slot of a tab word issues on a core (chapter 5): what it needs, what holds it, what closes the word
with it; the operand ranges of R144; and the events of the array and the fills on a logical core. -/
namespace Sys2Proof.Machine

/-- Where a slot's operation issues: a logical core, and, with the last slot of its word, what closes the word. -/
structure Site where
  die : Nat
  core : Nat
  last : Option WordEnd
  deriving DecidableEq, Repr

/-- What becomes of a slot's operation: it issues; it holds its word (a bit of HOLD); it is a program error (R144). -/
inductive SlotOut where
  | go (c : Core)
  | held (bit : Nat)
  | bad
  deriving DecidableEq, Repr

/-- R53, R60, R135, R170, R172, R393: the physical core on which a slot may issue: bound, its words issuing, under no test, and
with beats left in the window for the word that it closes. A core that has been stopped closes the word it has begun, and issues no
other. -/
def Pkg.site (p : Pkg) (t : Site) : Option Nat :=
  match p.phys t.die t.core with
  | none => none
  | some key =>
    let c := p.core key
    let room := match t.last with | some w => c.windowBeats + w.idle + 2 ≤ p.windowLimit t.die | none => true
    if c.issuing && (!c.seq.stopping || c.seq.mid) && (p.fw.tests.find key).isNone && room then some key else none

/-- The slot issues: its effect, the word's end where it closes the word, and the job's progress (R401). -/
def Pkg.slotGo (p : Pkg) (key : Nat) (t : Site) (f : Core → Core) : Pkg :=
  let p := p.act key (fun c => (f c).fin t.last)
  if t.last.isSome then p.progress (p.core key).seq.ids.job else p

/-! Operand ranges (R144 to R153). -/
def regOk (n : Nat) : Bool := n < 32
def pegOk (n : Nat) : Bool := n < 64
def keyOk (n : Nat) : Bool := n < 8
def wordOk (n : Nat) : Bool := n < 2 ^ 32
def SOpnd.ok : SOpnd → Bool
  | .reg n => regOk n
  | .imm _ => true
def LoopSrc.ok : LoopSrc → Bool
  | .imm n => wordOk n
  | .reg n => regOk n
def scaOk (d a : Nat) (b : SOpnd) : Bool := regOk d && regOk a && b.ok
def vecOk (d a b c : Nat) : Bool := regOk d && regOk a && regOk b && regOk c
/-- R149: the format codes of CVT. -/
def cvtOk (f : Nat) : Bool := f ≤ 4 || (11 ≤ f && f ≤ 13)

/-- An operation that only its operands can make a program error. -/
def slotIf (ok : Bool) (c : Core) : SlotOut := if ok then .go c else .bad

/-- R148: an LDS access within the bench, and aligned. -/
def Core.ldsOk (c : Core) (size reg a off : Nat) : Bool :=
  let p := c.benchAddr a off
  regOk reg && regOk a && off < 2 ^ 19 && p % min size 64 = 0 && p + size ≤ benchSize

/-! CTL (R146, R161). -/
def Core.slotPwait (c : Core) (q n : Nat) (keep : Bool) : SlotOut :=
  if !(pegOk q && wordOk n) then .bad else if c.pwaitOk q n then .go (c.pwaitTake q n keep) else .held 0
def Core.slotQwait (c : Core) (mask : Nat) : SlotOut :=
  if 32 ≤ mask then .bad else if c.qwaitOk mask then .go (c.qwaitTake mask) else .held 1

/-- R162: the peg that a PSIG of core `key` names gets N; one to another package is outstanding until it is applied (R146). -/
def Pkg.psigFrom (p : Pkg) (key scope n target : Nat) : Pkg :=
  let c := p.core key
  let away := 3 ≤ scope && target / 2 ^ 18 % 2 ^ 14 ≠ p.coord
  if scope = 0 then p.onKey key (fun c => c.addPeg (target % 64) n)
  else
    let p := if away then p.onKey key (fun c => { c with psigs := c.psigs + 1 }) else p
    p.signalPeg (some key) (key / 72) c.seq.ids.job c.seq.tag scope target n

/-! ARR (R78, R80, R82, R151). -/

/-- R77: the class that a bank will have once every operation of the queue is done. -/
def Core.classAfter (c : Core) (bank : Nat) : Bool :=
  c.queue.foldl (fun b e =>
    match e.what with
    | .run o => if o.bank = bank && o.ovw && o.count ≠ 0 then (fmtOf o.aFmt).isInt else b
    | .load o _ => if o.bank = bank then (fmtOf o.fmt).isInt else b
    | .drain .. => b) (c.bank bank).isInt

def Core.slotArr (c : Core) (ok : Bool) (w : ArrWhat) : SlotOut :=
  if !ok then .bad else if 8 ≤ c.queue.length then .held 2 else .go (c.enqueue w)
def MoveOp.fieldsOk (o : MoveOp) : Bool := regOk o.areg && o.off < 2 ^ 22 && o.stride < 2 ^ 16
def Core.slotRun (c : Core) (o : RunOp) : SlotOut := c.slotArr o.ok (.run o)
def Core.slotLoad (c : Core) (o : MoveOp) : SlotOut :=
  let a := c.benchAddr o.areg o.off
  c.slotArr (o.fieldsOk && o.loadOk a c.seq.width) (.load o a)
def Core.slotDrain (c : Core) (o : MoveOp) : SlotOut :=
  let a := c.benchAddr o.areg o.off
  c.slotArr (o.fieldsOk && o.drainOk (c.classAfter o.bank) a c.seq.width) (.drain o a (o.key.map c.rdSK))

/-! FBF (R69, R152) and GTH (R153). -/
def Core.slotFill (c : Core) (o : FillArg) : SlotOut :=
  let a := (c.rdS o.areg).toNat
  if !(regOk o.areg && o.ok a) then .bad
  else if 2 ≤ (c.fills o.b).length then .held 3
  else .go (c.enqueueFill o.b ⟨none, o.slot, o.fmt, a, o.stride, o.start, o.count, o.peg, 0, 0, c.seq.ids⟩)
def Core.slotGth (c : Core) (kind : GthKind) (a : GthArg) (own : Nat) : SlotOut :=
  if !(regOk a.areg && wordOk a.off) then .bad
  else match c.gthIssue kind a own with
    | .held b => .held b
    | .bad => .bad
    | .go c => .go c

/-! Events on a logical core. -/

/-- An event of the array, of a fill or of the gather unit: the core is awake (R60) and under no test (R393). -/
def Pkg.onCore (p : Pkg) (n lc : Nat) (f : Core → Core) : Pkg :=
  match p.phys n lc with
  | none => p
  | some key => if (p.core key).pwr = .awake && (p.fw.tests.find key).isNone then p.act key f else p

/-- STROKE, under CORE_OPA_CTRL of the core (R92). -/
def Pkg.strokeOn (p : Pkg) (n lc : Nat) : Pkg :=
  match p.phys n lc with
  | none => p
  | some key => p.onCore n lc (fun c => c.stroke (p.rd (rCORE_OPA_CTRL.at n (key % 72) 0)).toNat)

/-! R49: events of a die that is there. -/
def Pkg.droopOf (p : Pkg) (n : Nat) : Pkg := if p.present n then p.droop n else p
def Pkg.thermalOf (p : Pkg) (n : Nat) : Pkg := if p.present n then p.thermal n else p

/-- What a register write of the host or of management names: a register of BAR0, from a port; an enable of configuration space, or the base
of BAR0 or BAR2; a field of an HDM decoder. -/
inductive RegWriteTo where
  | bar (off size value : Nat) (o : Origin)
  | cfg (f : CfgField) (b : Bool)
  | base (two : Bool) (value : Nat)
  | hdm (k : Nat) (f : HdmField) (value : Nat)
  deriving DecidableEq, Repr

def Pkg.registerWrite (p : Pkg) : RegWriteTo → Pkg
  | .bar off size value o => p.access off size value o
  | .cfg f b => p.cfgWrite f b
  | .base two v => p.barWrite two v
  | .hdm k f v => p.hdmWrite k f v

end Sys2Proof.Machine
end

