-- ==== Sys2Proof/Syntax.lean ====
section
/-! DEFINITION. The commands of the package: one constructor for each row of the opcode table, in the table's order. A core is named by
its die and its logical number (`lc`), or, where a rule speaks of the silicon, its physical number (`c`). An operand with a default may be left
out: then nothing is met on the way (log 23), and the link layer retries nothing. -/
namespace Sys2Proof

open Sys2Proof.Machine

/-- The commands. -/
inductive Instr where
  /-- PKG_PWROK (R474). -/
  | pkgPwrok
  /-- COLD_RESET (R475, R481): `pwrok` says whether PKG_PWROK stays high. -/
  | coldReset (pwrok : Bool)
  /-- BRING_UP (R480, R483). -/
  | bringUp (o : BringUp)
  /-- HOST_PORT_RESET (R481). -/
  | hostPortReset
  /-- CXL_PERST_N_RELEASE (R482): the link trains at a speed and width. -/
  | perstRelease (speed : Nat) (width : Nat)
  /-- THERM_TRIP (R477). -/
  | thermTrip
  /-- CLK_LOST (R479). -/
  | clkLost (c : Clk)
  /-- VR_ALERT (R476): the pin as the regulators drive it. -/
  | vrAlert (on : Bool)
  /-- PMBUS_POLL (R476): the rails out of tolerance, and whether each is below. -/
  | pmbusPoll (out : List (Rail × Bool))
  /-- MILNIK_POWER_UP (R463). -/
  | milnikPowerUp
  /-- MILNIK_POWER_LOSS (R463). -/
  | milnikPowerLoss
  /-- CONTROL_PERIOD (R50 to R52, R63, R476) of die `n`. -/
  | controlPeriod (n : Nat) (t : Telemetry)
  /-- CEILING_WINDOW (R53) of die `n`. -/
  | ceilingWindow (n : Nat)
  /-- DROOP (R49) of die `n`. -/
  | droop (n : Nat)
  /-- RAIL_UNDER (R49) of die `n`. -/
  | railUnder (n : Nat)
  /-- RAIL_OVER (R49) of die `n`. -/
  | railOver (n : Nat)
  /-- THERMAL (R49) of die `n`. -/
  | thermal (n : Nat)
  /-- GATE_DOWN (R57) of physical core `c`. -/
  | gateDown (n : Nat) (c : Nat)
  /-- ADMISSION (R57, R59) at die `n`. -/
  | admission (n : Nat)
  /-- UNGATE (R60) of physical core `c`. -/
  | ungate (n : Nat) (c : Nat)
  /-- ROW_GROUP_RAMP (R60) of physical core `c`. -/
  | rowGroupRamp (n : Nat) (c : Nat)
  /-- RUN (R80, R82, R151). -/
  | run (t : Site) (o : RunOp)
  /-- LOAD (R78, R80, R151). -/
  | load (t : Site) (o : MoveOp)
  /-- DRAIN (R78, R80, R151). -/
  | drain (t : Site) (o : MoveOp)
  /-- LOAD_DRAIN_BEGIN (R79). -/
  | loadDrainBegin (n : Nat) (lc : Nat)
  /-- STROKE (R74, R75). -/
  | stroke (n : Nat) (lc : Nat)
  /-- SPECULATION_VERIFY (R89). -/
  | speculationVerify (n : Nat) (lc : Nat)
  /-- RUN_RETIRE (R81, R90). -/
  | runRetire (n : Nat) (lc : Nat)
  /-- LOAD_RETIRE (R81). -/
  | loadRetire (n : Nat) (lc : Nat)
  /-- DRAIN_RETIRE (R81). -/
  | drainRetire (n : Nat) (lc : Nat)
  /-- FBFILL (R69, R152). -/
  | fbfill (t : Site) (o : FillArg)
  /-- FILL_POSITION_WRITE (R69, R70, R86) of fretboard A, or of B. -/
  | fillPositionWrite (n : Nat) (lc : Nat) (b : Bool)
  /-- FBFILL_RETIRE (R81). -/
  | fbfillRetire (n : Nat) (lc : Nat) (b : Bool)
  /-- KERF_COMMIT_APPLY (R97) on physical core `c`. -/
  | kerfCommitApply (n : Nat) (c : Nat)
  /-- PWAIT (R161). -/
  | pwait (t : Site) (q : Nat) (k : Nat) (keep : Bool)
  /-- QWAIT (R146). -/
  | qwait (t : Site) (mask : Nat)
  /-- PADD (R139, R160). -/
  | padd (t : Site) (q : Nat) (k : Nat)
  /-- PSET (R139, R160). -/
  | pset (t : Site) (q : Nat) (k : Nat)
  /-- PSIG (R162, R163). -/
  | psig (t : Site) (scope : Nat) (k : Nat) (target : Nat)
  /-- SKEY (R145). -/
  | skey (t : Site) (key : Nat) (sa : Nat) (sb : Nat)
  /-- LOOP (R154). -/
  | loop (t : Site) (src : LoopSrc) (len : Nat)
  /-- BRZ (R157). -/
  | brz (t : Site) (a : Nat) (off : Int)
  /-- BRNZ (R157). -/
  | brnz (t : Site) (a : Nat) (off : Int)
  /-- RAISE (R172). -/
  | raise (t : Site) (code : Nat)
  /-- ADD (R147). -/
  | add (t : Site) (d : Nat) (a : Nat) (b : SOpnd)
  /-- SUB (R147). -/
  | sub (t : Site) (d : Nat) (a : Nat) (b : SOpnd)
  /-- AND (R147). -/
  | sAnd (t : Site) (d : Nat) (a : Nat) (b : SOpnd)
  /-- OR (R147). -/
  | sOr (t : Site) (d : Nat) (a : Nat) (b : SOpnd)
  /-- XOR (R147). -/
  | sXor (t : Site) (d : Nat) (a : Nat) (b : SOpnd)
  /-- SHL (R147). -/
  | shl (t : Site) (d : Nat) (a : Nat) (b : SOpnd)
  /-- SHR (R147). -/
  | shr (t : Site) (d : Nat) (a : Nat) (b : SOpnd)
  /-- SAR (R147). -/
  | sar (t : Site) (d : Nat) (a : Nat) (b : SOpnd)
  /-- MUL (R147). -/
  | mul (t : Site) (d : Nat) (a : Nat) (b : SOpnd)
  /-- MIN (R147). -/
  | sMin (t : Site) (d : Nat) (a : Nat) (b : SOpnd)
  /-- MAX (R147). -/
  | sMax (t : Site) (d : Nat) (a : Nat) (b : SOpnd)
  /-- SLT (R147). -/
  | slt (t : Site) (d : Nat) (a : Nat) (b : SOpnd)
  /-- SEQ (R147). -/
  | seq (t : Site) (d : Nat) (a : Nat) (b : SOpnd)
  /-- MOVI (R147). -/
  | movi (t : Site) (d : Nat) (v : Word)
  /-- MOVHI (R147). -/
  | movhi (t : Site) (d : Nat) (a : Nat) (v : Word)
  /-- LIDX (R156): `level` is the body's field A. -/
  | lidx (t : Site) (d : Nat) (level : Nat)
  /-- VLD (R148). -/
  | vld (t : Site) (d : Nat) (a : Nat) (off : Nat)
  /-- VST (R148). -/
  | vst (t : Site) (d : Nat) (a : Nat) (off : Nat)
  /-- SLD (R148). -/
  | sld (t : Site) (d : Nat) (a : Nat) (off : Nat)
  /-- SST (R148). -/
  | sst (t : Site) (d : Nat) (a : Nat) (off : Nat)
  /-- VLDB (R148). -/
  | vldb (t : Site) (d : Nat) (a : Nat) (off : Nat)
  /-- FADD (R120, R149). -/
  | fadd (t : Site) (d : Nat) (a : Nat) (b : Nat)
  /-- FSUB (R120, R149). -/
  | fsub (t : Site) (d : Nat) (a : Nat) (b : Nat)
  /-- FMUL (R120, R149). -/
  | fmul (t : Site) (d : Nat) (a : Nat) (b : Nat)
  /-- FFMA (R120, R149, R420). -/
  | ffma (t : Site) (d : Nat) (a : Nat) (b : Nat) (e : Nat)
  /-- FMIN (R120, R149). -/
  | fmin (t : Site) (d : Nat) (a : Nat) (b : Nat)
  /-- FMAX (R120, R149). -/
  | fmax (t : Site) (d : Nat) (a : Nat) (b : Nat)
  /-- FCMPLT (R120, R149). -/
  | fcmplt (t : Site) (d : Nat) (a : Nat) (b : Nat)
  /-- FCMPEQ (R120, R149). -/
  | fcmpeq (t : Site) (d : Nat) (a : Nat) (b : Nat)
  /-- SEL (R149). -/
  | sel (t : Site) (d : Nat) (a : Nat) (b : Nat) (e : Nat)
  /-- FMOVS (R149). -/
  | fmovs (t : Site) (d : Nat) (a : Nat)
  /-- CVT (R149, R114, R115, R117). -/
  | cvt (t : Site) (d : Nat) (a : Nat) (src : Nat) (dst : Nat) (key : Option Nat)
  /-- MXENC (R107, R149). -/
  | mxenc (t : Site) (d : Nat) (a : Nat) (fmt : Nat) (key : Option Nat)
  /-- RSUM (R121, R149). -/
  | rsum (t : Site) (d : Nat) (a : Nat)
  /-- RMAX (R121, R149). -/
  | rmax (t : Site) (d : Nat) (a : Nat)
  /-- EXP (R122, R150). -/
  | exp (t : Site) (d : Nat) (a : Nat) (hi : Bool)
  /-- RCP (R122, R150). -/
  | rcp (t : Site) (d : Nat) (a : Nat) (hi : Bool)
  /-- RSQ (R122, R150). -/
  | rsq (t : Site) (d : Nat) (a : Nat) (hi : Bool)
  /-- TLD (R150). -/
  | tld (t : Site) (d : Nat) (hi : Bool) (toff : Nat)
  /-- TST (R150). -/
  | tst (t : Site) (a : Nat) (hi : Bool) (toff : Nat)
  /-- GATHER (R153, R191, R192). -/
  | gather (t : Site) (o : GthArg)
  /-- STREAM (R153, R191, R195). -/
  | stream (t : Site) (o : GthArg)
  /-- COPY (R153, R191, R196). -/
  | copy (t : Site) (o : GthArg)
  /-- PREFETCH (R153, R191, R197). -/
  | prefetch (t : Site) (o : GthArg)
  /-- GATHER_ACCESS (R187): one beat of the gather unit. -/
  | gatherAccess (n : Nat) (lc : Nat) (ecc : Ecc := .keep)
  /-- LINE_RETURN (R188) of request `ix`. -/
  | lineReturn (n : Nat) (lc : Nat) (ix : Nat) (ecc : Ecc := .keep)
  /-- GTH_RETIRE (R198) of thread `x`. -/
  | gthRetire (n : Nat) (lc : Nat) (x : Nat)
  /-- INSTRUCTION_FETCH (R171) of a line. -/
  | instructionFetch (n : Nat) (lc : Nat) (line : Nat) (ecc : Ecc)
  /-- PROGRAM_START (R165, R169); its read meets `ecc`. -/
  | programStart (n : Nat) (lc : Nat) (ecc : Ecc := .keep)
  /-- PROGRAM_END (R170). -/
  | programEnd (n : Nat) (lc : Nat)
  /-- TRACKER_WAKE (R202). -/
  | trackerWake (n : Nat) (res : Res)
  /-- MEMORY_ACCESS_COMPLETE (R200, R205) of tracker entry `ix`. -/
  | memoryAccessComplete (n : Nat) (ix : Nat) (ecc : Ecc)
  /-- CXL_MEM_READ (R224, R360, R361) of a host physical address; the link layer retried `retries` flits (R357). -/
  | cxlMemRead (hpa : Nat) (holds : Bool) (ecc : Ecc) (retries : Nat := 0)
  /-- CXL_MEM_WRITE (R360, R363). -/
  | cxlMemWrite (hpa : Nat) (bs : List Byte) (holds : Bool) (ecc : Ecc := .keep) (retries : Nat := 0)
  /-- BISNP_RESPONSE (R361). -/
  | bisnpResponse (line : Nat) (inv : Bool) (data : Option (List Byte)) (ecc : Ecc := .keep)
  /-- HOST_SNOOP (R356). -/
  | hostSnoop (a : Nat) (retries : Nat := 0)
  /-- BENCH_WINDOW_ACCESS (R178). -/
  | benchWindowAccess (n : Nat) (lc : Nat) (off : Nat) (len : Nat) (wr : Option (List Byte)) (ecc : Ecc := .keep)
  /-- KERNEL (R166): the command-table entry `k`. -/
  | kernel (k : Nat)
  /-- STATISTICS_PASS (R250, R251), in `ticks`; its read number `ix` meets `ecc`. -/
  | statisticsPass (k : Nat) (ticks : Nat) (ix : Nat := 0) (ecc : Ecc := .keep)
  /-- APPLY_PASS (R253 to R257), in `ticks`; its read number `ix` meets `ecc`. -/
  | applyPass (k : Nat) (ticks : Nat) (ix : Nat := 0) (ecc : Ecc := .keep)
  /-- RING_COPY (R377): the next segment. -/
  | ringCopy (k : Nat) (ecc : Ecc)
  /-- ENGINE_GATHER (R378): the next segment. -/
  | engineGather (k : Nat) (ecc : Ecc)
  /-- ENGINE_START (R210) on die `n`. -/
  | engineStart (n : Nat)
  /-- FILL (R221): the next lines. -/
  | fill (k : Nat)
  /-- SCRUB (R228, R229): the next line. -/
  | scrub (k : Nat) (ecc : Ecc)
  /-- COLLECTIVE_STREAM_START (R267) on die `n`. -/
  | collectiveStreamStart (n : Nat) (ecc : Ecc)
  /-- REDUCE (R272): the next act of stream `ix`. -/
  | reduce (n : Nat) (ix : Nat) (ecc : Ecc)
  /-- RANK_ORDERED_REDUCE (R278). -/
  | rankOrderedReduce (n : Nat) (ix : Nat) (ecc : Ecc)
  /-- ALL_GATHER (R280). -/
  | allGather (n : Nat) (ix : Nat) (ecc : Ecc)
  /-- ALL_REDUCE (R266). -/
  | allReduce (n : Nat) (ix : Nat) (ecc : Ecc)
  /-- EPOCH (R283). -/
  | epoch (k : Nat) (ecc : Ecc)
  /-- PHASE_BEGIN (R347). -/
  | phaseBegin (k : Nat)
  /-- PHASE_END (R347 to R350). -/
  | phaseEnd (k : Nat)
  /-- SLOW_DETECTION (R351, R352). -/
  | slowDetection
  /-- DUMP (R434). -/
  | dump (k : Nat) (ecc : Ecc)
  /-- PEGSET_SET (R375). -/
  | pegsetSet (k : Nat)
  /-- PEGSET_ADD (R375). -/
  | pegsetAdd (k : Nat)
  /-- NOP (R375). -/
  | nop (k : Nat)
  /-- READY (R268) arrives: on a port (4: from this package; 5 to 8: out of the input buffer of port 0 to 3). -/
  | readyFrame (port : Nat) (f : Frame)
  /-- AGREE (R273) arrives: on a port (4: from this package; 5 to 8: out of the input buffer of port 0 to 3). -/
  | agree (port : Nat) (f : Frame) (ecc : Ecc)
  /-- CONTRIB (R235) arrives: on a port (4: from this package; 5 to 8: out of the input buffer of port 0 to 3). -/
  | contrib (port : Nat) (f : Frame)
  /-- SPARSE (R276) arrives: on a port (4: from this package; 5 to 8: out of the input buffer of port 0 to 3). -/
  | sparse (port : Nat) (f : Frame)
  /-- APPLIED (R285) arrives: on a port (4: from this package; 5 to 8: out of the input buffer of port 0 to 3). -/
  | applied (port : Nat) (f : Frame)
  /-- GRANT (R278) arrives: on a port (4: from this package; 5 to 8: out of the input buffer of port 0 to 3). -/
  | grant (port : Nat) (f : Frame) (ecc : Ecc)
  /-- RANKDATA (R278) arrives: on a port (4: from this package; 5 to 8: out of the input buffer of port 0 to 3). -/
  | rankData (port : Nat) (f : Frame) (ecc : Ecc)
  /-- SHARD (R280) arrives: on a port (4: from this package; 5 to 8: out of the input buffer of port 0 to 3). -/
  | shard (port : Nat) (f : Frame)
  /-- SHARD_ACK (R280) arrives: on a port (4: from this package; 5 to 8: out of the input buffer of port 0 to 3). -/
  | shardAck (port : Nat) (f : Frame)
  /-- HALT (R286) arrives: on a port (4: from this package; 5 to 8: out of the input buffer of port 0 to 3). -/
  | halt (port : Nat) (f : Frame)
  /-- FENCE (R283) arrives: on a port (4: from this package; 5 to 8: out of the input buffer of port 0 to 3). -/
  | fence (port : Nat) (f : Frame)
  /-- ABORT (R326) arrives on a port. -/
  | abort (port : Nat) (f : Frame)
  /-- FAB_ABORT (R325): GO is written for an entry. -/
  | fabAbort (entry : Nat) (o : Origin)
  /-- ABORT_KEY_EXPIRY (R326). -/
  | abortKeyExpiry
  /-- WRITE (R377) arrives: on a port (4: from this package; 5 to 8: out of the input buffer of port 0 to 3). -/
  | writeFrame (port : Nat) (f : Frame) (ecc : Ecc := .keep)
  /-- READ (R377) arrives: on a port (4: from this package; 5 to 8: out of the input buffer of port 0 to 3). -/
  | readFrame (port : Nat) (f : Frame) (ecc : Ecc)
  /-- READ_DATA (R303, R377) arrives: on a port (4: from this package; 5 to 8: out of the input buffer of port 0 to 3). -/
  | readData (port : Nat) (f : Frame)
  /-- WRITE_ACK (R377) arrives: on a port (4: from this package; 5 to 8: out of the input buffer of port 0 to 3). -/
  | writeAck (port : Nat) (f : Frame)
  /-- PSIG_FRAME (R309) arrives: on a port (4: from this package; 5 to 8: out of the input buffer of port 0 to 3). -/
  | psigFrame (port : Nat) (f : Frame)
  /-- PSIG_ACK (R308, R309) arrives: on a port (4: from this package; 5 to 8: out of the input buffer of port 0 to 3). -/
  | psigAck (port : Nat) (f : Frame)
  /-- UNREACH (R314) arrives: on a port (4: from this package; 5 to 8: out of the input buffer of port 0 to 3). -/
  | unreach (port : Nat) (f : Frame)
  /-- FRAME_FORWARD (R310 to R314). -/
  | frameForward (port : Nat) (f : Frame)
  /-- LINK_FLIT (R291, R293) on lane group `g`. -/
  | linkFlit (port : Nat) (g : Nat) (f : Flit)
  /-- LANE_GROUP_DOWN (R297). -/
  | laneGroupDown (port : Nat) (g : Nat)
  /-- LINK_TRAINING (R295). -/
  | linkTraining (port : Nat) (g : Nat)
  /-- TRAINING_TIMEOUT (R295). -/
  | trainingTimeout (port : Nat) (g : Nat)
  /-- LINK_ID (R296). -/
  | linkId (port : Nat) (l : LinkId)
  /-- RETRAIN (R297): a write of FAB_PORT_CTRL with RETRAIN set; `v`: the word's other bits. -/
  | retrain (port : Nat) (v : Nat) (o : Origin)
  /-- TSYNC (R319 to R322). -/
  | tsync (port : Nat) (x : Tsync)
  /-- FTC_UNSYNC (R324). -/
  | ftcUnsync
  /-- GRANDMASTER_START (R319). -/
  | grandmasterStart
  /-- BANK_SWITCH (R317). -/
  | bankSwitch
  /-- FTC_NOW_READ (R323): a word of FTC_NOW or of another latching register. -/
  | ftcNowRead (off : Nat) (o : Origin)
  /-- COMMIT (R40): 1 is written to COMMIT of HS_CLAMP_k. -/
  | commit (k : Nat) (o : Origin)
  /-- REGISTER_WRITE (R10, R34, R358, R453). -/
  | registerWrite (w : RegWriteTo)
  /-- HOST_RESET (R408). -/
  | hostReset (o : Origin)
  /-- PACKAGE_RESET (R410 to R413): `held`: data of lines that the host returns. -/
  | packageReset (held : List (Nat × List Byte)) (o : BringUp)
  /-- START_STALL (R406, R410). -/
  | startStall
  /-- FW_WATCHDOG (R409). -/
  | fwWatchdog (held : List (Nat × List Byte)) (o : BringUp)
  /-- DOVETAIL (R21): a link of die `n` fails. -/
  | dovetail (n : Nat)
  /-- HOST_LINK (R357): `retries` retries of flits, whatever these carry, after which the link is `lost`, or stands. -/
  | hostLink (retries : Nat := 0) (lost : Bool := true)
  /-- COMMAND_RING_DOORBELL (R369). -/
  | commandRingDoorbell (ring : Nat) (v : Nat)
  /-- COMPLETION_RING_DOORBELL (R379). -/
  | completionRingDoorbell (cq : Nat) (v : Nat)
  /-- COMMAND_RING_LOAD (R368). -/
  | commandRingLoad (ring : Nat) (o : Origin)
  /-- COMMAND_RING_DISABLE (R368). -/
  | commandRingDisable (ring : Nat) (o : Origin)
  /-- COMPLETION_RING_LOAD (R368). -/
  | completionRingLoad (cq : Nat) (o : Origin)
  /-- COMPLETION_RING_DISABLE (R368). -/
  | completionRingDisable (cq : Nat) (o : Origin)
  /-- FETCH_TURN (R371, R372). -/
  | fetchTurn
  /-- ARBITRATION_POINT (R167). -/
  | arbitrationPoint
  /-- COMPLETION_ENTRY (R379) of command `k`. -/
  | completionEntry (k : Nat)
  /-- INTERRUPT_TIMER (R380). -/
  | interruptTimer (cq : Nat)
  /-- ROTATION_TEST (R392, R393) of physical core `c`. -/
  | rotationTest (n : Nat) (c : Nat)
  /-- ROTATION_TEST_END (R395): the column group that failed alone, where one did. -/
  | rotationTestEnd (n : Nat) (c : Nat) (pass : Bool) (group : Option Nat)
  /-- FULL_TEST_END (R96). -/
  | fullTestEnd (n : Nat) (c : Nat) (pass : Bool) (group : Option Nat)
  /-- REBIND (R397, R398) of logical core `lc`. -/
  | rebind (n : Nat) (lc : Nat)
  /-- JOB_WATCHDOG (R401, R402). -/
  | jobWatchdog
  /-- ABORT_DONE (R391). -/
  | abortDone (job : Nat)
  /-- DRAINED (R329). -/
  | drained
  /-- MEM_CE (R386) of controller `m`. -/
  | memCe (n : Nat) (m : Nat)
  /-- DT_REPLAY (R386): `k` replays since the last summary. -/
  | dtReplay (k : Nat)
  /-- EVENT_RESEND (R442) to collector `k`. -/
  | eventResend (k : Nat) (seq : Nat)
  /-- JOURNAL_FLUSH (R454) of `k` entries. -/
  | journalFlush (k : Nat)
  /-- COMPACTION (R455). -/
  | compaction
  /-- SAMPLE (R424 to R427). -/
  | sample (late : Bool)
  /-- REG_READ (R441, R442); `ty`: the TYPE of the request, where it is one that R441 does not list. -/
  | regRead (ch : Chan) (tag : Nat) (off : Nat) (count : Nat) (ty : Nat := 1)
  /-- REG_WRITE (R441, R442). -/
  | regWrite (ch : Chan) (tag : Nat) (off : Nat) (ws : List Word)
  /-- EVENT (R442): collector `k` acknowledges record `seq`. -/
  | event (k : Nat) (seq : Nat)
  /-- EVT_READ (R441, R442). -/
  | evtRead (ch : Chan) (tag : Nat) (first : Nat) (count : Nat)
  /-- JRNL_READ (R441, R456). -/
  | jrnlRead (ch : Chan) (tag : Nat) (first : Nat) (count : Nat)
  /-- FIRMWARE_BEGIN (R447). -/
  | firmwareBegin (ch : Chan) (tag : Nat) (len : Nat)
  /-- FIRMWARE_DATA (R447). -/
  | firmwareData (ch : Chan) (tag : Nat) (off : Nat) (bs : List Byte)
  /-- FIRMWARE_END (R446 to R448). -/
  | firmwareEnd (ch : Chan) (tag : Nat) (w : FlashWrite)
  /-- FIRMWARE_STATUS (R447). -/
  | firmwareStatus (ch : Chan) (tag : Nat)
  /-- LOCK_SVN (R449). -/
  | lockSvn (ch : Chan) (tag : Nat)
  /-- GET_CERT (R452). -/
  | getCert (ch : Chan) (tag : Nat) (off : Nat) (len : Nat)
  /-- GET_MEAS (R451, R452). -/
  | getMeas (ch : Chan) (tag : Nat) (nonce : List Byte) (mask : Nat)
  /-- DOE_DISCOVERY (R364): the protocol at an index. -/
  | doeDiscovery (ix : Nat)
  /-- CDAT (R364). -/
  | cdat
  /-- IDE_KM (R364): keys are set on the link, or taken off it. -/
  | ideKm (on : Bool)
  /-- NEIGHBOUR_DISCOVERY (R438). -/
  | neighbourDiscovery (target : Nat)
  /-- ICMPV6_ECHO (R438). -/
  | icmpv6Echo (data : List Byte)
  /-- ENTDAA (R439). -/
  | entdaa (addr : Nat)
  /-- MILNIK_SAMPLE (R459): the mV and mA of every rail. -/
  | milnikSample (vi : List (Nat × Nat))
  /-- COUNTING_LINE (R461) of die `n`, or a framing error on it. -/
  | countingLine (n : Nat) (framing : Bool)
  /-- MILNIK_RECORD_CLOSE (R462 to R464). -/
  | milnikRecordClose (flashOk : Bool)
  /-- LIVE_COPY_REFRESH (R466). -/
  | liveCopyRefresh
  /-- MILNIK_IDENT (R465). -/
  | milnikIdent
  /-- MILNIK_RECORD (R465). -/
  | milnikRecord (seq : Nat)
  /-- MILNIK_CERT (R465). -/
  | milnikCert (off : Nat) (len : Nat)
  /-- QUOTE (R465). -/
  | quote (nonce : List Byte)
  /-- EXP_FRAME (R272) arrives: on a port (4: from this package; 5 to 8: out of the input buffer of port 0 to 3). -/
  | expFrame (port : Nat) (f : Frame)
  /-- MANAGEMENT_PORT_LINK (R438). -/
  | managementPortLink (up : Bool)
  deriving DecidableEq, Repr

end Sys2Proof
end

