-- ==== Sys2Proof/Machine/State.lean ====
section
/-! DEFINITION. The state of the machine, why a step can stop, and the state that a cold reset leaves. -/
namespace Sys2Proof.Machine

/-- Why the machine stops. -/
inductive Fault where
  /-- Raised by a slot of a tab word, and by a word that holds an opcode which no table lists (R144): a field outside its range, an
  offset that is not aligned or lies beyond the bench. The spec calls the results unpredictable and the model stops: safe. -/
  | programError
  deriving DecidableEq, Repr

/-- Why a command has no meaning. -/
inductive Refusal where
  /-- Raised by an arm of exec for a command that has no meaning yet: safe. No arm does. -/
  | notModelled (mnemonic : String)
  deriving DecidableEq, Repr

/-- The machine: the package, the Milnik meter, which nothing of the package writes (R467), and the commands that wait: those sent
from outside, first in, first out; and those that wait for the host's answer to a snoop (R361), or for their turn (R442). -/
structure State where
  pkg : Pkg
  mtr : Milnik
  pending : List Instr
  waiting : List Instr
  deriving DecidableEq, Repr

/-- Firmware that does not run; an empty configuration store (log 4) and an empty flash (log 5). -/
def Fw.reset : Fw :=
  { events := [], eventSeq := 0, unacked := [], sentAt := [], flashEvents := [], diagSeq := 0, diag := [], flashDiag := [], shavings := []
    resetReq := none, inReset := false, draining := false, abortPend := [], jobFtc := [], wdogOff := false, tests := [], due := []
    passed := [], boundAt := [], round := [], fullTests := [], rebindAfter := [], unrepro := [], datapath := [], ueLines := [], ceSeen := [], readies := []
    phases := [], curStep := none, curSlow := false, epochFrom := [], epochNeed := [], epochCmd := none, epochSent := false, shares := []
    jseq := 0, jbuf := [], jwait := [], jheld := [], area0 := (Area.based 0 0 []).marked 0, area1 := .erased, activeArea := false
    compacting := false, image := none, running := none, bootRam := false, transfer := none, waiting := false, booted := false
    cold := true, measCounter := 0, measures := [], minSvn := 0, revoked := 0, smpSeq := 0, smpOld := none, lastSample := [], evTrace := [], trcLost := 0
    trcUs := (0, 0), bootNote := none }

/-- The package in cold reset, with its board: eight dies, 256 GiB of DDR5 on each channel (log 5). -/
def Pkg.reset : Pkg :=
  { board := { dies := 8, pwrok := false, rstN := false, perstN := false, thermTrip := false, vrAlert := false, clkGone := []
               dimms := Tbl.tab (fun _ => some Dimm.fitted) 0 16, memLost := false, serial := 0 }
    ftc := Ftc.reset, regs := [], shadow := [], latch := [], dies := Tbl.tab (fun _ => some Die.init) 0 8, cores := []
    mem := ⟨[], 2 ^ 42, []⟩, badLines := [], host := ⟨[], 2 ^ 44, []⟩, snoops := [], answered := [], used := [], touched := none, posted := [], admitted := []
    rings := [], cqs := [], cmds := [], arrivals := 0
    port := HostPort.reset (2 ^ 52)
    fab := Fabric.reset, fw := Fw.reset, mgt := ⟨false, none⟩, outbox := [], epoch := 0, free := 0 }

/-- Milnik as manufactured, sealed (R467), with its supply present and nothing measured yet (log 5). -/
def Milnik.reset : Milnik :=
  { powered := true, dies := 8, seq := 0, mtime := 0, boots := 0, energy := [], residue := [], ops := [], us := 0, spanMs := 0, gap := false
    overrange := false, flashFault := false, flashNext := false, sealed := true, lineFault := 0, serial := 0, pkgSerial := 0, last := []
    stored := [], flash := [], ram := [], liveGen := 0, live := [] }

/-- The machine in cold reset: the straps are read, and firmware is loaded, when PKG_RST_N is released (BRING_UP). -/
def State.reset : State := ⟨Pkg.reset, Milnik.reset, [], []⟩

end Sys2Proof.Machine
end

