-- ==== Sys2Proof/Machine/Lift.lean ====
section
/-! DEFINITION. How a command acts on the state: on the package or on Milnik, and when: while the package is powered, while firmware
runs, once the host has answered a snoop (R361), once held writes are through (R442). -/
namespace Sys2Proof.Machine

/-- The package after a command, with what the command leaves to be done at once (R177, R429). A command that needs a line which
the host may hold waits for the host's answer: the snoop goes out, and nothing else has happened (R361). -/
def State.put (s : State) (c : Instr) (p : Pkg) : Host.Outcome State Fault Refusal :=
  let q := p.settle
  match q.touched with
  | some x => .next { s with pkg := s.pkg.sendSnoop x.1 x.2, waiting := s.waiting ++ [c] }
  | none => .next { s with pkg := q }

/-- An event of the board: it acts in every state. -/
def State.always (s : State) (c : Instr) (f : Pkg → Pkg) : Host.Outcome State Fault Refusal := s.put c (f s.pkg)

/-- An event of the package: in cold reset nothing of it happens (R474, R481). -/
def State.inPower (s : State) (c : Instr) (f : Pkg → Pkg) : Host.Outcome State Fault Refusal :=
  if s.pkg.powered then s.put c (f s.pkg) else .next s

/-- An act of firmware: it needs firmware to run (R446). -/
def State.byFirmware (s : State) (c : Instr) (f : Pkg → Pkg) : Host.Outcome State Fault Refusal :=
  if s.pkg.powered && s.pkg.served then s.put c (f s.pkg) else .next s

/-- The transport of a management request. -/
def requestChan : Instr → Option Chan
  | .regRead ch _ _ _ _ | .regWrite ch _ _ _ | .evtRead ch _ _ _ | .jrnlRead ch _ _ _ | .firmwareBegin ch _ _ | .firmwareData ch _ _ _
  | .firmwareEnd ch _ _ | .firmwareStatus ch _ | .lockSvn ch _ | .getCert ch _ _ _ | .getMeas ch _ _ _ => some ch
  | _ => none

/-- R442: a request of a transport whose REG_WRITE the arbiter still holds, or of which an earlier request waits, waits for its turn. -/
def Pkg.inTurn (p : Pkg) (ch : Chan) : Bool := !p.fw.jheld.any (fun w => w.reply.isSome && w.origin.chan = ch)
def State.turn (s : State) (ch : Chan) : Bool := s.pkg.inTurn ch && !s.waiting.any (fun c => requestChan c = some ch)
def State.request (s : State) (c : Instr) (ch : Chan) (f : Pkg → Pkg) : Host.Outcome State Fault Refusal :=
  if s.pkg.powered && !s.turn ch then .next { s with waiting := s.waiting ++ [c] } else s.inPower c f

/-- A slot of a tab word: it issues, it holds its word, or the program is in error and what follows is unpredictable (log 3). -/
def State.slot (s : State) (c : Instr) (t : Site) (f : Core → SlotOut) : Host.Outcome State Fault Refusal :=
  match s.pkg.site t with
  | none => .next s
  | some key =>
    match f (s.pkg.core key) with
    | .go q => s.put c (s.pkg.slotGo key t (fun _ => q))
    | .held b => .next { s with pkg := s.pkg.onKey key (fun q => q.hold b) }
    | .bad => .fault .programError

/-- R162: the slot that holds a PSIG. -/
def State.psig (s : State) (c : Instr) (t : Site) (scope n target : Nat) : Host.Outcome State Fault Refusal :=
  match s.pkg.site t with
  | none => .next s
  | some key =>
    if scope < 5 && n < 65536 && wordOk target then s.put c ((s.pkg.psigFrom key scope n target).slotGo key t id)
    else .fault .programError

/-- An event of Milnik, which no state of the package alters (R467). -/
def State.meter (s : State) (f : Milnik → Milnik) : Host.Outcome State Fault Refusal := .next { s with mtr := f s.mtr }

/-- R465: an answer of Milnik's I3C port. -/
def State.answer (s : State) (f : Milnik → List Byte) : Host.Outcome State Fault Refusal :=
  if s.mtr.powered then .next { s with pkg := s.pkg.emit (.meter (f s.mtr)) } else .next s

/-- R461: a die's counts go over its counting line. -/
def State.countingLine (s : State) (n : Nat) (framing : Bool) : Host.Outcome State Fault Refusal :=
  if s.pkg.present n then
    .next { s with mtr := s.mtr.countLine n (s.pkg.die n).line framing, pkg := s.pkg.updDie n (fun d => { d with line := [] }) }
  else .next s

end Sys2Proof.Machine
end

