-- ==== Sys2Proof/Machine/ExecAccess.lean ====
section
/-! DEFINITION. The meanings of the commands of one family: register access (R10, R40, R408). -/
namespace Sys2Proof.Machine

/-- COMMIT (R40): 1 is written to COMMIT of HS_CLAMP_k. -/
def execCommit (k : Nat) (o : Origin) (s : State) : Host.Outcome State Fault Refusal :=
  s.inPower (.commit k o) (fun p => p.access (0x200 + 4 * (k % 16)) 4 1 o)

/-- REGISTER_WRITE (R10, R34, R358, R453). -/
def execRegisterWrite (w : RegWriteTo) (s : State) : Host.Outcome State Fault Refusal :=
  s.inPower (.registerWrite w) (fun p => p.registerWrite w)

/-- HOST_RESET (R408). -/
def execHostReset (o : Origin) (s : State) : Host.Outcome State Fault Refusal :=
  s.inPower (.hostReset o) (fun p => p.access 0x538 4 0xA5 o)

end Sys2Proof.Machine
end

