-- ==== Sys2Proof/Machine/ExecArray.lean ====
section
/-! DEFINITION. The meanings of the commands of one family: the outer-product array and its fills (chapter 3). -/
namespace Sys2Proof.Machine

/-- RUN (R80, R82, R151). -/
def execRun (t : Site) (o : RunOp) (s : State) : Host.Outcome State Fault Refusal :=
  s.slot (.run t o) t (fun c => c.slotRun o)

/-- LOAD (R78, R80, R151). -/
def execLoad (t : Site) (o : MoveOp) (s : State) : Host.Outcome State Fault Refusal :=
  s.slot (.load t o) t (fun c => c.slotLoad o)

/-- DRAIN (R78, R80, R151). -/
def execDrain (t : Site) (o : MoveOp) (s : State) : Host.Outcome State Fault Refusal :=
  s.slot (.drain t o) t (fun c => c.slotDrain o)

/-- LOAD_DRAIN_BEGIN (R79). -/
def execLoadDrainBegin (n : Nat) (lc : Nat) (s : State) : Host.Outcome State Fault Refusal :=
  s.inPower (.loadDrainBegin n lc) (fun p => p.onCore n lc Core.moveBegin)

/-- STROKE (R74, R75). -/
def execStroke (n : Nat) (lc : Nat) (s : State) : Host.Outcome State Fault Refusal :=
  s.inPower (.stroke n lc) (fun p => p.strokeOn n lc)

/-- SPECULATION_VERIFY (R89). -/
def execSpeculationVerify (n : Nat) (lc : Nat) (s : State) : Host.Outcome State Fault Refusal :=
  s.inPower (.speculationVerify n lc) (fun p => p.onCore n lc Core.verify)

/-- RUN_RETIRE (R81, R90). -/
def execRunRetire (n : Nat) (lc : Nat) (s : State) : Host.Outcome State Fault Refusal :=
  s.inPower (.runRetire n lc) (fun p => p.onCore n lc Core.runRetire)

/-- LOAD_RETIRE (R81). -/
def execLoadRetire (n : Nat) (lc : Nat) (s : State) : Host.Outcome State Fault Refusal :=
  s.inPower (.loadRetire n lc) (fun p => p.onCore n lc Core.loadRetire)

/-- DRAIN_RETIRE (R81). -/
def execDrainRetire (n : Nat) (lc : Nat) (s : State) : Host.Outcome State Fault Refusal :=
  s.inPower (.drainRetire n lc) (fun p => p.onCore n lc Core.drainRetire)

/-- FBFILL (R69, R152). -/
def execFbfill (t : Site) (o : FillArg) (s : State) : Host.Outcome State Fault Refusal :=
  s.slot (.fbfill t o) t (fun c => c.slotFill o)

/-- FILL_POSITION_WRITE (R69, R70, R86) of fretboard A, or of B. -/
def execFillPositionWrite (n : Nat) (lc : Nat) (b : Bool) (s : State) : Host.Outcome State Fault Refusal :=
  s.inPower (.fillPositionWrite n lc b) (fun p => p.onCore n lc (fun c => c.fillPosition b))

/-- FBFILL_RETIRE (R81). -/
def execFbfillRetire (n : Nat) (lc : Nat) (b : Bool) (s : State) : Host.Outcome State Fault Refusal :=
  s.inPower (.fbfillRetire n lc b) (fun p => p.onCore n lc (fun c => c.fillRetire b))

/-- KERF_COMMIT_APPLY (R97) on physical core `c`. -/
def execKerfCommitApply (n : Nat) (c : Nat) (s : State) : Host.Outcome State Fault Refusal :=
  s.inPower (.kerfCommitApply n c) (fun p => p.kerfApply n c)

end Sys2Proof.Machine
end

