-- ==== Sys2Proof/Machine/ExecBoard.lean ====
section
/-! DEFINITION. The meanings of the commands of one family: the board: supplies, resets and the host port's pins (R471 to R484). -/
namespace Sys2Proof.Machine

/-- PKG_PWROK (R474). -/
def execPkgPwrok (s : State) : Host.Outcome State Fault Refusal :=
  s.always .pkgPwrok (fun p => p.pwrok)

/-- COLD_RESET (R475, R481): `pwrok` says whether PKG_PWROK stays high. Commands that wait are lost with the rest. -/
def execColdReset (pwrok : Bool) (s : State) : Host.Outcome State Fault Refusal :=
  ({ s with waiting := [] } : State).always (.coldReset pwrok) (fun p => p.coldReset pwrok)

/-- BRING_UP (R480, R483). -/
def execBringUp (o : BringUp) (s : State) : Host.Outcome State Fault Refusal :=
  s.always (.bringUp o) (fun p => p.bringUp o)

/-- HOST_PORT_RESET (R481). -/
def execHostPortReset (s : State) : Host.Outcome State Fault Refusal :=
  s.always .hostPortReset (fun p => p.hostPortReset)

/-- CXL_PERST_N_RELEASE (R482): the link trains at a speed and width. -/
def execPerstRelease (speed : Nat) (width : Nat) (s : State) : Host.Outcome State Fault Refusal :=
  s.always (.perstRelease speed width) (fun p => p.perstRelease speed width)

/-- THERM_TRIP (R477). -/
def execThermTrip (s : State) : Host.Outcome State Fault Refusal :=
  s.always .thermTrip (fun p => p.thermTrip)

/-- CLK_LOST (R479). -/
def execClkLost (c : Clk) (s : State) : Host.Outcome State Fault Refusal :=
  s.always (.clkLost c) (fun p => p.clkLost c)

/-- VR_ALERT (R476): the pin as the regulators drive it. -/
def execVrAlert (on : Bool) (s : State) : Host.Outcome State Fault Refusal :=
  s.always (.vrAlert on) (fun p => p.vrAlert on)

/-- PMBUS_POLL (R476): the rails out of tolerance, and whether each is below. -/
def execPmbusPoll (out : List (Rail × Bool)) (s : State) : Host.Outcome State Fault Refusal :=
  s.byFirmware (.pmbusPoll out) (fun p => p.pmbusPoll out)

end Sys2Proof.Machine
end

