-- ==== Sys2Proof/Machine/ExecCommand.lean ====
section
/-! DEFINITION. The meanings of the commands of one family: commands of the command table (R166 to R287, R347 to R352, R375 to R378, R434). -/
namespace Sys2Proof.Machine

/-- KERNEL (R166): the command-table entry `k`. -/
def execKernel (k : Nat) (s : State) : Host.Outcome State Fault Refusal :=
  s.inPower (.kernel k) (fun p => p.kernel k)

/-- STATISTICS_PASS (R250, R251), in `ticks`; its read number `ix` meets `ecc`. -/
def execStatisticsPass (k : Nat) (ticks : Nat) (s : State) (ix : Nat := 0) (ecc : Ecc := .keep) : Host.Outcome State Fault Refusal :=
  s.inPower (.statisticsPass k ticks ix ecc) (fun p => p.statisticsPass k ticks ix ecc)

/-- APPLY_PASS (R253 to R257), in `ticks`; its read number `ix` meets `ecc`. -/
def execApplyPass (k : Nat) (ticks : Nat) (s : State) (ix : Nat := 0) (ecc : Ecc := .keep) : Host.Outcome State Fault Refusal :=
  s.inPower (.applyPass k ticks ix ecc) (fun p => p.applyPass k ticks ix ecc)

/-- RING_COPY (R377): the next segment. -/
def execRingCopy (k : Nat) (ecc : Ecc) (s : State) : Host.Outcome State Fault Refusal :=
  s.inPower (.ringCopy k ecc) (fun p => p.ringCopy k ecc)

/-- ENGINE_GATHER (R378): the next segment. -/
def execEngineGather (k : Nat) (ecc : Ecc) (s : State) : Host.Outcome State Fault Refusal :=
  s.inPower (.engineGather k ecc) (fun p => p.engineGather k ecc)

/-- ENGINE_START (R210) on die `n`. -/
def execEngineStart (n : Nat) (s : State) : Host.Outcome State Fault Refusal :=
  s.inPower (.engineStart n) (fun p => p.engineStart n)

/-- FILL (R221): the next lines. -/
def execFill (k : Nat) (s : State) : Host.Outcome State Fault Refusal :=
  s.inPower (.fill k) (fun p => p.fillCmd k)

/-- SCRUB (R228, R229): the next line. -/
def execScrub (k : Nat) (ecc : Ecc) (s : State) : Host.Outcome State Fault Refusal :=
  s.inPower (.scrub k ecc) (fun p => p.scrubCmd k ecc)

/-- COLLECTIVE_STREAM_START (R267) on die `n`. -/
def execCollectiveStreamStart (n : Nat) (ecc : Ecc) (s : State) : Host.Outcome State Fault Refusal :=
  s.inPower (.collectiveStreamStart n ecc) (fun p => p.streamStart n ecc)

/-- REDUCE (R272): the next act of stream `ix`. -/
def execReduce (n : Nat) (ix : Nat) (ecc : Ecc) (s : State) : Host.Outcome State Fault Refusal :=
  s.inPower (.reduce n ix ecc) (fun p => p.reduce n ix ecc)

/-- RANK_ORDERED_REDUCE (R278). -/
def execRankOrderedReduce (n : Nat) (ix : Nat) (ecc : Ecc) (s : State) : Host.Outcome State Fault Refusal :=
  s.inPower (.rankOrderedReduce n ix ecc) (fun p => p.rankReduce n ix ecc)

/-- ALL_GATHER (R280). -/
def execAllGather (n : Nat) (ix : Nat) (ecc : Ecc) (s : State) : Host.Outcome State Fault Refusal :=
  s.inPower (.allGather n ix ecc) (fun p => p.allGather n ix ecc)

/-- ALL_REDUCE (R266). -/
def execAllReduce (n : Nat) (ix : Nat) (ecc : Ecc) (s : State) : Host.Outcome State Fault Refusal :=
  s.inPower (.allReduce n ix ecc) (fun p => p.allReduce n ix ecc)

/-- EPOCH (R283). -/
def execEpoch (k : Nat) (ecc : Ecc) (s : State) : Host.Outcome State Fault Refusal :=
  s.inPower (.epoch k ecc) (fun p => p.epochStep k ecc)

/-- PHASE_BEGIN (R347). -/
def execPhaseBegin (k : Nat) (s : State) : Host.Outcome State Fault Refusal :=
  s.inPower (.phaseBegin k) (fun p => p.phaseBegin k)

/-- PHASE_END (R347 to R350). -/
def execPhaseEnd (k : Nat) (s : State) : Host.Outcome State Fault Refusal :=
  s.inPower (.phaseEnd k) (fun p => p.phaseEnd k)

/-- SLOW_DETECTION (R351, R352). -/
def execSlowDetection (s : State) : Host.Outcome State Fault Refusal :=
  s.byFirmware .slowDetection (fun p => p.slowDetection)

/-- DUMP (R434). -/
def execDump (k : Nat) (ecc : Ecc) (s : State) : Host.Outcome State Fault Refusal :=
  s.inPower (.dump k ecc) (fun p => p.dump k ecc)

/-- PEGSET_SET (R375). -/
def execPegsetSet (k : Nat) (s : State) : Host.Outcome State Fault Refusal :=
  s.inPower (.pegsetSet k) (fun p => p.pegsetSet k)

/-- PEGSET_ADD (R375). -/
def execPegsetAdd (k : Nat) (s : State) : Host.Outcome State Fault Refusal :=
  s.inPower (.pegsetAdd k) (fun p => p.pegsetAdd k)

/-- NOP (R375). -/
def execNop (k : Nat) (s : State) : Host.Outcome State Fault Refusal :=
  s.inPower (.nop k) (fun p => p.nop k)

end Sys2Proof.Machine
end

