-- ==== Sys2Proof/Machine/ExecCtl.lean ====
section
/-! DEFINITION. The meanings of the commands of one family: the CTL slot (R145, R146, R154 to R163, R172). -/
namespace Sys2Proof.Machine

/-- PWAIT (R161). -/
def execPwait (t : Site) (q : Nat) (k : Nat) (keep : Bool) (s : State) : Host.Outcome State Fault Refusal :=
  s.slot (.pwait t q k keep) t (fun c => c.slotPwait q k keep)

/-- QWAIT (R146). -/
def execQwait (t : Site) (mask : Nat) (s : State) : Host.Outcome State Fault Refusal :=
  s.slot (.qwait t mask) t (fun c => c.slotQwait mask)

/-- PADD (R139, R160). -/
def execPadd (t : Site) (q : Nat) (k : Nat) (s : State) : Host.Outcome State Fault Refusal :=
  s.slot (.padd t q k) t (fun c => slotIf (pegOk q && wordOk k) (c.addPeg q k))

/-- PSET (R139, R160). -/
def execPset (t : Site) (q : Nat) (k : Nat) (s : State) : Host.Outcome State Fault Refusal :=
  s.slot (.pset t q k) t (fun c => slotIf (pegOk q && wordOk k) (c.setPeg q k))

/-- PSIG (R162, R163). -/
def execPsig (t : Site) (scope : Nat) (k : Nat) (target : Nat) (s : State) : Host.Outcome State Fault Refusal :=
  s.psig (.psig t scope k target) t scope k target

/-- SKEY (R145). -/
def execSkey (t : Site) (key : Nat) (sa : Nat) (sb : Nat) (s : State) : Host.Outcome State Fault Refusal :=
  s.slot (.skey t key sa sb) t (fun c => slotIf (keyOk key && regOk sa && regOk sb) (c.skey key sa sb))

/-- LOOP (R154). -/
def execLoop (t : Site) (src : LoopSrc) (len : Nat) (s : State) : Host.Outcome State Fault Refusal :=
  s.slot (.loop t src len) t (fun c => slotIf (src.ok && len < 65536 && c.loopOk src len) (c.loopOp src len))

/-- BRZ (R157). -/
def execBrz (t : Site) (a : Nat) (off : Int) (s : State) : Host.Outcome State Fault Refusal :=
  s.slot (.brz t a off) t (fun c => slotIf (regOk a) (c.branchIf (c.rdS a = 0#64) off))

/-- BRNZ (R157). -/
def execBrnz (t : Site) (a : Nat) (off : Int) (s : State) : Host.Outcome State Fault Refusal :=
  s.slot (.brnz t a off) t (fun c => slotIf (regOk a) (c.branchIf (!(c.rdS a = 0#64)) off))

/-- RAISE (R172). -/
def execRaise (t : Site) (code : Nat) (s : State) : Host.Outcome State Fault Refusal :=
  s.slot (.raise t code) t (fun c => slotIf (code < 65536) (c.raise code))

end Sys2Proof.Machine
end

