-- ==== Sys2Proof/Machine/ExecFirmware.lean ====
section
/-! DEFINITION. The meanings of the commands of one family: firmware's work (R386 to R402, R424, R442, R454, R455). -/
namespace Sys2Proof.Machine

/-- ROTATION_TEST (R392, R393) of physical core `c`. -/
def execRotationTest (n : Nat) (c : Nat) (s : State) : Host.Outcome State Fault Refusal :=
  s.byFirmware (.rotationTest n c) (fun p => p.rotationTest n c)

/-- ROTATION_TEST_END (R395): the column group that failed alone, where one did. -/
def execRotationTestEnd (n : Nat) (c : Nat) (pass : Bool) (group : Option Nat) (s : State) : Host.Outcome State Fault Refusal :=
  s.byFirmware (.rotationTestEnd n c pass group) (fun p => p.rotationTestEnd n c pass group)

/-- FULL_TEST_END (R96). -/
def execFullTestEnd (n : Nat) (c : Nat) (pass : Bool) (group : Option Nat) (s : State) : Host.Outcome State Fault Refusal :=
  s.byFirmware (.fullTestEnd n c pass group) (fun p => p.fullTestEnd n c pass group)

/-- REBIND (R397, R398) of logical core `lc`. -/
def execRebind (n : Nat) (lc : Nat) (s : State) : Host.Outcome State Fault Refusal :=
  s.byFirmware (.rebind n lc) (fun p => p.rebind n lc)

/-- JOB_WATCHDOG (R401, R402). -/
def execJobWatchdog (s : State) : Host.Outcome State Fault Refusal :=
  s.byFirmware .jobWatchdog (fun p => p.jobWatchdog)

/-- ABORT_DONE (R391). -/
def execAbortDone (job : Nat) (s : State) : Host.Outcome State Fault Refusal :=
  s.byFirmware (.abortDone job) (fun p => p.abortDone job)

/-- DRAINED (R329). -/
def execDrained (s : State) : Host.Outcome State Fault Refusal :=
  s.byFirmware .drained (fun p => p.drained)

/-- MEM_CE (R386) of controller `m`. -/
def execMemCe (n : Nat) (m : Nat) (s : State) : Host.Outcome State Fault Refusal :=
  s.byFirmware (.memCe n m) (fun p => p.memCE n m)

/-- DT_REPLAY (R386): `k` replays since the last summary. -/
def execDtReplay (k : Nat) (s : State) : Host.Outcome State Fault Refusal :=
  s.byFirmware (.dtReplay k) (fun p => p.dtReplay k)

/-- EVENT_RESEND (R442) to collector `k`. -/
def execEventResend (k : Nat) (seq : Nat) (s : State) : Host.Outcome State Fault Refusal :=
  s.byFirmware (.eventResend k seq) (fun p => p.eventResend k seq)

/-- JOURNAL_FLUSH (R454) of `k` entries. -/
def execJournalFlush (k : Nat) (s : State) : Host.Outcome State Fault Refusal :=
  s.byFirmware (.journalFlush k) (fun p => p.journalFlush k)

/-- COMPACTION (R455). -/
def execCompaction (s : State) : Host.Outcome State Fault Refusal :=
  s.byFirmware .compaction (fun p => p.compaction)

/-- SAMPLE (R424 to R427). -/
def execSample (late : Bool) (s : State) : Host.Outcome State Fault Refusal :=
  s.inPower (.sample late) (fun p => p.sample late)

end Sys2Proof.Machine
end

