-- ==== Sys2Proof/Machine/ExecFrames.lean ====
section
/-! DEFINITION. The meanings of the commands of one family: frames of the fabric (R268 to R287, R302 to R329, R377). -/
namespace Sys2Proof.Machine

/-- READY (R268) arrives. -/
def execReadyFrame (port : Nat) (f : Frame) (s : State) : Host.Outcome State Fault Refusal :=
  s.inPower (.readyFrame port f) (fun p => p.arrive port f 0x10 (fun p => p.readyFrame f))

/-- AGREE (R273) arrives. -/
def execAgree (port : Nat) (f : Frame) (ecc : Ecc) (s : State) : Host.Outcome State Fault Refusal :=
  s.inPower (.agree port f ecc) (fun p => p.arrive port f 0x12 (fun p => p.agreeFrame f ecc))

/-- CONTRIB (R235) arrives. -/
def execContrib (port : Nat) (f : Frame) (s : State) : Host.Outcome State Fault Refusal :=
  s.inPower (.contrib port f) (fun p => p.arrive port f 0x13 (fun p => p.contribFrame f))

/-- SPARSE (R276) arrives. -/
def execSparse (port : Nat) (f : Frame) (s : State) : Host.Outcome State Fault Refusal :=
  s.inPower (.sparse port f) (fun p => p.arrive port f 0x14 (fun p => p.sparseFrame f))

/-- APPLIED (R285) arrives. -/
def execApplied (port : Nat) (f : Frame) (s : State) : Host.Outcome State Fault Refusal :=
  s.inPower (.applied port f) (fun p => p.arrive port f 0x15 (fun p => p.appliedFrame f))

/-- GRANT (R278) arrives. -/
def execGrant (port : Nat) (f : Frame) (ecc : Ecc) (s : State) : Host.Outcome State Fault Refusal :=
  s.inPower (.grant port f ecc) (fun p => p.arrive port f 0x16 (fun p => p.grantFrame f ecc))

/-- RANKDATA (R278) arrives. -/
def execRankData (port : Nat) (f : Frame) (ecc : Ecc) (s : State) : Host.Outcome State Fault Refusal :=
  s.inPower (.rankData port f ecc) (fun p => p.arrive port f 0x17 (fun p => p.rankData f ecc))

/-- SHARD (R280) arrives. -/
def execShard (port : Nat) (f : Frame) (s : State) : Host.Outcome State Fault Refusal :=
  s.inPower (.shard port f) (fun p => p.arrive port f 0x18 (fun p => p.shardFrame f))

/-- SHARD_ACK (R280) arrives. -/
def execShardAck (port : Nat) (f : Frame) (s : State) : Host.Outcome State Fault Refusal :=
  s.inPower (.shardAck port f) (fun p => p.arrive port f 0x19 (fun p => p.shardAck f))

/-- HALT (R286) arrives. -/
def execHalt (port : Nat) (f : Frame) (s : State) : Host.Outcome State Fault Refusal :=
  s.inPower (.halt port f) (fun p => p.arrive port f 0x1A (fun p => p.haltFrame f))

/-- FENCE (R283) arrives. -/
def execFence (port : Nat) (f : Frame) (s : State) : Host.Outcome State Fault Refusal :=
  s.inPower (.fence port f) (fun p => p.arrive port f 0x1B (fun p => p.fenceFrame f))

/-- ABORT (R326) arrives on a port. -/
def execAbort (port : Nat) (f : Frame) (s : State) : Host.Outcome State Fault Refusal :=
  s.inPower (.abort port f) (fun p => p.abortFrame port f)

/-- FAB_ABORT (R325): GO is written for an entry. -/
def execFabAbort (entry : Nat) (o : Origin) (s : State) : Host.Outcome State Fault Refusal :=
  s.inPower (.fabAbort entry o) (fun p => p.access (rFAB_ABORT.at 0 0 0) 4 (16 + entry % 16) o)

/-- ABORT_KEY_EXPIRY (R326). -/
def execAbortKeyExpiry (s : State) : Host.Outcome State Fault Refusal :=
  s.inPower .abortKeyExpiry (fun p => p.keyExpiry)

/-- WRITE (R377) arrives. -/
def execWriteFrame (port : Nat) (f : Frame) (s : State) (ecc : Ecc := .keep) : Host.Outcome State Fault Refusal :=
  s.inPower (.writeFrame port f ecc) (fun p => p.arrive port f 0x1 (fun p => p.writeFrame f ecc))

/-- READ (R377) arrives. -/
def execReadFrame (port : Nat) (f : Frame) (ecc : Ecc) (s : State) : Host.Outcome State Fault Refusal :=
  s.inPower (.readFrame port f ecc) (fun p => p.arrive port f 0x2 (fun p => p.readFrame f ecc))

/-- READ_DATA (R303, R377) arrives. -/
def execReadData (port : Nat) (f : Frame) (s : State) : Host.Outcome State Fault Refusal :=
  s.inPower (.readData port f) (fun p => p.arrive port f 0x3 (fun p => p.readData f))

/-- WRITE_ACK (R377) arrives. -/
def execWriteAck (port : Nat) (f : Frame) (s : State) : Host.Outcome State Fault Refusal :=
  s.inPower (.writeAck port f) (fun p => p.arrive port f 0x4 (fun p => p.writeAck f))

/-- PSIG_FRAME (R309) arrives. -/
def execPsigFrame (port : Nat) (f : Frame) (s : State) : Host.Outcome State Fault Refusal :=
  s.inPower (.psigFrame port f) (fun p => p.arrive port f 0x5 (fun p => p.psigFrame f))

/-- PSIG_ACK (R308, R309) arrives. -/
def execPsigAck (port : Nat) (f : Frame) (s : State) : Host.Outcome State Fault Refusal :=
  s.inPower (.psigAck port f) (fun p => p.arrive port f 0x6 (fun p => p.psigAck f))

/-- UNREACH (R314) arrives. -/
def execUnreach (port : Nat) (f : Frame) (s : State) : Host.Outcome State Fault Refusal :=
  s.inPower (.unreach port f) (fun p => p.arrive port f 0x7 (fun p => p.unreachFrame f))

/-- FRAME_FORWARD (R310 to R314). -/
def execFrameForward (port : Nat) (f : Frame) (s : State) : Host.Outcome State Fault Refusal :=
  s.inPower (.frameForward port f) (fun p => p.frameForward port f)

/-- EXP_FRAME (R272) arrives. -/
def execExpFrame (port : Nat) (f : Frame) (s : State) : Host.Outcome State Fault Refusal :=
  s.inPower (.expFrame port f) (fun p => p.arrive port f 0x11 (fun p => p.expFrame f))

end Sys2Proof.Machine
end

