-- ==== Sys2Proof/Machine/ExecGth.lean ====
section
/-! DEFINITION. The meanings of the commands of one family: the GTH slot, the gather unit, programs and the tracker (R153, R165 to R209). -/
namespace Sys2Proof.Machine

/-- GATHER (R153, R191, R192). -/
def execGather (t : Site) (o : GthArg) (s : State) : Host.Outcome State Fault Refusal :=
  s.slot (.gather t o) t (fun c => c.slotGth .gather o (benchBase t.die t.core))

/-- STREAM (R153, R191, R195). -/
def execStream (t : Site) (o : GthArg) (s : State) : Host.Outcome State Fault Refusal :=
  s.slot (.stream t o) t (fun c => c.slotGth .stream o (benchBase t.die t.core))

/-- COPY (R153, R191, R196). -/
def execCopy (t : Site) (o : GthArg) (s : State) : Host.Outcome State Fault Refusal :=
  s.slot (.copy t o) t (fun c => c.slotGth .copy o (benchBase t.die t.core))

/-- PREFETCH (R153, R191, R197). -/
def execPrefetch (t : Site) (o : GthArg) (s : State) : Host.Outcome State Fault Refusal :=
  s.slot (.prefetch t o) t (fun c => c.slotGth .prefetch o (benchBase t.die t.core))

/-- GATHER_ACCESS (R187): one beat of the gather unit. -/
def execGatherAccess (n : Nat) (lc : Nat) (s : State) (ecc : Ecc := .keep) : Host.Outcome State Fault Refusal :=
  s.inPower (.gatherAccess n lc ecc) (fun p => p.gatherAccess n lc ecc)

/-- LINE_RETURN (R188) of request `ix`. -/
def execLineReturn (n : Nat) (lc : Nat) (ix : Nat) (s : State) (ecc : Ecc := .keep) : Host.Outcome State Fault Refusal :=
  s.inPower (.lineReturn n lc ix ecc) (fun p => p.lineReturn n lc ix ecc)

/-- GTH_RETIRE (R198) of thread `x`. -/
def execGthRetire (n : Nat) (lc : Nat) (x : Nat) (s : State) : Host.Outcome State Fault Refusal :=
  s.inPower (.gthRetire n lc x) (fun p => p.onCore n lc (fun c => c.gthRetire x))

/-- INSTRUCTION_FETCH (R171) of a line. -/
def execInstructionFetch (n : Nat) (lc : Nat) (line : Nat) (ecc : Ecc) (s : State) : Host.Outcome State Fault Refusal :=
  s.inPower (.instructionFetch n lc line ecc) (fun p => p.instructionFetch n lc line ecc)

/-- PROGRAM_START (R165, R169). -/
def execProgramStart (n : Nat) (lc : Nat) (s : State) (ecc : Ecc := .keep) : Host.Outcome State Fault Refusal :=
  s.inPower (.programStart n lc ecc) (fun p => p.startNext n lc ecc)

/-- PROGRAM_END (R170). -/
def execProgramEnd (n : Nat) (lc : Nat) (s : State) : Host.Outcome State Fault Refusal :=
  s.inPower (.programEnd n lc) (fun p => p.endNext n lc)

/-- TRACKER_WAKE (R202). -/
def execTrackerWake (n : Nat) (res : Res) (s : State) : Host.Outcome State Fault Refusal :=
  s.inPower (.trackerWake n res) (fun p => p.trackerWake n res)

/-- MEMORY_ACCESS_COMPLETE (R200, R205) of tracker entry `ix`. -/
def execMemoryAccessComplete (n : Nat) (ix : Nat) (ecc : Ecc) (s : State) : Host.Outcome State Fault Refusal :=
  s.inPower (.memoryAccessComplete n ix ecc) (fun p => p.accessComplete n ix ecc)

end Sys2Proof.Machine
end

