-- ==== Sys2Proof/Machine/ExecHostPort.lean ====
section
/-! DEFINITION. The meanings of the commands of one family: the host's accesses to device memory (R224, R356 to R363). -/
namespace Sys2Proof.Machine

/-- CXL_MEM_READ (R224, R357, R360, R361). -/
def execCxlMemRead (hpa : Nat) (holds : Bool) (ecc : Ecc) (s : State) (retries : Nat := 0) : Host.Outcome State Fault Refusal :=
  s.inPower (.cxlMemRead hpa holds ecc retries) (fun p => p.cxlRead hpa retries holds ecc)

/-- CXL_MEM_WRITE (R357, R360, R363). -/
def execCxlMemWrite (hpa : Nat) (bs : List Byte) (holds : Bool) (s : State) (ecc : Ecc := .keep) (retries : Nat := 0) : Host.Outcome State Fault Refusal :=
  s.inPower (.cxlMemWrite hpa bs holds ecc retries) (fun p => p.cxlWrite hpa retries bs holds ecc)

/-- BISNP_RESPONSE (R361). -/
def execBisnpResponse (line : Nat) (inv : Bool) (data : Option (List Byte)) (s : State) (ecc : Ecc := .keep) : Host.Outcome State Fault Refusal :=
  s.inPower (.bisnpResponse line inv data ecc) (fun p => p.bisnpResponse line inv data ecc)

/-- HOST_SNOOP (R356). -/
def execHostSnoop (a : Nat) (s : State) (retries : Nat := 0) : Host.Outcome State Fault Refusal :=
  s.inPower (.hostSnoop a retries) (fun p => p.hostSnoop a retries)

/-- BENCH_WINDOW_ACCESS (R178). -/
def execBenchWindowAccess (n : Nat) (lc : Nat) (off : Nat) (len : Nat) (wr : Option (List Byte)) (s : State) (ecc : Ecc := .keep) : Host.Outcome State Fault Refusal :=
  s.inPower (.benchWindowAccess n lc off len wr ecc) (fun p => p.benchWindow n lc off len wr ecc)

end Sys2Proof.Machine
end

