-- ==== Sys2Proof/Machine/ExecLds.lean ====
section
/-! DEFINITION. The meanings of the commands of one family: the LDS slot (R148). -/
namespace Sys2Proof.Machine

/-- VLD (R148). -/
def execVld (t : Site) (d : Nat) (a : Nat) (off : Nat) (s : State) : Host.Outcome State Fault Refusal :=
  s.slot (.vld t d a off) t (fun c => slotIf (c.ldsOk 256 d a off) (c.vld d a off))

/-- VST (R148). -/
def execVst (t : Site) (d : Nat) (a : Nat) (off : Nat) (s : State) : Host.Outcome State Fault Refusal :=
  s.slot (.vst t d a off) t (fun c => slotIf (c.ldsOk 256 d a off) (c.vst d a off))

/-- SLD (R148). -/
def execSld (t : Site) (d : Nat) (a : Nat) (off : Nat) (s : State) : Host.Outcome State Fault Refusal :=
  s.slot (.sld t d a off) t (fun c => slotIf (c.ldsOk 8 d a off) (c.sld d a off))

/-- SST (R148). -/
def execSst (t : Site) (d : Nat) (a : Nat) (off : Nat) (s : State) : Host.Outcome State Fault Refusal :=
  s.slot (.sst t d a off) t (fun c => slotIf (c.ldsOk 8 d a off) (c.sst d a off))

/-- VLDB (R148). -/
def execVldb (t : Site) (d : Nat) (a : Nat) (off : Nat) (s : State) : Host.Outcome State Fault Refusal :=
  s.slot (.vldb t d a off) t (fun c => slotIf (c.ldsOk 4 d a off) (c.vldb d a off))

end Sys2Proof.Machine
end

