-- ==== Sys2Proof/Machine/ExecLinks.lean ====
section
/-! DEFINITION. The meanings of the commands of one family: links, time and route banks (R290 to R324). -/
namespace Sys2Proof.Machine

/-- LINK_FLIT (R291, R293) on lane group `g`. -/
def execLinkFlit (port : Nat) (g : Nat) (f : Flit) (s : State) : Host.Outcome State Fault Refusal :=
  s.inPower (.linkFlit port g f) (fun p => p.linkFlit port g f)

/-- LANE_GROUP_DOWN (R297). -/
def execLaneGroupDown (port : Nat) (g : Nat) (s : State) : Host.Outcome State Fault Refusal :=
  s.inPower (.laneGroupDown port g) (fun p => p.laneGroupDown port g)

/-- LINK_TRAINING (R295). -/
def execLinkTraining (port : Nat) (g : Nat) (s : State) : Host.Outcome State Fault Refusal :=
  s.inPower (.linkTraining port g) (fun p => p.linkTraining port g)

/-- TRAINING_TIMEOUT (R295). -/
def execTrainingTimeout (port : Nat) (g : Nat) (s : State) : Host.Outcome State Fault Refusal :=
  s.inPower (.trainingTimeout port g) (fun p => p.trainingTimeout port g)

/-- LINK_ID (R296). -/
def execLinkId (port : Nat) (l : LinkId) (s : State) : Host.Outcome State Fault Refusal :=
  s.inPower (.linkId port l) (fun p => p.linkId port l)

/-- RETRAIN (R297): a write of FAB_PORT_CTRL with RETRAIN set; `v`: the word's other bits. -/
def execRetrain (port : Nat) (v : Nat) (o : Origin) (s : State) : Host.Outcome State Fault Refusal :=
  s.inPower (.retrain port v o) (fun p => p.access (rFAB_PORT_CTRL.at 0 0 (port % 4)) 4 (v ||| 0x100) o)

/-- TSYNC (R319 to R322). -/
def execTsync (port : Nat) (x : Tsync) (s : State) : Host.Outcome State Fault Refusal :=
  s.inPower (.tsync port x) (fun p => p.tsync port x)

/-- FTC_UNSYNC (R324). -/
def execFtcUnsync (s : State) : Host.Outcome State Fault Refusal :=
  s.byFirmware .ftcUnsync (fun p => p.ftcUnsync)

/-- GRANDMASTER_START (R319). -/
def execGrandmasterStart (s : State) : Host.Outcome State Fault Refusal :=
  s.inPower .grandmasterStart (fun p => p.grandmasterStart)

/-- BANK_SWITCH (R317). -/
def execBankSwitch (s : State) : Host.Outcome State Fault Refusal :=
  s.inPower .bankSwitch (fun p => p.bankSwitch)

/-- FTC_NOW_READ (R323): a word of FTC_NOW or of another latching register. -/
def execFtcNowRead (off : Nat) (o : Origin) (s : State) : Host.Outcome State Fault Refusal :=
  s.inPower (.ftcNowRead off o) (fun p => p.latchRead s.mtr o off)

end Sys2Proof.Machine
end

