-- ==== Sys2Proof/Machine/ExecManagement.lean ====
section
/-! DEFINITION. The meanings of the commands of one family: management messages, attestation and DOE (R364, R438 to R452). -/
namespace Sys2Proof.Machine

/-- REG_READ (R441, R442); `ty`: the TYPE of the request, where it is one that R441 does not list. -/
def execRegRead (ch : Chan) (tag : Nat) (off : Nat) (count : Nat) (s : State) (ty : Nat := 1) : Host.Outcome State Fault Refusal :=
  s.request (.regRead ch tag off count ty) ch (fun p => p.regRead s.mtr ch tag off count ty)

/-- REG_WRITE (R441, R442). -/
def execRegWrite (ch : Chan) (tag : Nat) (off : Nat) (ws : List Word) (s : State) : Host.Outcome State Fault Refusal :=
  s.request (.regWrite ch tag off ws) ch (fun p => p.regWrite ch tag off ws)

/-- EVENT (R442): collector `k` acknowledges record `seq`. -/
def execEvent (k : Nat) (seq : Nat) (s : State) : Host.Outcome State Fault Refusal :=
  s.inPower (.event k seq) (fun p => p.eventAck k seq)

/-- EVT_READ (R441, R442). -/
def execEvtRead (ch : Chan) (tag : Nat) (first : Nat) (count : Nat) (s : State) : Host.Outcome State Fault Refusal :=
  s.request (.evtRead ch tag first count) ch (fun p => p.evtRead ch tag first count)

/-- JRNL_READ (R441, R456). -/
def execJrnlRead (ch : Chan) (tag : Nat) (first : Nat) (count : Nat) (s : State) : Host.Outcome State Fault Refusal :=
  s.request (.jrnlRead ch tag first count) ch (fun p => p.jrnlRead ch tag first count)

/-- FIRMWARE_BEGIN (R447). -/
def execFirmwareBegin (ch : Chan) (tag : Nat) (len : Nat) (s : State) : Host.Outcome State Fault Refusal :=
  s.request (.firmwareBegin ch tag len) ch (fun p => p.fwBegin ch tag len)

/-- FIRMWARE_DATA (R447). -/
def execFirmwareData (ch : Chan) (tag : Nat) (off : Nat) (bs : List Byte) (s : State) : Host.Outcome State Fault Refusal :=
  s.request (.firmwareData ch tag off bs) ch (fun p => p.fwData ch tag off bs)

/-- FIRMWARE_END (R446 to R448). -/
def execFirmwareEnd (ch : Chan) (tag : Nat) (w : FlashWrite) (s : State) : Host.Outcome State Fault Refusal :=
  s.request (.firmwareEnd ch tag w) ch (fun p => p.fwEnd ch tag w)

/-- FIRMWARE_STATUS (R447). -/
def execFirmwareStatus (ch : Chan) (tag : Nat) (s : State) : Host.Outcome State Fault Refusal :=
  s.request (.firmwareStatus ch tag) ch (fun p => p.fwStatus ch tag)

/-- LOCK_SVN (R449). -/
def execLockSvn (ch : Chan) (tag : Nat) (s : State) : Host.Outcome State Fault Refusal :=
  s.request (.lockSvn ch tag) ch (fun p => p.lockSvn ch tag)

/-- GET_CERT (R452). -/
def execGetCert (ch : Chan) (tag : Nat) (off : Nat) (len : Nat) (s : State) : Host.Outcome State Fault Refusal :=
  s.request (.getCert ch tag off len) ch (fun p => p.getCert ch tag off len)

/-- GET_MEAS (R451, R452). -/
def execGetMeas (ch : Chan) (tag : Nat) (nonce : List Byte) (mask : Nat) (s : State) : Host.Outcome State Fault Refusal :=
  s.request (.getMeas ch tag nonce mask) ch (fun p => p.getMeas ch tag nonce mask)

/-- DOE_DISCOVERY (R364): the protocol at an index. -/
def execDoeDiscovery (ix : Nat) (s : State) : Host.Outcome State Fault Refusal :=
  s.inPower (.doeDiscovery ix) (fun p => p.doeDiscovery ix)

/-- CDAT (R364). -/
def execCdat (s : State) : Host.Outcome State Fault Refusal :=
  s.inPower .cdat (fun p => p.cdat)

/-- IDE_KM (R364): keys are set on the link, or taken off it. -/
def execIdeKm (on : Bool) (s : State) : Host.Outcome State Fault Refusal :=
  s.inPower (.ideKm on) (fun p => p.ideKm on)

/-- NEIGHBOUR_DISCOVERY (R438). -/
def execNeighbourDiscovery (target : Nat) (s : State) : Host.Outcome State Fault Refusal :=
  s.inPower (.neighbourDiscovery target) (fun p => p.neighbourDiscovery target)

/-- ICMPV6_ECHO (R438). -/
def execIcmpv6Echo (data : List Byte) (s : State) : Host.Outcome State Fault Refusal :=
  s.inPower (.icmpv6Echo data) (fun p => p.icmpEcho data)

/-- ENTDAA (R439). -/
def execEntdaa (addr : Nat) (s : State) : Host.Outcome State Fault Refusal :=
  s.inPower (.entdaa addr) (fun p => p.entdaa addr)

/-- MANAGEMENT_PORT_LINK (R438). -/
def execManagementPortLink (up : Bool) (s : State) : Host.Outcome State Fault Refusal :=
  s.inPower (.managementPortLink up) (fun p => p.mgtLink up)

end Sys2Proof.Machine
end

