-- ==== Sys2Proof/Machine/ExecMeter.lean ====
section
/-! DEFINITION. The meanings of the commands of one family: the Milnik meter (R459 to R466). -/
namespace Sys2Proof.Machine

/-- MILNIK_POWER_UP (R463). -/
def execMilnikPowerUp (s : State) : Host.Outcome State Fault Refusal :=
  s.meter (fun m => m.powerUp)

/-- MILNIK_POWER_LOSS (R463). -/
def execMilnikPowerLoss (s : State) : Host.Outcome State Fault Refusal :=
  s.meter (fun m => m.powerLoss)

/-- MILNIK_SAMPLE (R459): the mV and mA of every rail. -/
def execMilnikSample (vi : List (Nat × Nat)) (s : State) : Host.Outcome State Fault Refusal :=
  s.meter (fun m => m.sample vi)

/-- COUNTING_LINE (R461) of die `n`, or a framing error on it. -/
def execCountingLine (n : Nat) (framing : Bool) (s : State) : Host.Outcome State Fault Refusal :=
  s.countingLine n framing

/-- MILNIK_RECORD_CLOSE (R462 to R464). -/
def execMilnikRecordClose (flashOk : Bool) (s : State) : Host.Outcome State Fault Refusal :=
  s.meter (fun m => m.close flashOk)

/-- LIVE_COPY_REFRESH (R466). -/
def execLiveCopyRefresh (s : State) : Host.Outcome State Fault Refusal :=
  s.meter (fun m => m.refresh)

/-- MILNIK_IDENT (R465). -/
def execMilnikIdent (s : State) : Host.Outcome State Fault Refusal :=
  s.answer (fun m => m.ident)

/-- MILNIK_RECORD (R465). -/
def execMilnikRecord (seq : Nat) (s : State) : Host.Outcome State Fault Refusal :=
  s.answer (fun m => m.recordOf seq)

/-- MILNIK_CERT (R465). -/
def execMilnikCert (off : Nat) (len : Nat) (s : State) : Host.Outcome State Fault Refusal :=
  s.answer (fun _ => Milnik.cert off len)

/-- QUOTE (R465). -/
def execQuote (nonce : List Byte) (s : State) : Host.Outcome State Fault Refusal :=
  s.answer (fun m => m.quote nonce)

end Sys2Proof.Machine
end

