-- ==== Sys2Proof/Machine/ExecPower.lean ====
section
/-! DEFINITION. The meanings of the commands of one family: power and pace of a die (R49 to R61). -/
namespace Sys2Proof.Machine

/-- CONTROL_PERIOD (R50 to R52, R63, R476) of die `n`. -/
def execControlPeriod (n : Nat) (t : Telemetry) (s : State) : Host.Outcome State Fault Refusal :=
  s.byFirmware (.controlPeriod n t) (fun p => p.controlPeriod n t)

/-- CEILING_WINDOW (R53) of die `n`. -/
def execCeilingWindow (n : Nat) (s : State) : Host.Outcome State Fault Refusal :=
  s.inPower (.ceilingWindow n) (fun p => p.ceilingWindow n)

/-- DROOP (R49) of die `n`. -/
def execDroop (n : Nat) (s : State) : Host.Outcome State Fault Refusal :=
  s.inPower (.droop n) (fun p => p.droopOf n)

/-- RAIL_UNDER (R49) of die `n`. -/
def execRailUnder (n : Nat) (s : State) : Host.Outcome State Fault Refusal :=
  s.inPower (.railUnder n) (fun p => p.railUnder n)

/-- RAIL_OVER (R49) of die `n`. -/
def execRailOver (n : Nat) (s : State) : Host.Outcome State Fault Refusal :=
  s.inPower (.railOver n) (fun p => p.railOver n)

/-- THERMAL (R49) of die `n`. -/
def execThermal (n : Nat) (s : State) : Host.Outcome State Fault Refusal :=
  s.inPower (.thermal n) (fun p => p.thermalOf n)

/-- GATE_DOWN (R57) of physical core `c`. -/
def execGateDown (n : Nat) (c : Nat) (s : State) : Host.Outcome State Fault Refusal :=
  s.inPower (.gateDown n c) (fun p => p.gateDown n c)

/-- ADMISSION (R57, R59) at die `n`. -/
def execAdmission (n : Nat) (s : State) : Host.Outcome State Fault Refusal :=
  s.inPower (.admission n) (fun p => p.admission n)

/-- UNGATE (R60) of physical core `c`. -/
def execUngate (n : Nat) (c : Nat) (s : State) : Host.Outcome State Fault Refusal :=
  s.inPower (.ungate n c) (fun p => p.ungate n c)

/-- ROW_GROUP_RAMP (R60) of physical core `c`. -/
def execRowGroupRamp (n : Nat) (c : Nat) (s : State) : Host.Outcome State Fault Refusal :=
  s.inPower (.rowGroupRamp n c) (fun p => p.rowGroupRamp n c)

end Sys2Proof.Machine
end

