-- ==== Sys2Proof/Machine/ExecResets.lean ====
section
/-! DEFINITION. The meanings of the commands of one family: resets and package-level faults (R21, R357, R408 to R413). -/
namespace Sys2Proof.Machine

/-- PACKAGE_RESET (R410 to R413): `held`: data of lines that the host returns. -/
def execPackageReset (held : List (Nat × List Byte)) (o : BringUp) (s : State) : Host.Outcome State Fault Refusal :=
  s.byFirmware (.packageReset held o) (fun p => p.packageReset held o)

/-- START_STALL (R406, R410). -/
def execStartStall (s : State) : Host.Outcome State Fault Refusal :=
  s.byFirmware .startStall (fun p => p.startStall)

/-- FW_WATCHDOG (R409). -/
def execFwWatchdog (held : List (Nat × List Byte)) (o : BringUp) (s : State) : Host.Outcome State Fault Refusal :=
  s.inPower (.fwWatchdog held o) (fun p => p.fwWatchdog held o)

/-- DOVETAIL (R21): a link of die `n` fails. -/
def execDovetail (n : Nat) (s : State) : Host.Outcome State Fault Refusal :=
  s.inPower (.dovetail n) (fun p => p.dovetailFail n)

/-- HOST_LINK (R357). -/
def execHostLink (s : State) (retries : Nat := 0) (lost : Bool := true) : Host.Outcome State Fault Refusal :=
  s.inPower (.hostLink retries lost) (fun p => p.hostLink retries lost)

end Sys2Proof.Machine
end

