-- ==== Sys2Proof/Machine/ExecRings.lean ====
section
/-! DEFINITION. The meanings of the commands of one family: rings and doorbells (R367 to R380). -/
namespace Sys2Proof.Machine

/-- COMMAND_RING_DOORBELL (R369). -/
def execCommandRingDoorbell (ring : Nat) (v : Nat) (s : State) : Host.Outcome State Fault Refusal :=
  s.inPower (.commandRingDoorbell ring v) (fun p => p.commandBell ring v)

/-- COMPLETION_RING_DOORBELL (R379). -/
def execCompletionRingDoorbell (cq : Nat) (v : Nat) (s : State) : Host.Outcome State Fault Refusal :=
  s.inPower (.completionRingDoorbell cq v) (fun p => p.completionBell cq v)

/-- COMMAND_RING_LOAD (R368). -/
def execCommandRingLoad (ring : Nat) (o : Origin) (s : State) : Host.Outcome State Fault Refusal :=
  s.inPower (.commandRingLoad ring o) (fun p => p.access aCtxLoad 4 (ring % 2 ^ 15) o)

/-- COMMAND_RING_DISABLE (R368). -/
def execCommandRingDisable (ring : Nat) (o : Origin) (s : State) : Host.Outcome State Fault Refusal :=
  s.inPower (.commandRingDisable ring o) (fun p => p.access aCtxLoad 4 (2 ^ 29 + ring % 2 ^ 15) o)

/-- COMPLETION_RING_LOAD (R368). -/
def execCompletionRingLoad (cq : Nat) (o : Origin) (s : State) : Host.Outcome State Fault Refusal :=
  s.inPower (.completionRingLoad cq o) (fun p => p.access aCtxLoad 4 (2 ^ 31 + cq % 2 ^ 12) o)

/-- COMPLETION_RING_DISABLE (R368). -/
def execCompletionRingDisable (cq : Nat) (o : Origin) (s : State) : Host.Outcome State Fault Refusal :=
  s.inPower (.completionRingDisable cq o) (fun p => p.access aCtxLoad 4 (2 ^ 31 + 2 ^ 29 + cq % 2 ^ 12) o)

/-- FETCH_TURN (R371, R372). -/
def execFetchTurn (s : State) : Host.Outcome State Fault Refusal :=
  s.inPower .fetchTurn (fun p => p.fetchTurn)

/-- ARBITRATION_POINT (R167). -/
def execArbitrationPoint (s : State) : Host.Outcome State Fault Refusal :=
  s.inPower .arbitrationPoint (fun p => p.arbitrate)

/-- COMPLETION_ENTRY (R379) of command `k`. -/
def execCompletionEntry (k : Nat) (s : State) : Host.Outcome State Fault Refusal :=
  s.inPower (.completionEntry k) (fun p => p.completionEntry k)

/-- INTERRUPT_TIMER (R380). -/
def execInterruptTimer (cq : Nat) (s : State) : Host.Outcome State Fault Refusal :=
  s.inPower (.interruptTimer cq) (fun p => p.interruptTimer cq)

end Sys2Proof.Machine
end

