-- ==== Sys2Proof/Machine/ExecRow.lean ====
section
/-! DEFINITION. The meanings of the commands of one family: the ROW slot (R150). -/
namespace Sys2Proof.Machine

/-- EXP (R122, R150). -/
def execExp (t : Site) (d : Nat) (a : Nat) (hi : Bool) (s : State) : Host.Outcome State Fault Refusal :=
  s.slot (.exp t d a hi) t (fun c => slotIf (regOk d && regOk a) (c.rowFn 10 Sys2Proof.Machine.fexp d a hi))

/-- RCP (R122, R150). -/
def execRcp (t : Site) (d : Nat) (a : Nat) (hi : Bool) (s : State) : Host.Outcome State Fault Refusal :=
  s.slot (.rcp t d a hi) t (fun c => slotIf (regOk d && regOk a) (c.rowFn 8 Sys2Proof.Machine.frcp d a hi))

/-- RSQ (R122, R150). -/
def execRsq (t : Site) (d : Nat) (a : Nat) (hi : Bool) (s : State) : Host.Outcome State Fault Refusal :=
  s.slot (.rsq t d a hi) t (fun c => slotIf (regOk d && regOk a) (c.rowFn 8 Sys2Proof.Machine.frsq d a hi))

/-- TLD (R150). -/
def execTld (t : Site) (d : Nat) (hi : Bool) (toff : Nat) (s : State) : Host.Outcome State Fault Refusal :=
  s.slot (.tld t d hi toff) t (fun c => slotIf (regOk d && toff < 2048) (c.tld d hi toff))

/-- TST (R150). -/
def execTst (t : Site) (a : Nat) (hi : Bool) (toff : Nat) (s : State) : Host.Outcome State Fault Refusal :=
  s.slot (.tst t a hi toff) t (fun c => slotIf (regOk a && toff < 2048) (c.tst a hi toff))

end Sys2Proof.Machine
end

