-- ==== Sys2Proof/Machine/ExecSca.lean ====
section
/-! DEFINITION. The meanings of the commands of one family: the SCA slot (R147). -/
namespace Sys2Proof.Machine

/-- ADD (R147). -/
def execAdd (t : Site) (d : Nat) (a : Nat) (b : SOpnd) (s : State) : Host.Outcome State Fault Refusal :=
  s.slot (.add t d a b) t (fun c => slotIf (scaOk d a b) (c.sca 1 d (scaAdd (c.rdS a) (c.opnd b))))

/-- SUB (R147). -/
def execSub (t : Site) (d : Nat) (a : Nat) (b : SOpnd) (s : State) : Host.Outcome State Fault Refusal :=
  s.slot (.sub t d a b) t (fun c => slotIf (scaOk d a b) (c.sca 1 d (scaSub (c.rdS a) (c.opnd b))))

/-- AND (R147). -/
def execSAnd (t : Site) (d : Nat) (a : Nat) (b : SOpnd) (s : State) : Host.Outcome State Fault Refusal :=
  s.slot (.sAnd t d a b) t (fun c => slotIf (scaOk d a b) (c.sca 1 d (scaAnd (c.rdS a) (c.opnd b))))

/-- OR (R147). -/
def execSOr (t : Site) (d : Nat) (a : Nat) (b : SOpnd) (s : State) : Host.Outcome State Fault Refusal :=
  s.slot (.sOr t d a b) t (fun c => slotIf (scaOk d a b) (c.sca 1 d (scaOr (c.rdS a) (c.opnd b))))

/-- XOR (R147). -/
def execSXor (t : Site) (d : Nat) (a : Nat) (b : SOpnd) (s : State) : Host.Outcome State Fault Refusal :=
  s.slot (.sXor t d a b) t (fun c => slotIf (scaOk d a b) (c.sca 1 d (scaXor (c.rdS a) (c.opnd b))))

/-- SHL (R147). -/
def execShl (t : Site) (d : Nat) (a : Nat) (b : SOpnd) (s : State) : Host.Outcome State Fault Refusal :=
  s.slot (.shl t d a b) t (fun c => slotIf (scaOk d a b) (c.sca 1 d (scaShl (c.rdS a) (c.opnd b))))

/-- SHR (R147). -/
def execShr (t : Site) (d : Nat) (a : Nat) (b : SOpnd) (s : State) : Host.Outcome State Fault Refusal :=
  s.slot (.shr t d a b) t (fun c => slotIf (scaOk d a b) (c.sca 1 d (scaShr (c.rdS a) (c.opnd b))))

/-- SAR (R147). -/
def execSar (t : Site) (d : Nat) (a : Nat) (b : SOpnd) (s : State) : Host.Outcome State Fault Refusal :=
  s.slot (.sar t d a b) t (fun c => slotIf (scaOk d a b) (c.sca 1 d (scaSar (c.rdS a) (c.opnd b))))

/-- MUL (R147). -/
def execMul (t : Site) (d : Nat) (a : Nat) (b : SOpnd) (s : State) : Host.Outcome State Fault Refusal :=
  s.slot (.mul t d a b) t (fun c => slotIf (scaOk d a b) (c.sca 3 d (scaMul (c.rdS a) (c.opnd b))))

/-- MIN (R147). -/
def execSMin (t : Site) (d : Nat) (a : Nat) (b : SOpnd) (s : State) : Host.Outcome State Fault Refusal :=
  s.slot (.sMin t d a b) t (fun c => slotIf (scaOk d a b) (c.sca 1 d (scaMin (c.rdS a) (c.opnd b))))

/-- MAX (R147). -/
def execSMax (t : Site) (d : Nat) (a : Nat) (b : SOpnd) (s : State) : Host.Outcome State Fault Refusal :=
  s.slot (.sMax t d a b) t (fun c => slotIf (scaOk d a b) (c.sca 1 d (scaMax (c.rdS a) (c.opnd b))))

/-- SLT (R147). -/
def execSlt (t : Site) (d : Nat) (a : Nat) (b : SOpnd) (s : State) : Host.Outcome State Fault Refusal :=
  s.slot (.slt t d a b) t (fun c => slotIf (scaOk d a b) (c.sca 1 d (scaSlt (c.rdS a) (c.opnd b))))

/-- SEQ (R147). -/
def execSeq (t : Site) (d : Nat) (a : Nat) (b : SOpnd) (s : State) : Host.Outcome State Fault Refusal :=
  s.slot (.seq t d a b) t (fun c => slotIf (scaOk d a b) (c.sca 1 d (scaSeq (c.rdS a) (c.opnd b))))

/-- MOVI (R147). -/
def execMovi (t : Site) (d : Nat) (v : Word) (s : State) : Host.Outcome State Fault Refusal :=
  s.slot (.movi t d v) t (fun c => slotIf (regOk d) (c.sca 1 d (v.signExtend 64)))

/-- MOVHI (R147). -/
def execMovhi (t : Site) (d : Nat) (a : Nat) (v : Word) (s : State) : Host.Outcome State Fault Refusal :=
  s.slot (.movhi t d a v) t (fun c => slotIf (regOk d && regOk a) (c.sca 1 d (scaMovhi (c.rdS a) v)))

/-- LIDX (R156): `level` is the body's field A. -/
def execLidx (t : Site) (d : Nat) (level : Nat) (s : State) : Host.Outcome State Fault Refusal :=
  s.slot (.lidx t d level) t (fun c => slotIf (regOk d && level < 32) (c.sca 1 d (c.lidx level)))

end Sys2Proof.Machine
end

