-- ==== Sys2Proof/Machine/ExecVec.lean ====
section
/-! DEFINITION. The meanings of the commands of one family: the VEC slot (R149). -/
namespace Sys2Proof.Machine

/-- FADD (R120, R149). -/
def execFadd (t : Site) (d : Nat) (a : Nat) (b : Nat) (s : State) : Host.Outcome State Fault Refusal :=
  s.slot (.fadd t d a b) t (fun c => slotIf (vecOk d a b 0) (c.vec 4 d (c.lanes2 Sys2Proof.Machine.fadd a b)))

/-- FSUB (R120, R149). -/
def execFsub (t : Site) (d : Nat) (a : Nat) (b : Nat) (s : State) : Host.Outcome State Fault Refusal :=
  s.slot (.fsub t d a b) t (fun c => slotIf (vecOk d a b 0) (c.vec 4 d (c.lanes2 Sys2Proof.Machine.fsub a b)))

/-- FMUL (R120, R149). -/
def execFmul (t : Site) (d : Nat) (a : Nat) (b : Nat) (s : State) : Host.Outcome State Fault Refusal :=
  s.slot (.fmul t d a b) t (fun c => slotIf (vecOk d a b 0) (c.vec 4 d (c.lanes2 Sys2Proof.Machine.fmul a b)))

/-- FFMA (R120, R149, R420). -/
def execFfma (t : Site) (d : Nat) (a : Nat) (b : Nat) (e : Nat) (s : State) : Host.Outcome State Fault Refusal :=
  s.slot (.ffma t d a b e) t (fun c => slotIf (vecOk d a b e) ((c.vec 4 d (c.lanesFma a b e)).countAs c.seq.ids 17 64))

/-- FMIN (R120, R149). -/
def execFmin (t : Site) (d : Nat) (a : Nat) (b : Nat) (s : State) : Host.Outcome State Fault Refusal :=
  s.slot (.fmin t d a b) t (fun c => slotIf (vecOk d a b 0) (c.vec 2 d (c.lanes2 Sys2Proof.Machine.fmin a b)))

/-- FMAX (R120, R149). -/
def execFmax (t : Site) (d : Nat) (a : Nat) (b : Nat) (s : State) : Host.Outcome State Fault Refusal :=
  s.slot (.fmax t d a b) t (fun c => slotIf (vecOk d a b 0) (c.vec 2 d (c.lanes2 Sys2Proof.Machine.fmax a b)))

/-- FCMPLT (R120, R149). -/
def execFcmplt (t : Site) (d : Nat) (a : Nat) (b : Nat) (s : State) : Host.Outcome State Fault Refusal :=
  s.slot (.fcmplt t d a b) t (fun c => slotIf (vecOk d a b 0) (c.vec 2 d (c.lanes2 Sys2Proof.Machine.fcmplt a b)))

/-- FCMPEQ (R120, R149). -/
def execFcmpeq (t : Site) (d : Nat) (a : Nat) (b : Nat) (s : State) : Host.Outcome State Fault Refusal :=
  s.slot (.fcmpeq t d a b) t (fun c => slotIf (vecOk d a b 0) (c.vec 2 d (c.lanes2 Sys2Proof.Machine.fcmpeq a b)))

/-- SEL (R149). -/
def execSel (t : Site) (d : Nat) (a : Nat) (b : Nat) (e : Nat) (s : State) : Host.Outcome State Fault Refusal :=
  s.slot (.sel t d a b e) t (fun c => slotIf (vecOk d a b e) (c.vec 2 d (c.lanesSel a b e)))

/-- FMOVS (R149). -/
def execFmovs (t : Site) (d : Nat) (a : Nat) (s : State) : Host.Outcome State Fault Refusal :=
  s.slot (.fmovs t d a) t (fun c => slotIf (vecOk d a 0 0) (c.vec 2 d (List.replicate 64 ((c.rdS a).truncate 32))))

/-- CVT (R149, R114, R115, R117). -/
def execCvt (t : Site) (d : Nat) (a : Nat) (src : Nat) (dst : Nat) (key : Option Nat) (s : State) : Host.Outcome State Fault Refusal :=
  s.slot (.cvt t d a src dst key) t (fun c => slotIf (vecOk d a 0 0 && cvtOk src && cvtOk dst && key.all keyOk) (c.vec 3 d (c.cvtLanes a src dst key)))

/-- MXENC (R107, R149). -/
def execMxenc (t : Site) (d : Nat) (a : Nat) (fmt : Nat) (key : Option Nat) (s : State) : Host.Outcome State Fault Refusal :=
  s.slot (.mxenc t d a fmt key) t (fun c => slotIf (vecOk d a 0 0 && 5 ≤ fmt && fmt ≤ 10 && key.all keyOk) (c.vec 6 d (c.mxLanes a fmt key)))

/-- RSUM (R121, R149). -/
def execRsum (t : Site) (d : Nat) (a : Nat) (s : State) : Host.Outcome State Fault Refusal :=
  s.slot (.rsum t d a) t (fun c => slotIf (vecOk d a 0 0) (c.vec 12 d (c.reduceLanes Sys2Proof.Machine.fadd a)))

/-- RMAX (R121, R149). -/
def execRmax (t : Site) (d : Nat) (a : Nat) (s : State) : Host.Outcome State Fault Refusal :=
  s.slot (.rmax t d a) t (fun c => slotIf (vecOk d a 0 0) (c.vec 12 d (c.reduceLanes Sys2Proof.Machine.fmax a)))

end Sys2Proof.Machine
end

