-- ==== Sys2Proof/Machine/Dispatch.lean ====
section
/-! DEFINITION. One arm for each command. -/
namespace Sys2Proof.Machine

/-- The effect of a command on everything but the queue. -/
def exec (i : Instr) (s : State) : Host.Outcome State Fault Refusal :=
  match i with
  | .pkgPwrok => Sys2Proof.Machine.execPkgPwrok s
  | .coldReset pwrok => Sys2Proof.Machine.execColdReset pwrok s
  | .bringUp o => Sys2Proof.Machine.execBringUp o s
  | .hostPortReset => Sys2Proof.Machine.execHostPortReset s
  | .perstRelease speed width => Sys2Proof.Machine.execPerstRelease speed width s
  | .thermTrip => Sys2Proof.Machine.execThermTrip s
  | .clkLost c => Sys2Proof.Machine.execClkLost c s
  | .vrAlert on => Sys2Proof.Machine.execVrAlert on s
  | .pmbusPoll out => Sys2Proof.Machine.execPmbusPoll out s
  | .milnikPowerUp => Sys2Proof.Machine.execMilnikPowerUp s
  | .milnikPowerLoss => Sys2Proof.Machine.execMilnikPowerLoss s
  | .controlPeriod n t => Sys2Proof.Machine.execControlPeriod n t s
  | .ceilingWindow n => Sys2Proof.Machine.execCeilingWindow n s
  | .droop n => Sys2Proof.Machine.execDroop n s
  | .railUnder n => Sys2Proof.Machine.execRailUnder n s
  | .railOver n => Sys2Proof.Machine.execRailOver n s
  | .thermal n => Sys2Proof.Machine.execThermal n s
  | .gateDown n c => Sys2Proof.Machine.execGateDown n c s
  | .admission n => Sys2Proof.Machine.execAdmission n s
  | .ungate n c => Sys2Proof.Machine.execUngate n c s
  | .rowGroupRamp n c => Sys2Proof.Machine.execRowGroupRamp n c s
  | .run t o => Sys2Proof.Machine.execRun t o s
  | .load t o => Sys2Proof.Machine.execLoad t o s
  | .drain t o => Sys2Proof.Machine.execDrain t o s
  | .loadDrainBegin n lc => Sys2Proof.Machine.execLoadDrainBegin n lc s
  | .stroke n lc => Sys2Proof.Machine.execStroke n lc s
  | .speculationVerify n lc => Sys2Proof.Machine.execSpeculationVerify n lc s
  | .runRetire n lc => Sys2Proof.Machine.execRunRetire n lc s
  | .loadRetire n lc => Sys2Proof.Machine.execLoadRetire n lc s
  | .drainRetire n lc => Sys2Proof.Machine.execDrainRetire n lc s
  | .fbfill t o => Sys2Proof.Machine.execFbfill t o s
  | .fillPositionWrite n lc b => Sys2Proof.Machine.execFillPositionWrite n lc b s
  | .fbfillRetire n lc b => Sys2Proof.Machine.execFbfillRetire n lc b s
  | .kerfCommitApply n c => Sys2Proof.Machine.execKerfCommitApply n c s
  | .pwait t q k keep => Sys2Proof.Machine.execPwait t q k keep s
  | .qwait t mask => Sys2Proof.Machine.execQwait t mask s
  | .padd t q k => Sys2Proof.Machine.execPadd t q k s
  | .pset t q k => Sys2Proof.Machine.execPset t q k s
  | .psig t scope k target => Sys2Proof.Machine.execPsig t scope k target s
  | .skey t key sa sb => Sys2Proof.Machine.execSkey t key sa sb s
  | .loop t src len => Sys2Proof.Machine.execLoop t src len s
  | .brz t a off => Sys2Proof.Machine.execBrz t a off s
  | .brnz t a off => Sys2Proof.Machine.execBrnz t a off s
  | .raise t code => Sys2Proof.Machine.execRaise t code s
  | .add t d a b => Sys2Proof.Machine.execAdd t d a b s
  | .sub t d a b => Sys2Proof.Machine.execSub t d a b s
  | .sAnd t d a b => Sys2Proof.Machine.execSAnd t d a b s
  | .sOr t d a b => Sys2Proof.Machine.execSOr t d a b s
  | .sXor t d a b => Sys2Proof.Machine.execSXor t d a b s
  | .shl t d a b => Sys2Proof.Machine.execShl t d a b s
  | .shr t d a b => Sys2Proof.Machine.execShr t d a b s
  | .sar t d a b => Sys2Proof.Machine.execSar t d a b s
  | .mul t d a b => Sys2Proof.Machine.execMul t d a b s
  | .sMin t d a b => Sys2Proof.Machine.execSMin t d a b s
  | .sMax t d a b => Sys2Proof.Machine.execSMax t d a b s
  | .slt t d a b => Sys2Proof.Machine.execSlt t d a b s
  | .seq t d a b => Sys2Proof.Machine.execSeq t d a b s
  | .movi t d v => Sys2Proof.Machine.execMovi t d v s
  | .movhi t d a v => Sys2Proof.Machine.execMovhi t d a v s
  | .lidx t d level => Sys2Proof.Machine.execLidx t d level s
  | .vld t d a off => Sys2Proof.Machine.execVld t d a off s
  | .vst t d a off => Sys2Proof.Machine.execVst t d a off s
  | .sld t d a off => Sys2Proof.Machine.execSld t d a off s
  | .sst t d a off => Sys2Proof.Machine.execSst t d a off s
  | .vldb t d a off => Sys2Proof.Machine.execVldb t d a off s
  | .fadd t d a b => Sys2Proof.Machine.execFadd t d a b s
  | .fsub t d a b => Sys2Proof.Machine.execFsub t d a b s
  | .fmul t d a b => Sys2Proof.Machine.execFmul t d a b s
  | .ffma t d a b e => Sys2Proof.Machine.execFfma t d a b e s
  | .fmin t d a b => Sys2Proof.Machine.execFmin t d a b s
  | .fmax t d a b => Sys2Proof.Machine.execFmax t d a b s
  | .fcmplt t d a b => Sys2Proof.Machine.execFcmplt t d a b s
  | .fcmpeq t d a b => Sys2Proof.Machine.execFcmpeq t d a b s
  | .sel t d a b e => Sys2Proof.Machine.execSel t d a b e s
  | .fmovs t d a => Sys2Proof.Machine.execFmovs t d a s
  | .cvt t d a src dst key => Sys2Proof.Machine.execCvt t d a src dst key s
  | .mxenc t d a fmt key => Sys2Proof.Machine.execMxenc t d a fmt key s
  | .rsum t d a => Sys2Proof.Machine.execRsum t d a s
  | .rmax t d a => Sys2Proof.Machine.execRmax t d a s
  | .exp t d a hi => Sys2Proof.Machine.execExp t d a hi s
  | .rcp t d a hi => Sys2Proof.Machine.execRcp t d a hi s
  | .rsq t d a hi => Sys2Proof.Machine.execRsq t d a hi s
  | .tld t d hi toff => Sys2Proof.Machine.execTld t d hi toff s
  | .tst t a hi toff => Sys2Proof.Machine.execTst t a hi toff s
  | .gather t o => Sys2Proof.Machine.execGather t o s
  | .stream t o => Sys2Proof.Machine.execStream t o s
  | .copy t o => Sys2Proof.Machine.execCopy t o s
  | .prefetch t o => Sys2Proof.Machine.execPrefetch t o s
  | .gatherAccess n lc ecc => Sys2Proof.Machine.execGatherAccess n lc s ecc
  | .lineReturn n lc ix ecc => Sys2Proof.Machine.execLineReturn n lc ix s ecc
  | .gthRetire n lc x => Sys2Proof.Machine.execGthRetire n lc x s
  | .instructionFetch n lc line ecc => Sys2Proof.Machine.execInstructionFetch n lc line ecc s
  | .programStart n lc ecc => Sys2Proof.Machine.execProgramStart n lc s ecc
  | .programEnd n lc => Sys2Proof.Machine.execProgramEnd n lc s
  | .trackerWake n res => Sys2Proof.Machine.execTrackerWake n res s
  | .memoryAccessComplete n ix ecc => Sys2Proof.Machine.execMemoryAccessComplete n ix ecc s
  | .cxlMemRead hpa holds ecc retries => Sys2Proof.Machine.execCxlMemRead hpa holds ecc s retries
  | .cxlMemWrite hpa bs holds ecc retries => Sys2Proof.Machine.execCxlMemWrite hpa bs holds s ecc retries
  | .bisnpResponse line inv data ecc => Sys2Proof.Machine.execBisnpResponse line inv data s ecc
  | .hostSnoop a retries => Sys2Proof.Machine.execHostSnoop a s retries
  | .benchWindowAccess n lc off len wr ecc => Sys2Proof.Machine.execBenchWindowAccess n lc off len wr s ecc
  | .kernel k => Sys2Proof.Machine.execKernel k s
  | .statisticsPass k ticks ix ecc => Sys2Proof.Machine.execStatisticsPass k ticks s ix ecc
  | .applyPass k ticks ix ecc => Sys2Proof.Machine.execApplyPass k ticks s ix ecc
  | .ringCopy k ecc => Sys2Proof.Machine.execRingCopy k ecc s
  | .engineGather k ecc => Sys2Proof.Machine.execEngineGather k ecc s
  | .engineStart n => Sys2Proof.Machine.execEngineStart n s
  | .fill k => Sys2Proof.Machine.execFill k s
  | .scrub k ecc => Sys2Proof.Machine.execScrub k ecc s
  | .collectiveStreamStart n ecc => Sys2Proof.Machine.execCollectiveStreamStart n ecc s
  | .reduce n ix ecc => Sys2Proof.Machine.execReduce n ix ecc s
  | .rankOrderedReduce n ix ecc => Sys2Proof.Machine.execRankOrderedReduce n ix ecc s
  | .allGather n ix ecc => Sys2Proof.Machine.execAllGather n ix ecc s
  | .allReduce n ix ecc => Sys2Proof.Machine.execAllReduce n ix ecc s
  | .epoch k ecc => Sys2Proof.Machine.execEpoch k ecc s
  | .phaseBegin k => Sys2Proof.Machine.execPhaseBegin k s
  | .phaseEnd k => Sys2Proof.Machine.execPhaseEnd k s
  | .slowDetection => Sys2Proof.Machine.execSlowDetection s
  | .dump k ecc => Sys2Proof.Machine.execDump k ecc s
  | .pegsetSet k => Sys2Proof.Machine.execPegsetSet k s
  | .pegsetAdd k => Sys2Proof.Machine.execPegsetAdd k s
  | .nop k => Sys2Proof.Machine.execNop k s
  | .readyFrame port f => Sys2Proof.Machine.execReadyFrame port f s
  | .agree port f ecc => Sys2Proof.Machine.execAgree port f ecc s
  | .contrib port f => Sys2Proof.Machine.execContrib port f s
  | .sparse port f => Sys2Proof.Machine.execSparse port f s
  | .applied port f => Sys2Proof.Machine.execApplied port f s
  | .grant port f ecc => Sys2Proof.Machine.execGrant port f ecc s
  | .rankData port f ecc => Sys2Proof.Machine.execRankData port f ecc s
  | .shard port f => Sys2Proof.Machine.execShard port f s
  | .shardAck port f => Sys2Proof.Machine.execShardAck port f s
  | .halt port f => Sys2Proof.Machine.execHalt port f s
  | .fence port f => Sys2Proof.Machine.execFence port f s
  | .abort port f => Sys2Proof.Machine.execAbort port f s
  | .fabAbort entry o => Sys2Proof.Machine.execFabAbort entry o s
  | .abortKeyExpiry => Sys2Proof.Machine.execAbortKeyExpiry s
  | .writeFrame port f ecc => Sys2Proof.Machine.execWriteFrame port f s ecc
  | .readFrame port f ecc => Sys2Proof.Machine.execReadFrame port f ecc s
  | .readData port f => Sys2Proof.Machine.execReadData port f s
  | .writeAck port f => Sys2Proof.Machine.execWriteAck port f s
  | .psigFrame port f => Sys2Proof.Machine.execPsigFrame port f s
  | .psigAck port f => Sys2Proof.Machine.execPsigAck port f s
  | .unreach port f => Sys2Proof.Machine.execUnreach port f s
  | .frameForward port f => Sys2Proof.Machine.execFrameForward port f s
  | .linkFlit port g f => Sys2Proof.Machine.execLinkFlit port g f s
  | .laneGroupDown port g => Sys2Proof.Machine.execLaneGroupDown port g s
  | .linkTraining port g => Sys2Proof.Machine.execLinkTraining port g s
  | .trainingTimeout port g => Sys2Proof.Machine.execTrainingTimeout port g s
  | .linkId port l => Sys2Proof.Machine.execLinkId port l s
  | .retrain port v o => Sys2Proof.Machine.execRetrain port v o s
  | .tsync port x => Sys2Proof.Machine.execTsync port x s
  | .ftcUnsync => Sys2Proof.Machine.execFtcUnsync s
  | .grandmasterStart => Sys2Proof.Machine.execGrandmasterStart s
  | .bankSwitch => Sys2Proof.Machine.execBankSwitch s
  | .ftcNowRead off o => Sys2Proof.Machine.execFtcNowRead off o s
  | .commit k o => Sys2Proof.Machine.execCommit k o s
  | .registerWrite w => Sys2Proof.Machine.execRegisterWrite w s
  | .hostReset o => Sys2Proof.Machine.execHostReset o s
  | .packageReset held o => Sys2Proof.Machine.execPackageReset held o s
  | .startStall => Sys2Proof.Machine.execStartStall s
  | .fwWatchdog held o => Sys2Proof.Machine.execFwWatchdog held o s
  | .dovetail n => Sys2Proof.Machine.execDovetail n s
  | .hostLink retries lost => Sys2Proof.Machine.execHostLink s retries lost
  | .commandRingDoorbell ring v => Sys2Proof.Machine.execCommandRingDoorbell ring v s
  | .completionRingDoorbell cq v => Sys2Proof.Machine.execCompletionRingDoorbell cq v s
  | .commandRingLoad ring o => Sys2Proof.Machine.execCommandRingLoad ring o s
  | .commandRingDisable ring o => Sys2Proof.Machine.execCommandRingDisable ring o s
  | .completionRingLoad cq o => Sys2Proof.Machine.execCompletionRingLoad cq o s
  | .completionRingDisable cq o => Sys2Proof.Machine.execCompletionRingDisable cq o s
  | .fetchTurn => Sys2Proof.Machine.execFetchTurn s
  | .arbitrationPoint => Sys2Proof.Machine.execArbitrationPoint s
  | .completionEntry k => Sys2Proof.Machine.execCompletionEntry k s
  | .interruptTimer cq => Sys2Proof.Machine.execInterruptTimer cq s
  | .rotationTest n c => Sys2Proof.Machine.execRotationTest n c s
  | .rotationTestEnd n c pass group => Sys2Proof.Machine.execRotationTestEnd n c pass group s
  | .fullTestEnd n c pass group => Sys2Proof.Machine.execFullTestEnd n c pass group s
  | .rebind n lc => Sys2Proof.Machine.execRebind n lc s
  | .jobWatchdog => Sys2Proof.Machine.execJobWatchdog s
  | .abortDone job => Sys2Proof.Machine.execAbortDone job s
  | .drained => Sys2Proof.Machine.execDrained s
  | .memCe n m => Sys2Proof.Machine.execMemCe n m s
  | .dtReplay k => Sys2Proof.Machine.execDtReplay k s
  | .eventResend k seq => Sys2Proof.Machine.execEventResend k seq s
  | .journalFlush k => Sys2Proof.Machine.execJournalFlush k s
  | .compaction => Sys2Proof.Machine.execCompaction s
  | .sample late => Sys2Proof.Machine.execSample late s
  | .regRead ch tag off count ty => Sys2Proof.Machine.execRegRead ch tag off count s ty
  | .regWrite ch tag off ws => Sys2Proof.Machine.execRegWrite ch tag off ws s
  | .event k seq => Sys2Proof.Machine.execEvent k seq s
  | .evtRead ch tag first count => Sys2Proof.Machine.execEvtRead ch tag first count s
  | .jrnlRead ch tag first count => Sys2Proof.Machine.execJrnlRead ch tag first count s
  | .firmwareBegin ch tag len => Sys2Proof.Machine.execFirmwareBegin ch tag len s
  | .firmwareData ch tag off bs => Sys2Proof.Machine.execFirmwareData ch tag off bs s
  | .firmwareEnd ch tag w => Sys2Proof.Machine.execFirmwareEnd ch tag w s
  | .firmwareStatus ch tag => Sys2Proof.Machine.execFirmwareStatus ch tag s
  | .lockSvn ch tag => Sys2Proof.Machine.execLockSvn ch tag s
  | .getCert ch tag off len => Sys2Proof.Machine.execGetCert ch tag off len s
  | .getMeas ch tag nonce mask => Sys2Proof.Machine.execGetMeas ch tag nonce mask s
  | .doeDiscovery ix => Sys2Proof.Machine.execDoeDiscovery ix s
  | .cdat => Sys2Proof.Machine.execCdat s
  | .ideKm on => Sys2Proof.Machine.execIdeKm on s
  | .neighbourDiscovery target => Sys2Proof.Machine.execNeighbourDiscovery target s
  | .icmpv6Echo data => Sys2Proof.Machine.execIcmpv6Echo data s
  | .entdaa addr => Sys2Proof.Machine.execEntdaa addr s
  | .milnikSample vi => Sys2Proof.Machine.execMilnikSample vi s
  | .countingLine n framing => Sys2Proof.Machine.execCountingLine n framing s
  | .milnikRecordClose flashOk => Sys2Proof.Machine.execMilnikRecordClose flashOk s
  | .liveCopyRefresh => Sys2Proof.Machine.execLiveCopyRefresh s
  | .milnikIdent => Sys2Proof.Machine.execMilnikIdent s
  | .milnikRecord seq => Sys2Proof.Machine.execMilnikRecord seq s
  | .milnikCert off len => Sys2Proof.Machine.execMilnikCert off len s
  | .quote nonce => Sys2Proof.Machine.execQuote nonce s
  | .expFrame port f => Sys2Proof.Machine.execExpFrame port f s
  | .managementPortLink up => Sys2Proof.Machine.execManagementPortLink up s

end Sys2Proof.Machine
end

