-- ==== Sys2Proof/Machine/Issue.lean ====
section
/-! DEFINITION. What happens by itself, on an empty queue (log 1): a core issues its next tab word (R141 to R158), a frame that has
arrived is taken (R302), a tick of the FTC passes (R322). -/
namespace Sys2Proof.Machine

/-! The operations of a tab word. `none`: an opcode that no table lists (R144); `some none`: a NOP. -/

def ctlInstr (w0 w1 : Word) : Option (Option (Site → Instr)) :=
  match ctlOf w0 w1 with
  | .nop => some none
  | .loop src len => some (some (fun t => .loop t src len))
  | .pwait q n keep => some (some (fun t => .pwait t q n keep))
  | .padd q n => some (some (fun t => .padd t q n))
  | .pset q n => some (some (fun t => .pset t q n))
  | .psig sc n x => some (some (fun t => .psig t sc n x))
  | .brz a off => some (some (fun t => .brz t a off))
  | .brnz a off => some (some (fun t => .brnz t a off))
  | .skey k a b => some (some (fun t => .skey t k a b))
  | .qwait m => some (some (fun t => .qwait t m))
  | .raise c => some (some (fun t => .raise t c))
  | .unlisted => none

/-- MOVI and MOVHI run with IMM = 0, too, and IMM32 is ignored where IMM = 0, though R147 has programs set them otherwise (DESIGN CHOICE, log 44). -/
def scaInstr (w0 w1 : Word) : Option (Option (Site → Instr)) :=
  let x := scaOf w0 w1
  match x.op with
  | 0 => some none
  | 1 => some (some (fun t => .add t x.d x.a x.b))
  | 2 => some (some (fun t => .sub t x.d x.a x.b))
  | 3 => some (some (fun t => .sAnd t x.d x.a x.b))
  | 4 => some (some (fun t => .sOr t x.d x.a x.b))
  | 5 => some (some (fun t => .sXor t x.d x.a x.b))
  | 6 => some (some (fun t => .shl t x.d x.a x.b))
  | 7 => some (some (fun t => .shr t x.d x.a x.b))
  | 8 => some (some (fun t => .sar t x.d x.a x.b))
  | 9 => some (some (fun t => .mul t x.d x.a x.b))
  | 10 => some (some (fun t => .sMin t x.d x.a x.b))
  | 11 => some (some (fun t => .sMax t x.d x.a x.b))
  | 12 => some (some (fun t => .slt t x.d x.a x.b))
  | 13 => some (some (fun t => .seq t x.d x.a x.b))
  | 14 => some (some (fun t => .movi t x.d x.imm))
  | 15 => some (some (fun t => .movhi t x.d x.a x.imm))
  | 16 => some (some (fun t => .lidx t x.d x.a))
  | _ => none

def ldsInstr (w0 : Word) : Option (Option (Site → Instr)) :=
  let x := ldsOf w0
  match x.op with
  | 0 => some (some (fun t => .vld t x.reg x.a x.off))
  | 1 => some (some (fun t => .vst t x.reg x.a x.off))
  | 2 => some (some (fun t => .sld t x.reg x.a x.off))
  | 3 => some (some (fun t => .sst t x.reg x.a x.off))
  | 4 => some (some (fun t => .vldb t x.reg x.a x.off))
  | _ => none

/-- SR = 1 is ignored by what is neither CVT nor MXENC, though R149 has programs set it to 0 (DESIGN CHOICE, log 44). -/
def vecInstr (w0 : Word) : Option (Option (Site → Instr)) :=
  let x := vecOf w0
  match x.op with
  | 0 => some none
  | 1 => some (some (fun t => .fadd t x.d x.a x.b))
  | 2 => some (some (fun t => .fsub t x.d x.a x.b))
  | 3 => some (some (fun t => .fmul t x.d x.a x.b))
  | 4 => some (some (fun t => .ffma t x.d x.a x.b x.c))
  | 5 => some (some (fun t => .fmin t x.d x.a x.b))
  | 6 => some (some (fun t => .fmax t x.d x.a x.b))
  | 7 => some (some (fun t => .fcmplt t x.d x.a x.b))
  | 8 => some (some (fun t => .fcmpeq t x.d x.a x.b))
  | 9 => some (some (fun t => .sel t x.d x.a x.b x.c))
  | 10 => some (some (fun t => .fmovs t x.d x.a))
  | 11 => some (some (fun t => .cvt t x.d x.a (x.b % 16) (x.c % 16) x.key))
  | 12 => some (some (fun t => .mxenc t x.d x.a (x.c % 16) x.key))
  | 13 => some (some (fun t => .rsum t x.d x.a))
  | 14 => some (some (fun t => .rmax t x.d x.a))
  | _ => none

/-- TOFF is ignored by EXP, RCP and RSQ, though R150 has programs set it to 0 (DESIGN CHOICE, log 44). -/
def rowInstr (w0 : Word) : Option (Option (Site → Instr)) :=
  let x := rowOf w0
  match x.op with
  | 0 => some none
  | 1 => some (some (fun t => .exp t x.d x.a x.hi))
  | 2 => some (some (fun t => .rcp t x.d x.a x.hi))
  | 3 => some (some (fun t => .rsq t x.d x.a x.hi))
  | 4 => some (some (fun t => .tld t x.d x.hi x.toff))
  | 5 => some (some (fun t => .tst t x.a x.hi x.toff))
  | _ => none

def arrInstr (w0 w1 w2 : Word) : Option (Option (Site → Instr)) :=
  match arrOf w0 w1 w2 with
  | .run o => some (some (fun t => .run t o))
  | .load o => some (some (fun t => .load t o))
  | .drain o => some (some (fun t => .drain t o))
  | .unlisted => none

def gthInstr (w0 w1 : Word) : Option (Option (Site → Instr)) :=
  let x := gthOf w0 w1
  match x.1 with
  | 1 => some (some (fun t => .gather t x.2))
  | 2 => some (some (fun t => .stream t x.2))
  | 3 => some (some (fun t => .copy t x.2))
  | 4 => some (some (fun t => .prefetch t x.2))
  | _ => none

/-- R141: the operation of slot `k` of a word. -/
def slotInstr (w : List Word) (k : Nat) : Option (Option (Site → Instr)) :=
  match bodyAt (w.headD 0#32) k with
  | none => some none
  | some i =>
    let b (j : Nat) : Word := w.getD (i + j) 0#32
    match k with
    | 0 => ctlInstr (b 0) (b 1)
    | 1 => scaInstr (b 0) (b 1)
    | 2 => ldsInstr (b 0)
    | 3 => vecInstr (b 0)
    | 4 => rowInstr (b 0)
    | 5 => arrInstr (b 0) (b 1) (b 2)
    | 6 => some (some (fun t => .fbfill t (fillOf (b 0) (b 1))))
    | _ => gthInstr (b 0) (b 1)

/-- R138: the order in which the operations of a word issue: waits first, then the slots in ascending number, then what else CTL
holds. -/
def slotOrder (w : List Word) : List Nat :=
  match ctlIn w with
  | some (.pwait ..) | some (.qwait _) => [0, 1, 2, 3, 4, 5, 6, 7]
  | _ => [1, 2, 3, 4, 5, 6, 7, 0]

/-- The operations of a word, in that order. -/
def wordOps (w : List Word) : List Nat → Option (List (Site → Instr))
  | [] => some []
  | k :: ks =>
    match slotInstr w k, wordOps w ks with
    | some (some i), some is => some (i :: is)
    | some none, some is => some is
    | _, _ => none

/-- The slots as commands: the last one closes the word. -/
def asCommands (n lc : Nat) (e : WordEnd) : List (Site → Instr) → List Instr
  | [] => []
  | [i] => [i ⟨n, lc, some e⟩]
  | i :: is => i ⟨n, lc, none⟩ :: asCommands n lc e is

/-- R60, R69, R80, R146, R153, R161: what holds a word, as bits of HOLD. -/
def Core.holds (c : Core) (w : List Word) : Nat :=
  let h := w.headD 0#32
  let b (k j : Nat) : Word := match bodyAt h k with | some i => w.getD (i + j) 0#32 | none => 0#32
  let has (k : Nat) : Bool := (bodyAt h k).isSome
  let ctl := match ctlIn w with
    | some (.pwait q n _) => if c.pwaitOk q n then 0 else 1
    | some (.qwait m) => if c.qwaitOk m then 0 else 2
    | _ => 0
  let arr := if has 5 && 8 ≤ c.queue.length then 4 else 0
  let fil := if has 6 && 2 ≤ (c.fills (fillOf (b 6 0) (b 6 1)).b).length then 8 else 0
  let g := gthOf (b 7 0) (b 7 1)
  let d := GDesc.read .stream (c.benchRd (c.benchAddr g.2.areg g.2.off) 64)
  -- a STREAM needs a place in its fill queue, behind an FBFILL of the same word
  let own := if has 6 && (fillOf (b 6 0) (b 6 1)).b = d.b then 1 else 0
  let gth := if has 7 && c.threads.length = 16 then 16
    else if has 7 && g.1 = 2 && 2 ≤ (c.fills d.b).length + own then 8 else 0
  ctl ||| arr ||| fil ||| gth

/-- What a step without a command does. -/
inductive Idle where
  | none
  | go (p : Pkg) (cs : List Instr)
  | stop

/-- R135, R141, R143, R158, R171, R173: what core `key` does next: its word issues, is held, or waits for its line; a word beyond the
image traps. A word of no operation closes at once. -/
def Pkg.coreNext (p : Pkg) (key : Nat) : Idle :=
  let c := p.core key
  match p.lcore key with
  | none => .none
  | some lc =>
    let n := key / 72
    if !c.issuing || c.seq.stopping || (p.fw.tests.find key).isSome then .none
    else if !c.wordInside then .go ((p.act key Core.fetchBound).settle) []
    else
      match c.fetchedWord with
      | none => if c.seq.hold = 0 then .go (p.onKey key (fun c => c.hold 5)) [] else .none
      | some w =>
        let h := w.headD 0#32
        let e : WordEnd := ⟨w.length, hdrIdle h, hdrEnd h⟩
        if p.windowLimit n < c.windowBeats + e.idle + 2 then .none
        else
          let held := c.holds w
          if held ≠ 0 then
            (if c.seq.hold = held then .none else .go (p.onKey key (fun c => { c with seq := { c.seq with hold := held } })) [])
          else
            match wordOps w (slotOrder w) with
            | none => .stop
            | some ops =>
              let p := p.onKey key Core.unhold
              let p := if hdrIdx h then
                  let ids := idsOf c.seq.ids.job (w.getD 1 0#32)
                  (p.onKey key (fun c => c.takeIds ids p.ftc.now)).trace 6 n lc 0 ids.job c.seq.ring c.seq.tag ids c.seq.pc
                else p
              if ops.isEmpty then .go ((p.slotGo key ⟨n, lc, some e⟩ id).settle) [] else .go p (asCommands n lc e ops)

/-- What core `key` does, unless it needs a line that the host may hold (R361): then the snoop goes out, and the core waits. -/
def Pkg.coreTurn (p : Pkg) (key : Nat) : Idle :=
  match p.coreNext key with
  | .go q cs =>
    match q.touched with
    | some x => if p.snoops.contains x then .none else .go (p.sendSnoop x.1 x.2) []
    | none => .go q cs
  | x => x

/-- The first core that does anything. -/
def Pkg.coresNext (p : Pkg) : List Nat → Idle
  | [] => .none
  | k :: ks => match p.coreTurn k with | .none => p.coresNext ks | x => x

/-- R302: the command that a frame which has arrived stands for; link-local frames come as commands of their own (log 15). -/
def frameCommand (i : Nat) (f : Frame) : Instr :=
  match f.ty with
  | 0x01 => .writeFrame i f .keep
  | 0x02 => .readFrame i f .keep
  | 0x03 => .readData i f
  | 0x04 => .writeAck i f
  | 0x05 => .psigFrame i f
  | 0x06 => .psigAck i f
  | 0x07 => .unreach i f
  | 0x10 => .readyFrame i f
  | 0x11 => .expFrame i f
  | 0x12 => .agree i f .keep
  | 0x13 => .contrib i f
  | 0x14 => .sparse i f
  | 0x15 => .applied i f
  | 0x16 => .grant i f .keep
  | 0x17 => .rankData i f .keep
  | 0x18 => .shard i f
  | 0x19 => .shardAck i f
  | 0x1A => .halt i f
  | 0x1B => .fence i f
  | 0x20 => .abort i f
  | _ => .frameForward i f

/-- A step on an empty queue: the waiting commands that may go on, in order; else the oldest frame that has arrived and may be taken; else the lowest core that has
a word to issue; else one tick of a package that is powered. -/
def State.idle (s : State) : Host.Outcome State Fault Refusal :=
  match (if s.pkg.snoops.isEmpty && s.pkg.fw.jheld.isEmpty then s.waiting else []), s.pkg.nextFrame with
  | c :: cs, _ => .next { s with waiting := [], pending := c :: cs }
  | [], some (k, x) => .next { s with
      pkg := { s.pkg with fab := { s.pkg.fab with inbox := listDel s.pkg.fab.inbox k } }, pending := [frameCommand (if x.1 < 4 then 5 + x.1 else x.1) x.2] }
  | [], none =>
    if !s.pkg.powered then .next s
    else
      match s.pkg.coresNext (s.pkg.cores.map Prod.fst) with
      | .go p cs => .next { s with pkg := p, pending := cs }
      | .stop => .fault .programError
      | .none => .next { s with pkg := s.pkg.tick }

end Sys2Proof.Machine
end

