-- ==== Sys2Proof/Safety.lean ====
section
/-! DEFINITION. The terms in which statements speak: a package that has nothing left to be done at once, the outcome of a command in
terms of the package it leaves, and the invariant that every step keeps. -/
namespace Sys2Proof.Machine

/-- Nothing is left to be done at once: no line is waited for (R361), no event record awaits its trace (R429), no core has an
uncorrectable error that is not yet handled (R177), no record waits for the host (R361), no bank switch is due (R317), no ended command has
an ABORT to send (R389), no admission is in use (R42), no flit is part full (R290). -/
abbrev Pkg.Quiet (p : Pkg) : Prop :=
  p.touched = none ∧ p.used = [] ∧ p.fw.evTrace = [] ∧ (∀ e ∈ p.cores, e.2.ue = false) ∧ p.posted = [] ∧ p.switchDue = false ∧
    (∀ e ∈ p.cmds, (e.2.abortDue && e.2.fin ≠ none) = false) ∧ p.admitted = [] ∧ p.fab.tx = []

/-- The command runs, and leaves the package `p`; Milnik, the queue and what waits stay as they are. -/
def Runs (i : Instr) (s : State) (p : Pkg) : Prop := exec i s = .next { s with pkg := p }

/-- The state after a command that leaves the package `p`: `p` with what it leaves to be done at once (R177, R317, R389, R429); where the command
needs a line which the host may hold, nothing but the snoop has happened, and the command waits for the host's answer (R361). -/
def State.afterwards (s : State) (i : Instr) (p : Pkg) : State :=
  match p.settle.touched with
  | none => { s with pkg := p.settle }
  | some x => { s with pkg := s.pkg.sendSnoop x.1 x.2, waiting := s.waiting ++ [i] }

/-- The command runs, and leaves the package `p` with what `p` leaves to be done at once, or waits for the host's answer to a snoop. -/
def RunsTo (i : Instr) (s : State) (p : Pkg) : Prop := exec i s = .next (s.afterwards i p)

/-- What a slot of a tab word may change outside its core: the counters of the core's die and its counting line (R420, R422,
R461), the FTC of the job's last progress (R401). -/
def Pkg.SlotFrame (p q : Pkg) (key : Nat) : Prop :=
  (∀ k, k ≠ key → q.core k = p.core k) ∧ q.mem = p.mem ∧ q.host = p.host ∧ q.regs = p.regs ∧ q.shadow = p.shadow ∧ q.ftc = p.ftc ∧
  q.board = p.board ∧ q.rings = p.rings ∧ q.cqs = p.cqs ∧ q.cmds = p.cmds ∧ q.fab = p.fab ∧ q.port = p.port ∧ q.mgt = p.mgt ∧
  q.outbox = p.outbox ∧ q.badLines = p.badLines ∧ q.snoops = p.snoops ∧ q.posted = p.posted ∧ q.admitted = p.admitted ∧
  (∃ t, q.fw = { p.fw with jobFtc := t }) ∧
  (∀ n, (q.die n).bind = (p.die n).bind ∧ (q.die n).pegs = (p.die n).pegs ∧ (q.die n).bcache = (p.die n).bcache ∧
    (q.die n).trk = (p.die n).trk ∧ (q.die n).gov = (p.die n).gov)

/-- The command acts on core `key`, which becomes `c`; nothing else changes but what `SlotFrame` lets change. -/
def ActsOn (i : Instr) (s : State) (key : Nat) (c : Core) : Prop :=
  ∃ p, Runs i s p ∧ p.core key = c ∧ s.pkg.SlotFrame p key

/-- The slot issues on core `key`, which becomes `c`, its word closed where the slot is its last. -/
def Issues (i : Instr) (s : State) (t : Site) (key : Nat) (c : Core) : Prop := ActsOn i s key (c.fin t.last)

/-- The operations of a tab word, each with where it issues; every other command is an event of the block. -/
def siteOf : Instr → Option Site
  | .run t _ | .load t _ | .drain t _ | .fbfill t _ | .pwait t _ _ _ | .qwait t _ | .padd t _ _ | .pset t _ _
  | .psig t _ _ _ | .skey t _ _ _ | .loop t _ _ | .brz t _ _ | .brnz t _ _ | .raise t _ | .add t _ _ _ | .sub t _ _ _
  | .sAnd t _ _ _ | .sOr t _ _ _ | .sXor t _ _ _ | .shl t _ _ _ | .shr t _ _ _ | .sar t _ _ _ | .mul t _ _ _ | .sMin t _ _ _
  | .sMax t _ _ _ | .slt t _ _ _ | .seq t _ _ _ | .movi t _ _ | .movhi t _ _ _ | .lidx t _ _ | .vld t _ _ _ | .vst t _ _ _
  | .sld t _ _ _ | .sst t _ _ _ | .vldb t _ _ _ | .fadd t _ _ _ | .fsub t _ _ _ | .fmul t _ _ _ | .ffma t _ _ _ _
  | .fmin t _ _ _ | .fmax t _ _ _ | .fcmplt t _ _ _ | .fcmpeq t _ _ _ | .sel t _ _ _ _ | .fmovs t _ _ | .cvt t _ _ _ _ _
  | .mxenc t _ _ _ _ | .rsum t _ _ | .rmax t _ _ | .exp t _ _ _ | .rcp t _ _ _ | .rsq t _ _ _ | .tld t _ _ _ | .tst t _ _ _
  | .gather t _ | .stream t _ | .copy t _ | .prefetch t _ => some t
  | _ => none

/-- The invariant of Milnik: its counters are as wide as its records give them (R462), no rail's residue reaches 1 µJ, a millisecond
in progress has fewer than 1,000 samples (R459), RAM holds at most 64 records and the flash 131,072 (R464). -/
structure Milnik.Inv (m : Milnik) : Prop where
  energy : ∀ e ∈ m.energy, e.2 < 2 ^ 64
  residue : ∀ e ∈ m.residue, e.2 < 1000000
  ops : ∀ e ∈ m.ops, e.2 < 2 ^ 128
  energyKeys : m.energy.wf
  opsKeys : m.ops.wf
  us : m.us < 1000
  ram : m.ram.length ≤ 64
  flash : ∀ e ∈ m.flash, e.1 < 131072
  flashKeys : m.flash.wf
  boots : m.boots < 2 ^ 32
  gen : m.liveGen < 2 ^ 32 ∧ m.liveGen % 2 = 0

/-- The invariant of the machine: Milnik's, and no step ends with a line waited for whose snoop has not gone out (R361). -/
def State.Inv (s : State) : Prop := s.mtr.Inv ∧ s.pkg.touched = none

/-- The commands that act on Milnik (R459 to R466). -/
def ofMilnik : Instr → Bool
  | .milnikPowerUp | .milnikPowerLoss | .milnikSample _ | .countingLine .. | .milnikRecordClose _ | .liveCopyRefresh => true
  | _ => false

end Sys2Proof.Machine
end

