-- ==== Sys2Proof/Certificates/Slice0/Obligations.lean ====
section
/-! DEFINITION. The statements, family by family: what each command does where it completes and what it leaves alone; where it is held, waits
or stops; and what holds of every step. -/

open Sys2Proof Sys2Proof.Machine

/-- R147: the thirteen SCA operations on S[A] and the second operand: the result is scheduled for S[D], one beat on (MUL: three). -/
def Obligations.ScaResults : Prop :=
  ∀ (s : State) (t : Site) (key d a : Nat) (b : SOpnd), s.pkg.Quiet → s.pkg.site t = some key → d < 32 → a < 32 → b.ok = true →
    let c := s.pkg.core key
    let x := c.rdS a
    let y := c.opnd b
    let res (lat : Nat) (v : Dword) : Core := { c with pend := insertWrite ⟨c.beat + lat, c.beat, 1, .s d v⟩ c.pend }
    Issues (.add t d a b) s t key (res 1 (x + y)) ∧
    Issues (.sub t d a b) s t key (res 1 (x - y)) ∧
    Issues (.sAnd t d a b) s t key (res 1 (x &&& y)) ∧
    Issues (.sOr t d a b) s t key (res 1 (x ||| y)) ∧
    Issues (.sXor t d a b) s t key (res 1 (x ^^^ y)) ∧
    Issues (.shl t d a b) s t key (res 1 (x <<< (y.toNat % 64))) ∧
    Issues (.shr t d a b) s t key (res 1 (x >>> (y.toNat % 64))) ∧
    Issues (.sar t d a b) s t key (res 1 (x.sshiftRight (y.toNat % 64))) ∧
    Issues (.mul t d a b) s t key (res 3 (x * y)) ∧
    Issues (.sMin t d a b) s t key (res 1 (if x.slt y then x else y)) ∧
    Issues (.sMax t d a b) s t key (res 1 (if x.slt y then y else x)) ∧
    Issues (.slt t d a b) s t key (res 1 (if x.slt y then 1#64 else 0#64)) ∧
    Issues (.seq t d a b) s t key (res 1 (if x = y then 1#64 else 0#64))

/-- R147: MOVI and MOVHI: an immediate, its sign extended, and an immediate over the low word of S[A]. -/
def Obligations.ScaMoves : Prop :=
  ∀ (s : State) (t : Site) (key d a : Nat) (v : Word), s.pkg.Quiet → s.pkg.site t = some key → d < 32 → a < 32 →
    let c := s.pkg.core key
    let res (x : Dword) : Core := { c with pend := insertWrite ⟨c.beat + 1, c.beat, 1, .s d x⟩ c.pend }
    Issues (.movi t d v) s t key (res (v.signExtend 64)) ∧
    Issues (.movhi t d a v) s t key (res (v ++ (c.rdS a).truncate 32))

/-- R148: the LDS operations on an aligned range of the bench with no uncorrectable word: loads land after 6 beats (SLD: 4), stores
are in the bench at once. That S[A] + OFF is taken modulo 2^64 where it wraps is the model's choice (log 35). -/
def Obligations.LdsEffects : Prop :=
  ∀ (s : State) (t : Site) (key r a off : Nat), s.pkg.Quiet → s.pkg.site t = some key → r < 32 → a < 32 → off < 2 ^ 19 →
    let c := s.pkg.core key
    let p := ((c.rdS a).toNat + off) % 2 ^ 64
    let v (lanes : List Word) : Core := { c with pend := insertWrite ⟨c.beat + 6, c.beat, 2, .v r 0 lanes⟩ c.pend }
    (p % 64 = 0 → p + 256 ≤ 0x300000 →
      (c.benchBad p 256 = false → Issues (.vld t r a off) s t key (v (bytesLanes (fun k => c.bench.read (p + k)) 64))) ∧
      Issues (.vst t r a off) s t key { c with bench := c.bench.write p (lanesBytes (c.rdV r))
                                               benchUE := ueClear c.benchUE p (lanesBytes (c.rdV r)).length }) ∧
    (p % 8 = 0 → p + 8 ≤ 0x300000 →
      (c.benchBad p 8 = false → Issues (.sld t r a off) s t key
        { c with pend := insertWrite ⟨c.beat + 4, c.beat, 2, .s r (BitVec.ofNat 64 (ofBytes (c.bench.readN p 8)))⟩ c.pend }) ∧
      Issues (.sst t r a off) s t key { c with bench := c.bench.write p (toBytes 8 (c.rdS r).toNat)
                                               benchUE := ueClear c.benchUE p 8 }) ∧
    (p % 4 = 0 → p + 4 ≤ 0x300000 → c.benchBad p 4 = false →
      Issues (.vldb t r a off) s t key (v (List.replicate 64 (BitVec.ofNat 32 (ofBytes (c.bench.readN p 4))))))

/-- R149, R120, R121: the VEC operations: the lanes that land in V[D], their latencies, and 64 lane operations counted (R420). -/
def Obligations.VecEffects : Prop :=
  ∀ (s : State) (t : Site) (key d a b e : Nat), s.pkg.Quiet → s.pkg.site t = some key → d < 32 → a < 32 → b < 32 → e < 32 →
    let c := s.pkg.core key
    let res (lat : Nat) (l : List Word) : Core :=
      ({ c with pend := insertWrite ⟨c.beat + lat, c.beat, 3, .v d 0 l⟩ c.pend }).countAs c.seq.ids 16 64
    let two (f : Word → Word → Word) : List Word := List.zipWith f (c.rdV a) (c.rdV b)
    Issues (.fadd t d a b) s t key (res 4 (two fadd)) ∧
    Issues (.fsub t d a b) s t key (res 4 (two fsub)) ∧
    Issues (.fmul t d a b) s t key (res 4 (two fmul)) ∧
    Issues (.ffma t d a b e) s t key ((res 4 ((List.range 64).map (fun l => ffma (c.lane a l) (c.lane b l) (c.lane e l)))).countAs c.seq.ids 17 64) ∧
    Issues (.fmin t d a b) s t key (res 2 (two fmin)) ∧
    Issues (.fmax t d a b) s t key (res 2 (two fmax)) ∧
    Issues (.fcmplt t d a b) s t key (res 2 (two fcmplt)) ∧
    Issues (.fcmpeq t d a b) s t key (res 2 (two fcmpeq)) ∧
    Issues (.sel t d a b e) s t key (res 2 ((List.range 64).map (fun l => if c.lane e l = 0#32 then c.lane b l else c.lane a l))) ∧
    Issues (.fmovs t d a) s t key (res 2 (List.replicate 64 ((c.rdS a).truncate 32))) ∧
    Issues (.rsum t d a) s t key (res 12 (List.replicate 64 (tree64 fadd (c.rdV a)))) ∧
    Issues (.rmax t d a) s t key (res 12 (List.replicate 64 (tree64 fmax (c.rdV a)))) ∧
    (∀ src dst rnd, cvtOk src = true → cvtOk dst = true → rnd.all (· < 8) = true →
      Issues (.cvt t d a src dst rnd) s t key (res 3 (natLanes (packNat (fmtOf dst).bitsOf ((List.range 64).map (fun l =>
        convTo (fmtOf dst) (skRnd (rnd.map c.rdSK) 0 l) (laneFV (fmtOf src) (c.rdV a) l))))))) ∧
    (∀ fmt rnd, 5 ≤ fmt → fmt ≤ 10 → rnd.all (· < 8) = true →
      Issues (.mxenc t d a fmt rnd) s t key (res 6 (c.mxLanes a fmt rnd)))

/-- R150, R122: the ROW operations on half a register; TLD and TST move 128 bytes of the stat store. -/
def Obligations.RowEffects : Prop :=
  ∀ (s : State) (t : Site) (key d a toff : Nat) (hi : Bool), s.pkg.Quiet → s.pkg.site t = some key → d < 32 → a < 32 → toff < 2048 →
    let c := s.pkg.core key
    let lo := if hi then 32 else 0
    let half := ((c.rdV a).drop lo).take 32
    let res (lat : Nat) (l : List Word) : Core := { c with pend := insertWrite ⟨c.beat + lat, c.beat, 4, .v d lo l⟩ c.pend }
    Issues (.exp t d a hi) s t key ((res 10 (half.map fexp)).countAs c.seq.ids 18 32) ∧
    Issues (.rcp t d a hi) s t key ((res 8 (half.map frcp)).countAs c.seq.ids 18 32) ∧
    Issues (.rsq t d a hi) s t key ((res 8 (half.map frsq)).countAs c.seq.ids 18 32) ∧
    (ueIn c.statUE (toff * 128) 128 = false →
      Issues (.tld t d hi toff) s t key (res 4 (bytesLanes (fun k => c.stat.read (toff * 128 + k)) 32))) ∧
    Issues (.tst t a hi toff) s t key { c with stat := c.stat.write (toff * 128) (lanesBytes half)
                                               statUE := ueClear c.statUE (toff * 128) 128 }

/-- R139, R145, R146, R154, R157, R160: the CTL operations but PWAIT, PSIG and RAISE, where they issue. That a LOOP whose body has no parcel
or whose count is 0 issues while four levels are active is the model's choice (log 44): it enters no level, and R155 says only that a
fifth level is a program error. -/
def Obligations.CtlEffects : Prop :=
  ∀ (s : State) (t : Site) (key q n mask sk a b len : Nat) (off : Int) (src : LoopSrc), s.pkg.Quiet → s.pkg.site t = some key →
    q < 64 → n < 2 ^ 32 → a < 32 → b < 32 →
    let c := s.pkg.core key
    let free (c : Core) : Core := { c with seq := { c.seq with hold := 0 } }
    let turn (x : Turn) : Seq := { c.seq with turn := some x }
    (mask < 32 → c.qwaitOk mask = true → Issues (.qwait t mask) s t key (free (if mask % 2 = 1 then c.settle else c))) ∧
    Issues (.padd t q n) s t key (c.addPeg q n) ∧
    Issues (.pset t q n) s t key { c with pegs := c.pegs.set q n } ∧
    (sk < 8 → Issues (.skey t sk a b) s t key { c with pend := insertWrite ⟨c.beat + 1, c.beat, 0,
      .sk sk ⟨c.rdS a, (c.rdS b).truncate 32, ((c.rdS b) >>> 32).truncate 32⟩⟩ c.pend }) ∧
    (src.ok = true → len < 65536 → (c.seq.loops.length < 4 ∨ len = 0 ∨ c.loopCount src = 0) →
      Issues (.loop t src len) s t key { c with seq := turn (.loop (c.loopCount src) len) }) ∧
    Issues (.brz t a off) s t key (if c.rdS a = 0#64 then { c with seq := turn (.branch off) } else c) ∧
    Issues (.brnz t a off) s t key (if c.rdS a = 0#64 then c else { c with seq := turn (.branch off) })

/-- R69, R80, R82, R151, R152: an operation of the array or an FBFILL whose fields are in range enters its queue, with the next issue
number, the program's width and IDs; only it names its bench address and, for DRAIN, its key as they stand. That S[AREG] + OFF is taken
modulo 2^64 is the model's choice (log 35). -/
def Obligations.QueuedOperations : Prop :=
  ∀ (s : State) (t : Site) (key : Nat), s.pkg.Quiet → s.pkg.site t = some key →
    let c := s.pkg.core key
    let put (w : ArrWhat) : Core := { c with queue := c.queue ++ [⟨w, c.iseq, c.seq.width, c.seq.ids, 0, none, none⟩], iseq := c.iseq + 1 }
    (c.queue.length < 8 →
      (∀ o : RunOp, o.ok = true → Issues (.run t o) s t key (put (.run o))) ∧
      (∀ o : MoveOp, o.fieldsOk = true → o.loadOk (((c.rdS o.areg).toNat + o.off) % 2 ^ 64) c.seq.width = true →
        Issues (.load t o) s t key (put (.load o (((c.rdS o.areg).toNat + o.off) % 2 ^ 64)))) ∧
      (∀ o : MoveOp, o.fieldsOk = true → o.drainOk (c.classAfter o.bank) (((c.rdS o.areg).toNat + o.off) % 2 ^ 64) c.seq.width = true →
        Issues (.drain t o) s t key (put (.drain o (((c.rdS o.areg).toNat + o.off) % 2 ^ 64) (o.key.map c.rdSK))))) ∧
    (∀ o : FillArg, o.areg < 32 → o.ok (c.rdS o.areg).toNat = true → (c.fills o.b).length < 2 →
      Issues (.fbfill t o) s t key { c.setFills o.b (c.fills o.b ++ [⟨none, o.slot, o.fmt, (c.rdS o.areg).toNat, o.stride, o.start, o.count,
        o.peg, c.iseq, 0, c.seq.ids⟩]) with iseq := c.iseq + 1 })

/-- R153, R186, R191, R195: a GTH operation takes the lowest free thread, with its descriptor as the bench holds it; a STREAM enters its
fill queue too. That S[AREG] + OFF is taken modulo 2^64 is the model's choice (log 35). -/
def Obligations.GthIssued : Prop :=
  ∀ (s : State) (t : Site) (key x : Nat) (o : GthArg), s.pkg.Quiet → s.pkg.site t = some key → o.areg < 32 → o.off < 2 ^ 32 →
    o.peg.all (· < 64) = true →
    let c := s.pkg.core key
    let p := ((c.rdS o.areg).toNat + o.off) % 2 ^ 64
    let d := c.bench.readN p 64
    let on (k : GthKind) : Core := { c with threads := c.threads.set x { d := GDesc.read k d, desc := p, peg := o.peg, ids := c.seq.ids, k := 0
                                                                         off := 0, idx := none, out := 0, parked := none, retry := none
                                                                         buf := [], written := 0, seg := [], toWrite := [], puts := [] } }
    c.freeThread = some x → p % 64 = 0 → p + 64 ≤ 0x300000 → c.benchBad p 64 = false →
    ((GDesc.read .gather d).ok d = true → Issues (.gather t o) s t key (on .gather)) ∧
    ((GDesc.read .copy d).ok d = true → Issues (.copy t o) s t key (on .copy)) ∧
    ((GDesc.read .prefetch d).ok d = true → Issues (.prefetch t o) s t key (on .prefetch)) ∧
    ((GDesc.read .stream d).ok d = true → (c.fills (GDesc.read .stream d).b).length < 2 →
      let g := GDesc.read .stream d
      Issues (.stream t o) s t key ((on .stream).enqueueFill g.b ⟨some x, g.slot, g.fmt, 0, 0, g.start, g.count, none, 0, 0, c.seq.ids⟩))

/-- R162, R163: PSIG adds N to the peg that SCOPE and TARGET name: a peg of the own core; of a logical core of this package, where one
is bound (R18); a peg of a die that is present; or a signal to another package, which is outstanding until it is applied (R146, R308). -/
def Obligations.PsigEffects : Prop :=
  ∀ (s : State) (t : Site) (key n target : Nat), s.pkg.site t = some key → n < 2 ^ 16 → target < 2 ^ 32 →
    let p := s.pkg
    let die := target / 2 ^ 15 % 8
    let lc := target / 2 ^ 9 % 64
    let coord := target / 2 ^ 18 % 2 ^ 14
    let ends (q : Pkg) : Pkg := q.slotGo key t id
    let away (scope : Nat) : Pkg :=
      (p.onKey key (fun c => { c with psigs := c.psigs + 1 })).sendPsig (some key)
        { Frame.mk' 5 coord die (key / 72) (p.core key).seq.ids.job with id := (p.core key).seq.tag
                                                                         aux := target + 2 ^ 32 * n + 2 ^ 48 * scope }
    RunsTo (.psig t 0 n target) s (ends (p.onKey key (fun c => c.addPeg (target % 64) n))) ∧
    (∀ k, p.phys die lc = some k → RunsTo (.psig t 1 n target) s (ends (p.onKey k (fun c => c.addPeg (target % 64) n)))) ∧
    (p.phys die lc = none → RunsTo (.psig t 1 n target) s (ends p)) ∧
    (p.present die = true → RunsTo (.psig t 2 n target) s (ends (p.addDpeg die (target % 256) n))) ∧
    (p.present die = false → RunsTo (.psig t 2 n target) s (ends p)) ∧
    (coord = p.coord →
      (∀ k, p.phys die lc = some k → RunsTo (.psig t 3 n target) s (ends (p.onKey k (fun c => c.addPeg (target % 64) n)))) ∧
      (p.present die = true → RunsTo (.psig t 4 n target) s (ends (p.addDpeg die (target % 256) n)))) ∧
    (coord ≠ p.coord → RunsTo (.psig t 3 n target) s (ends (away 3)) ∧ RunsTo (.psig t 4 n target) s (ends (away 4)))

/-- R172, R170: RAISE traps its core with the code, once its word has issued in full; the trap is the command's (`Pkg.trapped`). -/
def Obligations.RaiseTraps : Prop :=
  ∀ (s : State) (t : Site) (key code : Nat), s.pkg.site t = some key → code < 2 ^ 16 →
    let q := s.pkg.onKey key (fun c => ({ c with seq := { c.seq with trap := .raise code } } : Core).fin t.last)
    (t.last = none → RunsTo (.raise t code) s (q.trapped key)) ∧
    (t.last ≠ none → RunsTo (.raise t code) s ((q.trapped key).progress ((q.trapped key).core key).seq.ids.job)) ∧
    (q.core key).seq.trap = .raise code

/-- R80, R69, R146, R153, R173: what holds a word: the slot changes nothing but its cause in HOLD. -/
def Obligations.SlotsHold : Prop :=
  ∀ (s : State) (t : Site) (key : Nat), s.pkg.site t = some key →
    let c := s.pkg.core key
    let held (i : Instr) (bit : Nat) : Prop := exec i s = .next { s with pkg := s.pkg.onKey key (fun c =>
      { c with seq := { c.seq with hold := c.seq.hold ||| 2 ^ bit } }) }
    (∀ mask, mask < 32 → c.qwaitOk mask = false → held (.qwait t mask) 1) ∧
    (8 ≤ c.queue.length →
      (∀ o : RunOp, o.ok = true → held (.run t o) 2) ∧
      (∀ o : MoveOp, o.fieldsOk = true → o.loadOk (c.benchAddr o.areg o.off) c.seq.width = true → held (.load t o) 2) ∧
      (∀ o : MoveOp, o.fieldsOk = true → o.drainOk (c.classAfter o.bank) (c.benchAddr o.areg o.off) c.seq.width = true →
        held (.drain t o) 2)) ∧
    (∀ o : FillArg, o.areg < 32 → o.ok (c.rdS o.areg).toNat = true → 2 ≤ (c.fills o.b).length → held (.fbfill t o) 3) ∧
    (c.freeThread = none → ∀ o : GthArg, o.areg < 32 → o.off < 2 ^ 32 →
      held (.gather t o) 4 ∧ held (.stream t o) 4 ∧ held (.copy t o) 4 ∧ held (.prefetch t o) 4)

/-- The model's choice (log 3; R144 leaves the results unpredictable): an operand outside its range, and a SCOPE of 5 to 7 (R162), are
program errors, on which the model stops. Nothing else stops it: every event of the block answers a next state, in every state and
on all operands, and an operation of a tab word does, or is a program error; where no word issues it changes nothing. -/
def Obligations.ProgramErrors : Prop :=
  (∀ (i : Instr) (s : State), siteOf i = none → ∃ u, exec i s = .next u) ∧
  (∀ (i : Instr) (s : State) (t : Site), siteOf i = some t →
    (s.pkg.site t = none → exec i s = .next s) ∧ ((∃ u, exec i s = .next u) ∨ exec i s = .fault .programError)) ∧
  ∀ (s : State) (t : Site) (key : Nat), s.pkg.site t = some key → ∀ i : Instr,
    ((∃ d a b, scaOk d a b = false ∧ i ∈ [.add t d a b, .sub t d a b, .sAnd t d a b, .sOr t d a b, .sXor t d a b, .shl t d a b,
        .shr t d a b, .sar t d a b, .mul t d a b, .sMin t d a b, .sMax t d a b, .slt t d a b, .seq t d a b]) ∨
     (∃ d a b e, vecOk d a b e = false ∧ i ∈ [.ffma t d a b e, .sel t d a b e]) ∨
     (∃ d a b, vecOk d a b 0 = false ∧ i ∈ [.fadd t d a b, .fsub t d a b, .fmul t d a b, .fmin t d a b, .fmax t d a b,
        .fcmplt t d a b, .fcmpeq t d a b]) ∨
     (∃ r a off, (r ≥ 32 ∨ a ≥ 32 ∨ off ≥ 2 ^ 19 ∨ (((s.pkg.core key).rdS a).toNat + off) % 2 ^ 64 > 0x300000 - 4) ∧
        i ∈ [.vld t r a off, .vst t r a off, .sld t r a off, .sst t r a off, .vldb t r a off]) ∨
     (∃ d a hi, regOk a = false ∧ i ∈ [.exp t d a hi, .rcp t d a hi, .rsq t d a hi, .tst t a hi 0]) ∨
     (∃ d hi toff, toff ≥ 2048 ∧ i ∈ [.tld t d hi toff, .tst t d hi toff]) ∨
     (∃ q n, (q ≥ 64 ∨ n ≥ 2 ^ 32) ∧ i ∈ [.padd t q n, .pset t q n, .pwait t q n true, .pwait t q n false]) ∨
     (∃ sc n x, 5 ≤ sc ∧ i = .psig t sc n x) ∨
     (∃ src len, 4 ≤ (s.pkg.core key).seq.loops.length ∧ len ≠ 0 ∧ (s.pkg.core key).loopCount src ≠ 0 ∧ i = .loop t src len) ∨
     (∃ o : RunOp, o.ok = false ∧ i = .run t o)) →
    exec i s = .fault .programError

/-- R137: pending writes are ordered by the beat in which they land, then by the beat in which they were issued, then by slot; as beats
pass, those whose landing beat has come take effect in that order and the rest stay pending: an S or key register holds, as a whole, and a
lane of a V register, lane by lane, what the last of the writes to it has, or what it held. -/
def Obligations.RegistersLand : Prop :=
  (∀ a b : RegWrite, a.before b = true ↔
    a.land < b.land ∨ (a.land = b.land ∧ (a.issue < b.issue ∨ (a.issue = b.issue ∧ a.slot ≤ b.slot)))) ∧
  ∀ (c : Core) (n : Nat), c.pend.Pairwise (fun a b => a.before b = true) →
    let due := c.pend.filter (fun w => w.land ≤ c.beat + n)
    (∀ r l, (∀ k, (c.rdV k).length = 64) → l < 64 → (c.advance n).lane r l =
      ((due.filterMap (fun w => match w.dest with
        | .v k lo vs => if k = r ∧ lo ≤ l then vs[l - lo]? else none
        | _ => none)).getLast?).getD (c.lane r l)) ∧
    (∀ r, (c.advance n).rdS r = if r = 0 then 0#64 else
      ((due.filterMap (fun w => match w.dest with | .s k v => if k = r then some v else none | _ => none)).getLast?).getD (c.rdS r)) ∧
    (∀ r, (c.advance n).rdSK r =
      ((due.filterMap (fun w => match w.dest with | .sk k v => if k = r then some v else none | _ => none)).getLast?).getD (c.rdSK r)) ∧
    (c.advance n).pend = c.pend.filter (fun w => !(w.land ≤ c.beat + n)) ∧ (c.advance n).beat = c.beat + n

/-- R136, R137: pending writes stand in the order of their landing beats, then of issue, then of slots; an issue keeps that order. -/
def Obligations.WritesInOrder : Prop :=
  ∀ (c : Core) (slot lat : Nat) (d : Dest), c.pend.Pairwise (fun a b => a.before b = true) →
    (c.schedule slot lat d).pend.Pairwise (fun a b => a.before b = true) ∧
    ∀ w, w ∈ (c.schedule slot lat d).pend ↔ w = ⟨c.beat + lat, c.beat, slot, d⟩ ∨ w ∈ c.pend

/-- R154 to R157: where the sequencer goes after a word of `n` parcels at `pc`: through the bodies that end there, into a loop's body or
past it, or to a branch's target, which leaves the bodies that do not contain it. -/
def Obligations.SequencerTurns : Prop :=
  ∀ (ls : List LoopLevel) (pc n : Nat),
    ((∀ l ∈ ls, l.stop ≠ pc + n) → nextPc ls pc n none = (ls, pc + n)) ∧
    (∀ l, l.stop = pc + n →
      (l.index + 1 < l.count → nextPc (l :: ls) pc n none = ({ l with index := l.index + 1 } :: ls, l.start)) ∧
      (l.count ≤ l.index + 1 → nextPc (l :: ls) pc n none = nextPc ls pc n none)) ∧
    (∀ count len, 0 < count → 0 < len →
      nextPc ls pc n (some (.loop count len)) = (⟨pc + n, pc + n + len, count, 0⟩ :: ls, pc + n)) ∧
    (∀ len, nextPc ls pc n (some (.loop 0 len)) = if len = 0 then nextPc ls pc n none else nextPc ls (pc + n) len none) ∧
    (∀ off : Int, 0 ≤ (pc : Int) + off →
      ((nextPc ls pc n (some (.branch off))).2 : Int) = pc + off ∧
      ∀ l, l ∈ (nextPc ls pc n (some (.branch off))).1 ↔ l ∈ ls ∧ (l.start : Int) ≤ pc + off ∧ (pc : Int) + off < l.stop)

/-- R156: LIDX gives the iteration index of the active loop level that A[1:0] names, 0 the innermost, or 0 where fewer are active; the
index is 0 when a loop's body is entered and goes up by 1 with each iteration, valid from its first beat on: a body of one word of `n`
parcels is executed `count` times, under the indexes 0 to `count - 1` in turn, and the word after it comes next. -/
def Obligations.LoopBodyRuns : Prop :=
  (∀ (s : State) (t : Site) (key d level : Nat), s.pkg.Quiet → s.pkg.site t = some key → d < 32 → level < 32 →
    let c := s.pkg.core key
    let i := match c.seq.loops[level % 4]? with | some l => l.index | none => 0
    Issues (.lidx t d level) s t key { c with pend := insertWrite ⟨c.beat + 1, c.beat, 1, .s d (BitVec.ofNat 64 i)⟩ c.pend }) ∧
  ∀ (ls : List LoopLevel) (pc n count : Nat), 0 < n → 0 < count → (∀ l ∈ ls, l.stop ≠ pc + n) →
    let word (x : List LoopLevel × Nat) : List LoopLevel × Nat := nextPc x.1 x.2 n none
    (∀ k, k < count → Nat.repeat word k (⟨pc, pc + n, count, 0⟩ :: ls, pc) = (⟨pc, pc + n, count, k⟩ :: ls, pc)) ∧
    Nat.repeat word count (⟨pc, pc + n, count, 0⟩ :: ls, pc) = (ls, pc + n)

/-- R135, R158, R171: a word takes its own beat, its IDLE beats but with END, and one more for a taken branch; after END nothing issues; the
body of a LOOP is asked for. -/
def Obligations.WordsClose : Prop :=
  ∀ (c : Core) (w : WordEnd),
    (c.closeWord w).beat = c.beat + 1 + (if w.fin then 0 else w.idle) + (match c.seq.turn with | some (.branch _) => 1 | _ => 0) ∧
    (c.closeWord w).seq.turn = none ∧ (c.closeWord w).seq.ended = (c.seq.ended || w.fin) ∧
    (w.fin = true → (c.closeWord w).issuing = false) ∧
    (w.fin = false → c.seq.trap = .none →
      ((c.closeWord w).seq.loops, (c.closeWord w).seq.pc) = nextPc c.seq.loops c.seq.pc w.parcels c.seq.turn ∧
      ∀ l, l ∈ (c.closeWord w).seq.prefetch ↔ l ∈ c.seq.prefetch ∨ ∃ count len, c.seq.turn = some (.loop count len) ∧
        l ∈ linesOf (c.seq.image + 64 + 4 * (c.seq.pc + w.parcels)) (4 * len))

/-- R161: PWAIT issues once its peg holds at least N, which it takes from the peg unless KEEP is 1; until then it holds its word, and
nothing else changes; N = 0 is always there. -/
def Obligations.PwaitHoldsAndTakes : Prop :=
  ∀ (s : State) (t : Site) (key q n : Nat), s.pkg.site t = some key → q < 64 → n < 2 ^ 32 →
    let c := s.pkg.core key
    let free (c : Core) : Core := { c with seq := { c.seq with hold := 0 } }
    (c.peg q < n → ∀ keep, exec (.pwait t q n keep) s = .next { s with pkg := s.pkg.onKey key (fun c => c.hold 0) }) ∧
    (s.pkg.Quiet → n ≤ c.peg q →
      Issues (.pwait t q n true) s t key (free c) ∧
      Issues (.pwait t q n false) s t key (free { c with pegs := c.pegs.set q ((c.peg q - n) % 2 ^ 32) }))

/-- R60, R70, R74 to R76, R84, R86 to R92: the strokes of the RUN at the head of the array queue, by the mute mode in force (`muteMode`): a
stroke whose positions are written updates the tile of its bank and nothing else of the banks (a RUN that breaks the rules of transposed
sides, R73 and R98, leaves that bank open, log 8), under any mute mode where its block is not mute or is no whole block, and waits until then; a mute block is skipped;
under mode 2 a block predicted mute is skipped on speculation; strokes and skips issued while a speculation is outstanding are kept aside
with a checkpoint of the bank, and the speculation is verified, or undone to the checkpoint. -/
def Obligations.StrokeEffects : Prop :=
  ∀ (s : State) (n lc key : Nat) (e : ArrOp) (o : RunOp) (es : List ArrOp), s.pkg.powered = true → s.pkg.Quiet →
    s.pkg.phys n lc = some key → s.pkg.fw.tests.find key = none → (s.pkg.core key).pwr = .awake →
    (s.pkg.core key).queue = e :: es → e.what = .run o →
    let c := s.pkg.core key
    let ctl := e.ctl.getD (s.pkg.rd (rCORE_OPA_CTRL.at n (key % 72) 0)).toNat
    let e' : ArrOp := { e with ctl := some ctl }
    let k := e.done
    let a := o.aStart + k
    let b := o.bStart + k
    let wa := c.sideWritten false o.aSlot e.seq a
    let wb := c.sideWritten true o.bSlot e.seq b
    let ready := c.sideReady false o.aSlot e.seq o.aTr o.aStart k && c.sideReady true o.bSlot e.seq o.bTr o.bStart k
    let mute := muteBlock (c.slot false o.aSlot) (c.slot true o.bSlot) a b
    let whole := 1 ≤ muteMode o ctl ∧ blockStart o k = true
    let predicted := sideMute (c.slot false o.aSlot) wa a || sideMute (c.slot true o.bSlot) wb b
    let skipped : List ArrOp := { e' with done := k + 8 } :: es
    let acts (c' : Core) : Prop := ActsOn (.stroke n lc) s key c'
    let t := (if 8192 ≤ c.half - c.opaActive then c.half + 128 else c.half) + strokeHalves (fmtOf o.aFmt) (fmtOf o.bFmt) o.comp
    (∃ bank : Bank,
      (o.keepsRule e.width = true → bank = strokeBank o e.width (c.slot false o.aSlot) (c.slot true o.bSlot) k (c.bank o.bank)) ∧
      let moved : Core :=
        { (c.setBank o.bank bank).setLast o.bank t with queue := { e' with done := k + 1 } :: es, half := t, opaActive := t + 510 }
      let strikes : Prop :=
        (c.spec = none → acts (moved.countStrokes o e.width e.ids 1)) ∧
        (∀ sp, c.spec = some sp → acts { moved with ckpt := if sp.marked then c.ckpt else some (c.bank o.bank)
                                                    spec := some { sp with marked := true, since := sp.since + 1 } })
      (k < o.count → ¬ whole → ready = true → strikes) ∧
      (k < o.count → whole → wa = true → wb = true → mute = false → strikes)) ∧
    (k < o.count → whole → wa = true → wb = true → mute = true →
      (c.spec = none → acts { c with queue := skipped, skips := (c.skips + 1) % 2 ^ 32 }) ∧
      (∀ sp, c.spec = some sp → acts { c with queue := skipped, spec := some { sp with skipped := sp.skipped + 1 } })) ∧
    (k < o.count → whole → (wa && wb) = false → muteMode o ctl = 2 → c.spec = none → predicted = true →
      acts { c with queue := skipped, spec := some ⟨k, false, 0, 0⟩ }) ∧
    (k < o.count → whole → (wa && wb) = false → muteMode o ctl ≠ 2 ∨ c.spec ≠ none ∨ predicted = false → acts c) ∧
    (k < o.count → ¬ whole → ready = false → acts c) ∧
    (∀ sp, c.spec = some sp →
      let a := o.aStart + sp.first
      let b := o.bStart + sp.first
      c.sideWritten false o.aSlot e.seq a = true → c.sideWritten true o.bSlot e.seq b = true →
      ActsOn (.speculationVerify n lc) s key
        (if muteBlock (c.slot false o.aSlot) (c.slot true o.bSlot) a b = true then
          ({ c with spec := none, ckpt := none, skips := (c.skips + 1 + sp.skipped) % 2 ^ 32 }).countStrokes o e.width e.ids sp.since
        else { (match c.ckpt with | some bank => c.setBank o.bank bank | none => c) with
          queue := { e with done := sp.first } :: es, spec := none, ckpt := none, mispred := (c.mispred + 1) % 2 ^ 32, half := c.half + 2
          opaActive := c.half + 512 }))

/-- R78 to R82, R90, R114, R117: an operation of the array queue begins and retires at the head: its data has moved, it leaves the queue,
its peg gets 1 and counter 14 counts it; a LOAD or DRAIN takes 128 whole beats, from beat t_last + 256 of its bank on, t_last the beat of the
last stroke's issue. -/
def Obligations.ArrayRetires : Prop :=
  ∀ (s : State) (n lc key : Nat) (e : ArrOp) (es : List ArrOp), s.pkg.powered = true → s.pkg.Quiet →
    s.pkg.phys n lc = some key → s.pkg.fw.tests.find key = none → (s.pkg.core key).pwr = .awake → (s.pkg.core key).queue = e :: es →
    let c := s.pkg.core key
    let leaves (c : Core) (peg : Option Nat) : Core := (({ c with queue := es }).signal peg).countAs e.ids 14 1
    let begins (bank : Nat) : Core :=
      let beat (h : Nat) : Nat := (h + 1) / 2 * 2
      let t := max (beat c.half) (match c.last bank with | some l => beat l + 510 | none => 0)
      { c with queue := { e with begun := some t } :: es, half := t, opaActive := max c.opaActive (t + 256) }
    (∀ o, e.what = .run o → o.count ≤ e.done → c.spec = none → ActsOn (.runRetire n lc) s key (leaves c o.peg)) ∧
    (∀ o a, e.what = .load o a →
      (e.begun = none → ActsOn (.loadDrainBegin n lc) s key (begins o.bank)) ∧
      (∀ t, e.begun = some t → c.moveBad o a e.width = false →
        ActsOn (.loadRetire n lc) s key { leaves (c.setBank o.bank (loadBank o a e.width c.bench (c.bank o.bank))) o.peg with
          half := max c.half (t + 256) })) ∧
    (∀ o a k, e.what = .drain o a k →
      (e.begun = none → ActsOn (.loadDrainBegin n lc) s key (begins o.bank)) ∧
      (∀ t, e.begun = some t →
        ActsOn (.drainRetire n lc) s key { leaves { c with
          bench := drainBench o a e.width k (c.bank o.bank) c.bench
          benchUE := (List.range (o.lines e.width)).foldl (fun l r =>
            ueClear l (a + r * o.stride) (o.span e.width * ((fmtOf o.fmt).bitsOf / 8))) c.benchUE } o.peg with half := max c.half (t + 256) }))

/-- R69, R70, R81, R86, R152, R179, R180: the fill at the head of a fretboard's queue writes its next position for the 128 lanes, with
the scales of its block, unless an earlier RUN still reads its slot; written in full, it leaves the queue and its peg gets 1. -/
def Obligations.FillEffects : Prop :=
  ∀ (s : State) (n lc key : Nat) (b : Bool) (f : FillOp) (fs : List FillOp), s.pkg.powered = true → s.pkg.Quiet →
    s.pkg.phys n lc = some key → s.pkg.fw.tests.find key = none → (s.pkg.core key).pwr = .awake →
    (s.pkg.core key).fills b = f :: fs → f.stream = none →
    let c := s.pkg.core key
    let row := f.addr + f.done * f.stride
    let scales := f.addr + f.count * f.stride + f.done / 32 * 128
    let pos := f.start + f.done
    let x := c.slot b f.slot
    let x := if (fmtOf f.fmt).isMx then x.putScales (pos / 32) (fun l => c.bench.read (scales + l)) else x
    let x := x.putPos (fmtOf f.fmt) pos (fun k => c.bench.read (row + k)) (f.done + 1 = f.count || (pos + 1) % 8 = 0)
    (f.done < f.count → c.fillBlocked b f = false → c.benchBad row (rowSize (fmtOf f.fmt)) = false → c.benchBad scales 128 = false →
      ActsOn (.fillPositionWrite n lc b) s key (((c.setSlot b f.slot x).setFills b ({ f with done := f.done + 1 } :: fs)).countAs f.ids 15 1)) ∧
    (f.count ≤ f.done → ActsOn (.fbfillRetire n lc b) s key ((c.setFills b fs).signal f.peg))

/-- R187 to R189, R192 to R198, R202, R203, R209, R232: the gather unit: one beat serves one thread: a line of a cache, a line already asked for, a
refusal, a new request, a bench, a sentinel's row of zeros, an index out of range, a failed path, a COPY's write, which the
destination of its segment checks; what returns goes to each
piece that waits for it, and nothing of a segment is committed before all of it is there; an operation all of whose writes have taken effect
retires, with its peg. -/
def Obligations.GatherEffects : Prop :=
  ∀ (s : State) (n lc key : Nat), s.pkg.powered = true → s.pkg.phys n lc = some key →
    let p := s.pkg
    let c := p.core key
    let own := benchBase n lc
    (∀ t th ecc, c.serve = some t → c.threads.find t = some th →
      let act : Instr := .gatherAccess n lc ecc
      (∀ w, th.next own = .write w →
        RunsTo act s (p.putLine key t th w ecc) ∧
        (p.wayBad n w.addr = true → RunsTo act s (p.act key (fun c => (c.served t false).gthFault t th.desc 4 w.pos w.addr))) ∧
        (p.wayBad n w.addr = false → ecc = .crc → RunsTo act s ((p.datapath ((p.homeDie w.addr).getD n) w.segAt).act key
          (fun c => (c.served t false).gthFault t th.desc 2 w.pos w.segAt)))) ∧
      (th.next own = .range → RunsTo act s (p.act key (fun c => (c.served t false).gthFault t th.desc 3 th.k
        ((if th.d.idxMem then 0 else own) + th.d.index + th.k * th.d.idxLen)))) ∧
      (∀ o, th.next own = .zeros → th.pieceTo = .bench o → RunsTo act s (p.onKey key (fun c =>
        ((c.updThread t (fun th => { th with k := th.k + 1, off := 0, idx := none, retry := none })).served t true).benchWr o
          (List.replicate th.d.rowBytes 0#8)))) ∧
      (∀ x, th.next own = .piece x → p.skips n th x = false → p.pieceBad n x = true →
        RunsTo act s (p.act key (fun c => (c.served t false).gthFault t th.desc 4 x.pos x.failedAt))) ∧
      (∀ x, th.next own = .piece x → p.skips n th x = false → p.pieceBad n x = false → p.owner x.src = none →
        RunsTo act s (p.askOther key t th x ecc))) ∧
    (∀ t th x o, c.serve = some t → c.threads.find t = some th → th.next own = .piece x → p.skips n th x = false → p.pieceBad n x = false →
      p.owner x.src = some o → (p.die o).held.contains (lineOf x.src) = false →
      let act : Instr := .gatherAccess n lc .keep
      let line := lineOf x.src
      let now : Option (List Byte) := if p.lineBad line then none else some (p.readBytes line 64)
      let take (hit : Bool) (c : Core) : Core := (c.updThread t (fun th => th.asked x)).served t hit
      let counted : Pkg := (p.countMem o x.src x.len false th.ids).onKey key (fun c => c.countGth (p.isDdr x.src) th.ids x.len false)
      (∀ bs, o = n → th.usesCache x = true → c.dcache.find line = some bs →
        RunsTo act s ((p.onKey key (fun c => { take true c with dhits := (c.dhits + 1) % 2 ^ 32 })).arrived key [(t, x)] .keep
          (fun x => (bs.drop (x.src % 64)).take x.len))) ∧
      (th.usesCache x = false →
        (∀ c', c.mergeReq line now t x = some c' → RunsTo act s (p.onKey key (fun c => take false ((c.mergeReq line now t x).getD c)))) ∧
        (c.mergeReq line now t x = none → (p.die o).bcache.find line = none →
          (∀ r, p.refusal o line (.thread key t) = some r → RunsTo act s ((p.refuse o line (.thread key t) r).onKey key
            (fun c => (c.updThread t (fun th => th.park o r false)).served t false))) ∧
          (p.refusal o line (.thread key t) = none → RunsTo act s (((counted.miss o).enterTracker o line (.thread key t) false).onKey key
            (fun c => { take false c with reqs := (take false c).reqs ++ [⟨line, none, [(t, x)], none, th.ids⟩] })))))) ∧
    (∀ ix r, c.reqs[ix]? = some r →
      let q := p.onKey key (fun c => { c with reqs := listDel c.reqs ix })
      (∀ ecc d, r.data = some d → r.writer.isSome = true ∨ r.waiters = [] → RunsTo (.lineReturn n lc ix ecc) s q) ∧
      (∀ ecc, r.data = some none → r.writer = none → r.waiters ≠ [] → RunsTo (.lineReturn n lc ix ecc) s (q.failPieces key r.waiters false)) ∧
      (∀ bs, r.data = some (some bs) → r.writer = none → r.waiters ≠ [] → RunsTo (.lineReturn n lc ix .keep) s
        (((q.takeWay n r.line 64 r.ids).cacheLine key r.line r.waiters bs).arrived key r.waiters .keep
          (fun x => (bs.drop (x.src % 64)).take x.len)))) ∧
    (∀ (c : Core) t th x bs, c.threads.find t = some th → x.dst ≠ .install →
      let all := th.seg ++ [(x, bs)]
      let mine := all.filter (fun y => th.sameSeg x y.1)
      let here := mine.foldl (fun n y => n + y.2.length) 0
      (here < x.segLen → (c.got t x bs).bench = c.bench ∧ (c.got t x bs).threads = c.threads.set t { th with out := th.out - 1, seg := all }) ∧
      (∀ o, x.segLen ≤ here → x.dst = .bench o →
        (c.got t x bs).bench = c.bench.write (o - (x.src - x.segAt)) (segBytes mine x.segAt x.segLen))) ∧
    (p.Quiet → c.pwr = .awake → p.fw.tests.find key = none → ∀ t th, c.threads.find t = some th → th.finished = true →
      ActsOn (.gthRetire n lc t) s key { c.signal th.peg with threads := c.threads.del t })

/-- R93, R97: a committed runtime map of an idle array queue is taken: the map in use becomes CORE_KERF_RT's, no wavefront is left in
flight, a bank keeps its contents where no logical group has moved; a bound core left short of groups is fenced. -/
def Obligations.KerfMapApplies : Prop :=
  ∀ (s : State) (n c : Nat), s.pkg.powered = true → s.pkg.present n = true → c < 72 →
    let p := s.pkg
    let key := coreKey n c
    let q := p.core key
    let rt := p.fld (rCORE_KERF_RT.at n c 0) fCORE_KERF_RT_MASK
    let fuse := (p.die n).kerfFuse.getD c 0
    q.kerf ≠ rt → q.queue = [] → q.spec = none →
      let after := (p.onKey key Core.settle).takeKerf key
      (kerfShort ((fuse ||| rt) % 2 ^ 17) (p.width n / 8) = false → RunsTo (.kerfCommitApply n c) s after) ∧
      ((p.die n).logical c = none → RunsTo (.kerfCommitApply n c) s after) ∧
      (kerfShort ((fuse ||| rt) % 2 ^ 17) (p.width n / 8) = true → (p.die n).logical c ≠ none →
        RunsTo (.kerfCommitApply n c) s (after.fence n c)) ∧
      (after.core key).kerf = rt ∧
      (movedGroups (fuse ||| q.kerf) (fuse ||| rt) (p.width n / 8) = [] →
        (after.core key).bank0 = q.bank0 ∧ (after.core key).bank1 = q.bank1)

/-- R18, R134, R165, R169, R171, R172, R203, R233: the head of a start queue starts its program, once its header's line is admitted, and is held as
a fetch until then: the header is read
at the image, its entry point and length set the sequencer, S1 to S5 hold the core's number, the rank, the number of cores and the two
arguments, S0 and the rest read 0, and nothing is pending; a header that cannot be read traps; a program of a command that has failed issues
no word. -/
def Obligations.ProgramStarts : Prop :=
  ∀ (s : State) (n lc key : Nat) (e : StartEntry) (es : List StartEntry) (ecc : Ecc), s.pkg.powered = true →
    s.pkg.phys n lc = some key → (s.pkg.core key).startq = e :: es → e.upd = false → s.pkg.startable key = true →
    let at' := hbmBase n + e.image + 8
    let go : Instr := .programStart n lc ecc
    let x := (s.pkg.meets ecc).askAll (.fetch key) [(at', 8)] []
    let r := x.1.readAt at' 8 0 e.tag e.ids
    let p := (((r.1.parityFail n at' ecc).updCmd e.cmd (fun c => { c with started := (n * 64 + lc) :: c.started })).progress e.ids.job).trace 4 n lc 0 e.ids.job
      e.ring e.tag e.ids e.image
    let failed := match p.cmds.find e.cmd with | some c => c.fail.isSome | none => true
    let starts (len entry : Nat) (q : Core) : Core := q.begin e n lc (hbmBase n + e.image) len entry p.ftc.now
    (x.2 = false → RunsTo go s (x.1.onKey key (fun c => c.hold 5))) ∧
    (x.2 = true →
      (∀ bs, r.2 = .ok bs → ecc ≠ .parity → failed = false →
        RunsTo go s (p.act key (starts (ofBytes (bs.take 4)) (ofBytes (bs.drop 4))))) ∧
      (∀ bs, r.2 = .ok bs → ecc ≠ .parity → failed = true → RunsTo go s (p.act key (fun q =>
        { starts (ofBytes (bs.take 4)) (ofBytes (bs.drop 4)) q with seq :=
          { (starts (ofBytes (bs.take 4)) (ofBytes (bs.drop 4)) q).seq with stopping := true } }))) ∧
      ((∃ a, r.2 = .error a) ∨ ecc = .parity → RunsTo go s (p.act key (fun q => (starts 0 0 q).fetchEcc)))) ∧
    (∀ len entry q, (starts len entry q).seq.pc = entry ∧ (starts len entry q).seq.length = len ∧ (starts len entry q).seq.loops = [] ∧
      (starts len entry q).seq.ids = e.ids ∧ (starts len entry q).startq = q.startq.drop 1 ∧ (starts len entry q).pend = [] ∧
      (starts len entry q).v = [] ∧ (starts len entry q).pegs = q.pegs ∧ (starts len entry q).sk = q.sk ∧
      (starts len entry q).rdS 1 = BitVec.ofNat 64 (64 * n + lc) ∧ (starts len entry q).rdS 2 = BitVec.ofNat 64 e.rank ∧
      (starts len entry q).rdS 3 = BitVec.ofNat 64 e.cores ∧ (starts len entry q).rdS 4 = e.arg0 ∧ (starts len entry q).rdS 5 = e.arg1 ∧
      ∀ k, k = 0 ∨ 6 ≤ k → (starts len entry q).rdS k = 0#64)

/-- R170, R208, R366: a program whose core may end it ends: with code 0 after its END word, 1 after a trap, 2 where it was stopped; the
core holds no word and runs nothing, counter 20 gets the ticks it ran, and its command has one core fewer to wait for. That counter 20 counts
under the IDs of the program, and that a trapped program does not wait for its PSIGs, are the model's choices (logs 40 and 42). -/
def Obligations.ProgramEnds : Prop :=
  ∀ (s : State) (n lc key : Nat), s.pkg.powered = true → s.pkg.phys n lc = some key → s.pkg.mayEnd key = true →
    (s.pkg.core key).upd = none →
    let q := s.pkg.core key
    let code := if q.seq.trap ≠ .none then 1 else if q.seq.stopping then 2 else 0
    let out := s.pkg.onKey key (fun c => c.leaves s.pkg.ftc.now)
    let p := out.trace 5 n lc code (out.jobOf q.seq.cmd) q.seq.ring q.seq.tag q.seq.ids (q.beat - q.seq.startBeat)
    RunsTo (.programEnd n lc) s
      ((p.updCmd q.seq.cmd (fun c => { c with left := c.left.filter (fun y => !(y = n * 64 + lc)) })).endIfDone q.seq.cmd) ∧
    (out.core key).seq.running = false ∧ (out.core key).seq.hold = 0 ∧ (out.core key).issuing = false ∧
    (out.core key).cnt = ((q.settle).countAs q.seq.ids 20 (q.ran s.pkg.ftc.now)).cnt

/-- R171, R172, R201 to R203, R224, R233: a line that the core's next word needs, or that a prefetch asked for, comes through its owner's bench
cache, unless the tracker refuses a miss; good, it enters the instruction cache, the next two lines are asked for, and the word is no longer
held; bad, the fetch traps, and a prefetch is dropped. A cached line with a parity error is dropped, and so fetched again. -/
def Obligations.InstructionLineArrives : Prop :=
  ∀ (s : State) (n lc key line o : Nat) (ecc : Ecc), s.pkg.powered = true → s.pkg.phys n lc = some key → line % 64 = 0 →
    let p := s.pkg
    let q := p.core key
    (q.icache.find line ≠ none →
      RunsTo (.instructionFetch n lc line .parity) s (p.onKey key (fun c => { c with icache := c.icache.del line }))) ∧
    (q.seq.running = true → q.seq.ended = false → q.seq.stopping = false → q.seq.trap = .none → q.icache.find line = none →
      p.owner line = some o →
      let need := q.wordInside = true ∧ line ∈ q.neededLines
      need ∨ line ∈ q.seq.prefetch →
      let x := (p.meets ecc).askAll (.fetch key) [(line, 64)] []
      let y := x.1.readLine o line 0 q.seq.tag q.seq.ids
      let p' := (y.1.countMem o line 64 false q.seq.ids).parityFail n line ecc
      (x.2 = false → need → RunsTo (.instructionFetch n lc line ecc) s (x.1.onKey key (fun c => c.hold 5))) ∧
      (x.2 = true → y.2 = true → ecc ≠ .parity →
        RunsTo (.instructionFetch n lc line ecc) s (p'.onKey key (fun c => c.gotLine line (p'.readBytes line 64)))) ∧
      (x.2 = true → y.2 = false ∨ ecc = .parity →
        (need → RunsTo (.instructionFetch n lc line ecc) s (p'.act key Core.fetchEcc)) ∧
        (¬ need → RunsTo (.instructionFetch n lc line ecc) s (p'.onKey key (fun c => c.lostLine line))))) ∧
    (∀ bs, (q.gotLine line bs).icache = cacheSet 512 4 q.icache line bs ∧ (q.gotLine line bs).seq.hold = 0 ∧
      ∀ l, l ∈ (q.gotLine line bs).seq.prefetch ↔ (l ∈ q.seq.prefetch ∧ l ≠ line) ∨
        ((l = line + 64 ∨ l = line + 128) ∧ l ∉ q.seq.prefetch ∧ q.icache.find l = none))

/-- R42, R200, R202, R203, R205, R233, R479: an access of the tracker completes, unless its memory's clock is lost: its entry leaves; a thread's read gets its line's data, or the error that
was found, and the line enters the bench cache where DDR_ALLOC let it at the admission; of other accesses nothing is left to do, since their data is
taken at the admission, the model's choice (log 26). A resource
with a place left, and none held for one already woken, wakes the first that waits for it, unless its memory's clock is lost. -/
def Obligations.TrackerEffects : Prop :=
  ∀ (s : State) (n : Nat), s.pkg.powered = true →
    (∀ ix e ecc, (s.pkg.die n).trk[ix]? = some e → s.pkg.memStopped n e.line = true → RunsTo (.memoryAccessComplete n ix ecc) s s.pkg) ∧
    (∀ ix e ecc, (s.pkg.die n).trk[ix]? = some e → s.pkg.memStopped n e.line = false →
      let p := s.pkg.complete n ix
      (e.write = true ∨ (∀ key t, e.who ≠ .thread key t) → RunsTo (.memoryAccessComplete n ix ecc) s p) ∧
      (∀ key t, e.write = false → e.who = .thread key t →
        let ids := match (p.core key).threads.find t with | some th => th.ids | none => (p.core key).seq.ids
        let r := ((p.meets ecc).touch n e.line false).fillLine n e.line 1 (p.core key).seq.tag e.alloc ids
        let q := r.1.parityFail n e.line ecc
        (r.2 = true → ecc ≠ .parity →
          RunsTo (.memoryAccessComplete n ix ecc) s (q.onKey key (fun c => c.hasData e.line (some (q.readBytes e.line 64))))) ∧
        (r.2 = false ∨ ecc = .parity →
          RunsTo (.memoryAccessComplete n ix ecc) s (q.onKey key (fun c => c.hasData e.line none))) ∧
        ∀ c : Core, ∀ j data, c.reqs.findIdx? (fun r => r.line = e.line && r.data.isNone) = some j →
          (c.hasData e.line data).reqs = listUpd c.reqs j (fun x => { x with data := some data }))) ∧
    (∀ res w ws, let p := s.pkg.waitsNow n
      (p.die n).wokenFor res = none → p.inUse n res < p.quota n res → wakeFirst res (p.die n).waits = (ws, some w) →
      (p.resStopped n res = true → RunsTo (.trackerWake n res) s p) ∧
      (p.resStopped n res = false → RunsTo (.trackerWake n res) s ((p.updDie n (fun d => { d with waits := ws })).resume n w)))

/-- R177, R178, R203, R224, R230, R233, R356, R357, R360 to R363: the host's reads and writes of device memory, at a host physical address that a
committed decoder maps onto its DPA, go to the die of that address, behind those that wait there already: memory through its bench cache,
where the tracker lets them in, and they wait until then; bench windows across the mesh. What a write brings is discarded where its check
fails, and a read then answers poison. The host may hold the line that it asked to keep, for which a full directory first has its oldest line
invalidated; its answer to BISnpInv ends that, with the data it returns, and its answer to BISnpData gives the data; a snoop of a host
line is answered, since the device holds none. Flits that the link retries are counted. The model's choices: an access outside the decoders
changes nothing (log 13); nor does one of the range of an absent die, which reads free values, and over a failed path a write is lost and
a read answers poison (log 42). -/
def Obligations.HostMemoryEffects : Prop :=
  ∀ (s : State) (hpa a n retries : Nat) (holds : Bool) (ecc : Ecc), s.pkg.powered = true → s.pkg.linkUp = true →
    let p := s.pkg.retried retries
    let rd : Instr := .cxlMemRead hpa holds ecc retries
    let wr (bs : List Byte) : Instr := .cxlMemWrite hpa bs holds ecc retries
    let part (bs : List Byte) : List Byte := bs.take (64 - hpa % 64)
    let line := lineOf a
    let poison (p : Pkg) : Pkg := p.emit (.hostData a [] true)
    let answer (p : Pkg) : Pkg := p.emit (.hostData a (p.readBytes a 64) false)
    (p.port.memEn = true → p.dpaOf hpa = none → hpa % 64 = 0 → RunsTo rd s p ∧ ∀ bs, RunsTo (wr bs) s p) ∧
    (p.port.memEn = true → p.dpaOf hpa = some a → hpa % 64 = 0 →
      (p.hostDie a = none → RunsTo rd s (answer p) ∧ ∀ bs, RunsTo (wr bs) s p) ∧
      (p.hostDie a = some n → (p.die n).hostq ≠ [] →
        RunsTo rd s (p.hostWaits n ⟨a, 64, none, holds⟩) ∧
        ∀ bs, RunsTo (wr bs) s (p.hostWaits n ⟨a, (part bs).length, some (part bs), holds⟩)) ∧
      (p.hostDie a = some n → (p.die n).hostq = [] → (p.owner a).isSome = true → holds = true → line ∉ (p.die n).held →
        directorySize ≤ (p.die n).held.length →
        let full : Pkg := { p with touched := (p.die n).held.head?.map (fun l => (l, true)) }
        RunsTo rd s full ∧ ∀ bs, RunsTo (wr bs) s full) ∧
      (p.hostDie a = some n → (p.die n).hostq = [] →
        p.owner a = none ∨ holds = false ∨ line ∈ (p.die n).held ∨ (p.die n).held.length < directorySize →
        (p.headBad n = true → RunsTo rd s (poison p) ∧ ∀ bs, RunsTo (wr bs) s p) ∧
        (p.headBad n = false →
          (ecc = .parity → ∀ bs, RunsTo (wr bs) s (p.datapath n a)) ∧
          (p.owner a = none →
            (ecc ≠ .parity → ∀ bs, RunsTo (wr bs) s (p.write a (part bs) .absent)) ∧
            (p.rangeBad a 64 = false → ecc ≠ .parity → RunsTo rd s ((answer p).headSend n 64 .absent)) ∧
            (p.rangeBad a 64 = false → ecc = .parity → RunsTo rd s (poison (p.datapath n a))) ∧
            (p.rangeBad a 64 = true → RunsTo rd s (poison ((p.noteWindow a 64).parityFail n a ecc)))) ∧
          (p.owner a = some n →
            (ecc ≠ .parity → ∀ bs,
              let q := (p.meets ecc).askAll .host [] [(a, (part bs).length)]
              (q.2 = true → RunsTo (wr bs) s (((q.1.write a (part bs) .absent).hostHolds n line holds).asBefore p)) ∧
              (q.2 = false → RunsTo (wr bs) s (q.1.hostWaits n ⟨a, (part bs).length, some (part bs), holds⟩))) ∧
            (let q := (p.meets ecc).askAll .host [(line, 64)] []
             let x := q.1.readLine n line 5 0 .absent
             let y := ((x.1.countMem n line 64 false .absent).hostHolds n line holds).parityFail n line ecc
             (q.2 = false → RunsTo rd s (q.1.hostWaits n ⟨a, 64, none, holds⟩)) ∧
             (q.2 = true → x.2 = true → ecc ≠ .parity → RunsTo rd s (((answer y).headSend n 64 .absent).asBefore p)) ∧
             (q.2 = true → x.2 = false ∨ ecc = .parity → RunsTo rd s ((poison y).asBefore p))))))) ∧
    (hpa % 64 ≠ 0 → RunsTo rd s (s.pkg.cxlRead (lineOf hpa) retries holds ecc)) ∧
    (∀ inv data, a % 64 = 0 → s.pkg.owner a = some n → (a, inv) ∈ s.pkg.snoops →
      let act : Instr := .bisnpResponse a inv data ecc
      let ask := (s.pkg.meets ecc).askAll (.answer a) [] (match data with | some bs => [(a, min 64 bs.length)] | none => [])
      let q : Pkg := { ask.1 with snoops := ask.1.snoops.filter (fun x => !(x = (a, inv))) }
      let q := match data with
        | some bs => if ecc = Ecc.parity then q.datapath n a else q.writeLine n a (bs.take 64) 7 0 .absent
        | none => q
      (ask.2 = false → RunsTo act s ask.1) ∧
      (ask.2 = true → RunsTo act s ((if inv then q.hostHolds n a false
        else { q with answered := if q.answered.contains a then q.answered else a :: q.answered }).asBefore s.pkg))) ∧
    RunsTo (.hostSnoop a retries) s (p.emit (.snoopReply a)) ∧
    (∀ l m, l ∈ ((p.hostHolds n m holds).die n).held ↔ if l = m then holds = true else l ∈ (p.die n).held) ∧
    p.fld (rRING_LINK.at 0 0 0) fRING_LINK_RETRIES = min (s.pkg.fld (rRING_LINK.at 0 0 0) fRING_LINK_RETRIES + retries) 0xFFFF

/-- R18, R20, R177, R178, R203, R233: a bench window's write goes to the bench of the bound core, or is discarded where none is bound; a read
answers with the bytes, which cross the mesh to the headstock, or with poison where one of its words is uncorrectable; either waits
behind the host's requests that wait for the die, and is discarded or poisoned where its check fails. Log 42, the model's choice: over a
failed path a write is lost and a read answers poison. -/
def Obligations.BenchWindowEffects : Prop :=
  ∀ (s : State) (n lc off len : Nat) (ecc : Ecc), s.pkg.powered = true → s.pkg.present n = true → n < 8 → lc < 64 → off < 0x300000 →
    let p := s.pkg
    let a := benchBase n lc + off
    let read : Instr := .benchWindowAccess n lc off len none ecc
    let wr (bs : List Byte) : Instr := .benchWindowAccess n lc off len (some bs) ecc
    let answer : Pkg := (p.emit (.hostData a (p.readBytes a len) false)).headSend n len .absent
    ((p.die n).hostq ≠ [] →
      RunsTo read s (p.hostWaits n ⟨a, len, none, false⟩) ∧ ∀ bs, RunsTo (wr bs) s (p.hostWaits n ⟨a, len, some bs, false⟩)) ∧
    ((p.die n).hostq = [] →
      (p.headBad n = true → RunsTo read s (p.emit (.hostData a [] true)) ∧ ∀ bs, RunsTo (wr bs) s p) ∧
      (p.headBad n = false →
        (ecc = .parity → ∀ bs, RunsTo (wr bs) s (p.datapath n a)) ∧
        (ecc ≠ .parity → ∀ bs,
          (∀ key, p.phys n lc = some key → RunsTo (wr bs) s (p.onKey key (fun c => c.benchWr off bs))) ∧
          (p.phys n lc = none → RunsTo (wr bs) s p)) ∧
        (∀ key, p.phys n lc = some key → (p.core key).benchBad off len = true →
          RunsTo read s (((p.onKey key (fun c => c.noteUE true)).parityFail n a ecc).emit (.hostData a [] true))) ∧
        ((∀ key, p.phys n lc = some key → (p.core key).benchBad off len = false) →
          (ecc ≠ .parity → RunsTo read s answer) ∧
          (ecc = .parity → RunsTo read s ((p.datapath n a).emit (.hostData a [] true)))))) ∧
    (p.phys n lc = none → p.readByte a = 0#8)

/-- R160, R167, R200, R347 to R350, R355, R373, R375: a fetched KERNEL reaches its firing stage once its ORDER lets it and it is in turn; a fired PEGSET sets its die peg,
or adds to it; a fired NOP completes; a PHASE's BEGIN keeps its start, and its END stores a record of the phase in the ledger, once the
tracker lets the record in, which its SHARE then sends; each that is done completes with status OK. -/
def Obligations.ControlCommandsRun : Prop :=
  ∀ (s : State) (k : Nat) (c : Cmd), s.pkg.powered = true → s.pkg.cmds.find k = some c → c.fin = none →
    let p := s.pkg
    let peg := c.f 29 1
    let die := c.f 28 1 % 8
    (c.ty = 1 → c.stage = .fetched → p.orderOk k c = true → p.dispatchTurn k = true → p.fw.inReset = false →
      RunsTo (.kernel k) s { p.updCmd k (fun c => { c with stage := .firing, arr := p.arrivals }) with arrivals := p.arrivals + 1 }) ∧
    (c.stage = .fired →
      (c.ty = 11 → c.f 30 1 % 2 = 0 → RunsTo (.pegsetSet k) s ((p.setDpeg die peg (c.f 32 4)).finish k 0 0 0)) ∧
      (c.ty = 11 → c.f 30 1 % 2 = 1 → RunsTo (.pegsetAdd k) s ((p.addDpeg die peg (c.f 32 4)).finish k 0 0 0)) ∧
      (c.ty = 12 → RunsTo (.nop k) s (p.finish k 0 0 0)) ∧
      (c.ty = 9 → c.f 28 1 / 16 % 2 = 0 →
        let begun : PhaseStart := { step := c.f 32 4, ftc := c.fire.getD 0, unlocked := c.idx = 1 }
        let q : Pkg := { p with fw := { p.fw with phases := p.fw.phases.set (c.f 28 1 % 16) begun } }
        RunsTo (.phaseBegin k) s (q.finish k 0 0 0)) ∧
      (c.ty = 9 → c.f 28 1 / 16 % 2 = 1 →
        let r := p.record c
        let place := if p.ledgerOn then some (p.ledgerAt (p.fld aLedgerHead fHS_LEDGER_HEAD_INDEX)) else none
        let ask := p.askAll (.command k) [] (match place with | some a => [(a, 64)] | none => [])
        let q : Pkg := { ask.1 with fw := { ask.1.fw with phases := ask.1.fw.phases.del (c.f 28 1 % 16) } }
        let q := match place with | some a => (q.write a r c.ids c.tag).bumpWrap aLedgerHead fHS_LEDGER_HEAD_INDEX | none => q
        (ask.2 = false → RunsTo (.phaseEnd k) s ask.1) ∧
        (ask.2 = true → c.isShare = false → RunsTo (.phaseEnd k) s (q.finish k 0 0 0)) ∧
        (ask.2 = true → c.isShare = true →
          RunsTo (.phaseEnd k) s ((q.updDie c.collDie (fun d => { d with collq := d.collq ++ [k] })).updCmd k
            (fun c => { c with stage := .queued, record := r, recAt := place, suspect := q.rd aSuspect })))))

/-- R160: a die peg that gets N holds the lesser of its sum and 2^32 − 1, and the first peg of a die to lose counts is kept; PSET and a
PEGSET with OP 0 write N. -/
def Obligations.DiePegsSaturate : Prop :=
  ∀ (p : Pkg) (n q k : Nat), p.dpeg n q < 2 ^ 32 →
    (p.addDpeg n q k).dpeg n q = min (p.dpeg n q + k) (2 ^ 32 - 1) ∧
    ((p.addDpeg n q k).die n).pegSat = (if p.dpeg n q + k ≤ 2 ^ 32 - 1 then (p.die n).pegSat
      else match (p.die n).pegSat with | some f => some f | none => some q) ∧
    (k < 2 ^ 32 → (p.setDpeg n q k).dpeg n q = k) ∧
    ∀ m r, m ≠ n ∨ r ≠ q → (p.addDpeg n q k).dpeg m r = p.dpeg m r ∧ (p.setDpeg n q k).dpeg m r = p.dpeg m r

/-- R170, R366, R379, R381, R382: a command that ends with a status has it, its two details and its elapsed ticks in the command table until its
completion entry is written; with NOCQ and status OK it leaves the table at once; an ended command stays as it ended. Of the endings of a
program that still runs, the first is kept; of two of one arbitration point, the stronger, then that of the lower core. That an ending of an
earlier point stands whatever its kind, and that the lower core goes first among endings of one kind, are the model's reading (log 39). -/
def Obligations.CommandsEnd : Prop :=
  ∀ (p : Pkg) (k status d0 d1 core : Nat) (c : Cmd), p.cmds.find k = some c →
    let q := p.finish k status d0 d1
    (c.fin = none →
      let el := match c.fire with | some t => min (p.ftc.now - t) 0xFFFFFFFF | none => 0
      q.cmds = if c.nocq && status = 0 then p.cmds.del k
        else p.cmds.set k { c with stage := .done, fin := some ⟨status, d0, d1, el, (p.ftc.now + 7) / 8, 0⟩ }) ∧
    (c.fin ≠ none → q = p) ∧
    (let e : Ending := ⟨status, d0, d1, 0, (p.ftc.now + 7) / 8, core⟩
     let f := ((p.failCmd k status d0 d1 core).cmds.find k).bind (fun c => c.fail)
     (c.fail = none → f = some e) ∧
     (∀ old, c.fail = some old → f = some (
        if old.point = e.point ∧ (endingRank status < endingRank old.status ∨
          (endingRank status = endingRank old.status ∧ core < old.core)) then e else old)))

/-- R169, R203, R245 to R258: an UPDATE starts on each core of its set, where the core of rank 0 reads its record; once it runs on all of them its
pass takes place, when the trackers have admitted its lines. Pass 1 of a shard that is not frozen leaves its statistics, that of a frozen
one 0 as its part of the norm; pass 2 leaves a frozen shard as it is and counts it, completes with status NONFINITE where the norm is not
finite, and updates the shard otherwise. That a pass is one event, which asks for its lines first and takes the ticks that come with it,
is the model's choice (log 28). -/
def Obligations.UpdatePassesRun : Prop :=
  (∀ (s : State) (k ticks ix : Nat) (ecc : Ecc) (c : Cmd) (keys : List Nat), s.pkg.powered = true → s.pkg.cmds.find k = some c →
    s.pkg.updReady k c = some keys →
    let q := s.pkg.updAsk c keys
    let f := q.1.fresh
    let r : URec := ⟨c.record⟩
    let u := f.1.updPass c keys ix ecc
    let rank0 := keys.getD 0 0
    let stat : Instr := .statisticsPass k ticks ix ecc
    let app : Instr := .applyPass k ticks ix ecc
    (c.f 31 1 = 1 →
      (q.2 = false → RunsTo stat s q.1) ∧
      (q.2 = true →
        let norm := c.f 40 8 + 4 * r.f 84 4
        RunsTo stat s ((if r.freeze then u.put f.2 0 norm (toBytes 4 0) else u.pass1 r f.2 norm).done k ticks 0))) ∧
    (c.f 31 1 = 2 →
      (q.2 = false → RunsTo app s q.1) ∧
      (q.2 = true →
        (r.freeze = true →
          let w := u.bumpRec r 156
          RunsTo app s ({ w with p := w.p.bumpWrap (rCORE_UPD_FROZEN.at (rank0 / 72) (rank0 % 72) 0) fCORE_UPD_FROZEN_COUNT }.done k ticks 0)) ∧
        (r.freeze = false → (u.norm c).2 = none → RunsTo app s ((u.norm c).1.done k ticks 0)) ∧
        (r.freeze = false → ∀ x, (u.norm c).2 = some x →
          let y := (u.norm c).1
          ((f32 x).special = true →
            let w := y.bumpRec r 160
            RunsTo app s ({ w with p := w.p.bumpWrap (rCORE_UPD_NONFIN.at (rank0 / 72) (rank0 % 72) 0) fCORE_UPD_NONFIN_COUNT }.done k ticks 3)) ∧
          ((f32 x).special = false →
            let w := y.pass2 r (r.scalars x) f.2
            (w.fault = none → RunsTo app s ((w.put 0 0 (c.f 32 8 + 144) (toBytes 4 (r.f 144 4 + 1) ++
              toBytes 4 (r.scalars x).p1.toNat ++ toBytes 4 (r.scalars x).p2.toNat)).done k ticks 0)) ∧
            (w.fault ≠ none → RunsTo app s (w.done k ticks 0))))))) ∧
  (∀ (s : State) (n lc key : Nat) (e : StartEntry) (es : List StartEntry) (c : Cmd) (ecc : Ecc), s.pkg.powered = true →
    s.pkg.phys n lc = some key → (s.pkg.core key).startq = e :: es → e.upd = true → s.pkg.startable key = true → s.pkg.cmds.find e.cmd = some c →
    let p := s.pkg
    let go : Instr := .programStart n lc ecc
    let r := p.pull n (.update key 0) 1 c.tag (c.f 32 8) 256 c.ids ecc
    (e.rank ≠ 0 ∨ c.fail ≠ none → RunsTo go s (p.updOn n lc key c e.cmd)) ∧
    (e.rank = 0 → c.fail = none →
      (r.2 = .parked → RunsTo go s r.1) ∧
      (∀ cause b, r.2 = .bad cause b → RunsTo go s ((r.1.updOn n lc key c e.cmd).updFail e.cmd c key 0xFFFFFFFF cause b)) ∧
      (∀ bs, r.2 = .data bs →
        let c' := { c with record := bs }
        let q := ((r.1.onKey key (fun q => q.countGth (r.1.isDdr (c.f 32 8)) c.ids 256 false)).updCmd e.cmd
          (fun c => { c with record := bs })).updOn n lc key c' e.cmd
        RunsTo go s (((q.setKeys c').filter (fun x => (q.core x).upd.isSome && (q.core x).cmdNo = e.cmd)).foldl (fun p x => p.updRegs c' x) q)))) ∧
  (∀ (s : State) (n lc key t k : Nat) (c : Cmd), s.pkg.powered = true → s.pkg.phys n lc = some key → (s.pkg.core key).upd = some (k, t) →
    s.pkg.cmds.find k = some c → c.fail ≠ none → RunsTo (.programEnd n lc) s ((s.pkg.endUpdOn c key 2).leave k (n * 64 + lc)))

/-- R193, R199 to R203, R210, R232, R340, R377, R378, R432 to R434: a free engine takes the oldest command that waits, one of class 3 after the others
and at a multiple of 8; an engine command moves its next segment, once the trackers admit what it reads and writes: what its source gives
goes to its destination; data of another package are written first; a gather reads the index of a row first, and a sentinel's row is zeros;
a DUMP that was not armed completes without copying; and a command all of whose bytes are written ends. One segment an event, whose data
are taken in the event that admits them, are the model's choice (log 26). -/
def Obligations.EngineCommandsRun : Prop :=
  ∀ (s : State), s.pkg.powered = true →
    let p := s.pkg
    (∀ n e, (∀ j, j < e → ((p.die n).engs.find j).isSome) → (p.die n).engs.find e = none → e < 8 →
      let q := p.pointFor (p.nextOf (p.die n).engq)
      (q.nextOf (q.die n).engq = none → RunsTo (.engineStart n) s q) ∧
      (∀ k, q.nextOf (q.die n).engq = some k →
        RunsTo (.engineStart n) s (((q.updDie n (fun d => { d with engs := d.engs.set e k, engq := d.engq.filter (fun x => !(x = k)),
                                                                   engParked := d.engParked.filter (fun x => !(x = e)) })).useGrants
          (.engine (n * 8 + e))).updCmd k (fun c => { c with stage := .running, began := q.ftc.now })))) ∧
    (∀ k c, p.cmds.find k = some c → p.pointFor (some k) = if c.prio = 3 ∧ p.ftc.now % 8 ≠ 0 then p.arbitrate else p) ∧
    (∀ l, p.nextOf l = match l.filter (fun k => match p.cmds.find k with | some c => c.prio ≠ 3 | none => false) with
      | k :: _ => some k
      | [] => l.head?) ∧
    (∀ k c e ecc, p.cmds.find k = some c → p.engineOn c k = some e → c.badSpace = false →
      let x := c.xfer
      let n := c.engDie
      let w : Requester := .engine (n * 8 + e)
      let came := p.fab.reads.find? (fun r => r.cmd = k && r.data.isSome)
      (c.ty = 3 →
        (∀ r, came = some r → RunsTo (.ringCopy k ecc) s (p.commitRead k r)) ∧
        (came = none → x.total ≤ c.prog → RunsTo (.ringCopy k ecc) s (p.engineDone k)) ∧
        (came = none → c.prog < x.total → RunsTo (.ringCopy k ecc) s (p.moveSegment c k e (x.src + c.row * x.srcStride) ecc))) ∧
      (c.ty = 4 → x.dstSp ≠ 2 → c.f 29 1 % 2 = 1 →
        let row (q : Pkg) (c : Cmd) (ecc : Ecc) : Pkg :=
          if c.f 29 1 / 8 % 2 = 1 ∧ c.idx = 2 ^ (8 * c.idxLen) - 1 then q.zeroSegment c k e
          else q.moveSegment c k e ((x.src + c.idx * x.srcStride) % 2 ^ 48) ecc
        let at' := c.f 40 8 + c.row * (if c.f 29 1 / 2 % 2 = 1 then 8 else 4)
        let r := p.pull n w 2 c.tag at' (if c.f 29 1 / 2 % 2 = 1 then 8 else 4) c.ids ecc
        (x.total ≤ c.prog → RunsTo (.engineGather k ecc) s (p.engineDone k)) ∧
        (c.prog < x.total → c.col ≠ 0 → RunsTo (.engineGather k ecc) s (row p c ecc)) ∧
        (c.prog < x.total → c.col = 0 →
          (r.2 = .parked → RunsTo (.engineGather k ecc) s (r.1.parkEngine n e)) ∧
          (∀ cause b, r.2 = .bad cause b →
            RunsTo (.engineGather k ecc) s (r.1.engineAbort k (if cause = 2 && ecc ≠ .crc then 1 else cause) c.row at')) ∧
          (∀ bs, r.2 = .data bs →
            let i := ofBytes bs
            let sent := c.f 29 1 / 8 % 2 = 1 ∧ i = 2 ^ (8 * c.idxLen) - 1
            (¬ sent → c.f 60 4 ≠ 0 → c.f 60 4 ≤ i → RunsTo (.engineGather k ecc) s (r.1.engineAbort k 3 c.row at')) ∧
            (sent ∨ c.f 60 4 = 0 ∨ i < c.f 60 4 →
              RunsTo (.engineGather k ecc) s (row (r.1.updCmd k (fun c => { c with idx := i })) { c with idx := i } .keep))))) ∧
      (c.ty = 10 → c.firedAs 10 = false → 0 < c.prog →
        (x.total ≤ c.prog → RunsTo (.dump k ecc) s (p.engineDone k ecc)) ∧
        (c.prog < x.total → RunsTo (.dump k ecc) s (p.moveSegment c k e (x.src + c.row * x.srcStride) ecc))) ∧
      -- a segment of local memory, and one of zeros
      (∀ (q : Pkg) a b bs (from' : Nat), q.space x.srcSp (from' + c.col) = .local' a → q.space x.dstSp (x.dst + c.row * x.dstStride + c.col) = .local' b →
        q.wayBad n a = false → q.wayBad n b = false →
        let len := min (x.rowBytes - c.col) (256 - (from' + c.col) % 256)
        let r := q.pull n w 2 c.tag a len c.ids ecc (piecesOf b len) ((q.homeDie b).getD n)
        q.outstanding w + (piecesOf a len).length + (piecesOf b len).length ≤ 512 → r.2 = .data bs →
        q.moveSegment c k e from' ecc = ((((r.1.sendWay n b bs.length c.ids).write b bs c.ids c.tag).updCmd k
          (fun c => { c with prog := c.prog + len, crc := bs.foldl crc32cByte c.crc })).progress c.job).engineDone k) ∧
      (∀ (q : Pkg) b, q.space x.dstSp (x.dst + c.row * x.dstStride + c.col) = .local' b →
        let len := min (x.rowBytes - c.col) 256
        let r := q.askAll w [] (piecesOf b len)
        q.outstanding w + (piecesOf b len).length ≤ 512 →
        (q.wayBad n b = true → q.zeroSegment c k e = q.engineAbort k 4 c.row b) ∧
        (q.wayBad n b = false → r.2 = false → q.zeroSegment c k e = r.1.parkEngine n e) ∧
        (q.wayBad n b = false → r.2 = true → q.zeroSegment c k e = ((((r.1.sendWay n b len c.ids).write b (List.replicate len 0#8) c.ids c.tag).updCmd k
          (fun c => { c with prog := c.prog + len })).progress c.job).engineDone k))) ∧
    (∀ k c ecc, p.cmds.find k = some c → c.ty = 10 → c.firedAs 10 = true →
      RunsTo (.dump k ecc) s (((p.bumpWrap aDump fOBS_DUMP_STATUS_SKIPPED).traceCmd c 11 1 (2 ^ 32 * c.f 32 4 + c.f 36 4)).finish k 0 0 0))

/-- R203, R220, R221, R227 to R229, R340: the scrub engine of a die fills, or decodes and rewrites, up to 16 lines of its command at a time, unless
the tracker refuses one of them; a FILL ends with its last line, a SCRUB with its summary. That a summary that does not match its CRC-32C at
its destination goes out again, and a group of lines an event, are the model's choice (log 26). -/
def Obligations.ScrubEngineRuns : Prop :=
  ∀ (s : State) (k n : Nat) (c : Cmd) (ecc : Ecc), s.pkg.powered = true → s.pkg.cmds.find k = some c → c.fin = none →
    s.pkg.owner (c.f 32 8) = some n → (s.pkg.scrubTake n k).scrubOn n k = true →
    let p := s.pkg.scrubTake n k
    let ls := c.nextLines
    let pat := toBytes 8 (c.f 48 8)
    (c.ty = 5 →
      let q := p.askAll (.scrub n) [] (ls.map (fun l => (l, 64))) .read .fill
      let r := ((ls.foldl (Pkg.fillOne n pat c.ids) q.1).progress c.job).updCmd k (fun c => { c with prog := c.prog + ls.length })
      (q.2 = false → RunsTo (.fill k) s (q.1.parkScrub n)) ∧
      (q.2 = true → c.prog + ls.length < c.f 40 8 / 64 → RunsTo (.fill k) s r) ∧
      (q.2 = true → c.f 40 8 / 64 ≤ c.prog + ls.length → RunsTo (.fill k) s ((r.dropCmd k).finish k 0 0 0))) ∧
    (c.ty = 6 → c.prog < c.f 40 8 / 64 →
      let q := (p.meets ecc).askAll (.scrub n) (ls.map (fun l => (l, 64))) [] .stored
      (q.2 = false → RunsTo (.scrub k ecc) s (q.1.parkScrub n)) ∧
      (q.2 = true → RunsTo (.scrub k ecc) s (((ls.foldl (Pkg.scrubOne n k (c.f 28 1 % 2 = 1) c.ids) q.1).progress c.job).updCmd k
        (fun c => { c with prog := c.prog + ls.length })))) ∧
    (c.ty = 6 → c.f 40 8 / 64 ≤ c.prog → p.awaits k = false → ∀ a, p.space (c.f 29 1) (c.f 48 8) = .local' a →
      let q := (p.meets ecc).askAll (.scrub n) [] (piecesOf a 128)
      (q.2 = false → RunsTo (.scrub k ecc) s (q.1.parkScrub n)) ∧
      (q.2 = true → ecc = .crc ∨ ecc = .parity → RunsTo (.scrub k ecc) s (q.1.datapath ((p.homeDie a).getD n) 0)) ∧
      (q.2 = true → ecc ≠ .crc → ecc ≠ .parity →
        RunsTo (.scrub k ecc) s (((((q.1.sendWay n a c.summary.length c.ids).write a c.summary c.ids c.tag).progress c.job).dropCmd k).finish
          k 0 0 0))) ∧
    (c.ty = 6 → c.f 40 8 / 64 ≤ c.prog → p.awaits k = false → ∀ a, p.space (c.f 29 1) (c.f 48 8) = .host a →
      let q := (p.meets ecc).askAll (.scrub n) [] []
      (p.hostMem = false → RunsTo (.scrub k ecc) s p) ∧
      (p.hostMem = true → q.2 = true → ecc ≠ .crc → ecc ≠ .parity →
        RunsTo (.scrub k ecc) s (((((q.1.hostWrite a c.summary).headSend n c.summary.length c.ids).progress c.job).dropCmd k).finish
          k 0 0 0))) ∧
    ls = (List.range (min 16 (c.f 40 8 / 64 - c.prog))).map (fun i => c.f 32 8 + 64 * (c.prog + i)) ∧
    (∀ (p : Pkg) line, ((Pkg.fillOne n pat c.ids p line).mem.readN line 64) = pat ++ pat ++ pat ++ pat ++ pat ++ pat ++ pat ++ pat)

/-- R266 to R280, R285, R286: a collective takes a free stream, one of class 3 at a multiple of 8; it reads its group, and where the tracker
refuses it waits with its stream; once it has its group's members it tells each of them READY; a stream does one of its steps: blocks to be
agreed, codes, contributions, shards; one with no step left and everything acknowledged ends, with status NONFINITE blocks where some were not
finite. The model's choices: which of several ready steps goes first, and one block, window of codes or shard an event (log 26); a member
that its group does not list ends as malformed (log 3). -/
def Obligations.CollectivesRun : Prop :=
  ∀ (s : State) (n : Nat) (ecc : Ecc), s.pkg.powered = true →
    let p := s.pkg
    (∀ k i c, (∀ x ∈ (p.die n).streams, x.2.members ≠ [] ∨ x.2.parked = true) →
      let q := p.pointFor (p.firstColl n)
      q.nextColl n = some k → (∀ j, j < i → ((q.die n).streams.find j).isSome) → (q.die n).streams.find i = none → i < 16 →
      q.cmds.find k = some c →
      RunsTo (.collectiveStreamStart n ecc) s ((((q.updDie n (fun d => { d with collq := d.collq.filter (fun x => !(x = k)),
                                                                                streams := d.streams.set i (Stream.start k 0 [] []) })).useGrants
        (streamReq n i)).taken k).streamBegin n i k c ecc)) ∧
    (∀ i t c, (p.die n).streams.find? (fun x => x.2.members.isEmpty && !x.2.parked) = some (i, t) → p.cmds.find t.cmd = some c →
      RunsTo (.collectiveStreamStart n ecc) s (p.streamBegin n i t.cmd c ecc)) ∧
    (∀ (q : Pkg) i k c,
      let g := q.groupOf n (streamReq n i) c (q.rd64 aGroupBase % 2 ^ 48) c.collGroup ecc
      (g.2 = .error true → q.streamBegin n i k c ecc = g.1.parkStream n i) ∧
      (g.2 = .error false → q.streamBegin n i k c ecc = g.1.haltStream n i k 1 0xFFFF 0xFFFFFFFF []) ∧
      (∀ ms, g.2 = .ok ms → ms.findIdx? (fun m => m % 2 ^ 17 = memberEntry g.1.coord n) = none →
        q.streamBegin n i k c ecc = (g.1.dropCmd k).malformed k) ∧
      (∀ ms rank, g.2 = .ok ms → ms.findIdx? (fun m => m % 2 ^ 17 = memberEntry g.1.coord n) = some rank → c.collOp ≠ 3 →
        let mine := (g.1.die n).ready.filter (fun r => c.isTriple r.epoch r.group r.cid)
        let h := g.1.updDie n (fun d => { d with ready := d.ready.filter (fun r => !c.isTriple r.epoch r.group r.cid),
                                                 hung := d.hung.filter (fun h => !c.isTriple h.1 h.2.1 h.2.2) })
        (∀ x, mine.findSome? ReadyRec.halted = some x → q.streamBegin n i k c ecc = h.haltStream n i k 4 x.1 x.2 ms) ∧
        (mine.findSome? ReadyRec.halted = none →
          let r := (h.updDie n (fun d => { d with streams := d.streams.set i (Stream.start k rank ms
            (mine.filterMap (fun r => ms.findIdx? (fun m => m % 2 ^ 17 = r.rank)))) })).updCmd k (fun c => { c with prog := ms.length })
          (ms.zipIdx.any (fun m => m.2 ≠ rank && r.memberBad n c m.1) = true → q.streamBegin n i k c ecc = r.haltPath n i none) ∧
          (ms.zipIdx.any (fun m => m.2 ≠ rank && r.memberBad n c m.1) = false → q.streamBegin n i k c ecc =
            ms.zipIdx.foldl (fun p m => if m.2 = rank then p else p.collFrame n c 0x10 m.1 0 0 []) r)))) ∧
    (∀ i t c, p.streamCmd n i = some (t, c) → t.parked = false →
      let ended := if t.nonfin = 0 then p.streamEnd t.cmd 0 0 0 else p.streamEnd t.cmd 4 t.nonfin 0
      let mayAgree := t.allReady = true ∧ t.due ≠ []
      (c.collOp = 0 → c.ranked = false →
        (mayAgree → RunsTo (.reduce n i ecc) s (p.tryAgree n i)) ∧
        (∀ r w, ¬ mayAgree → t.nextCodes c = some (r, w) → RunsTo (.reduce n i ecc) s (p.sendCodes n i t c r w ecc)) ∧
        (∀ r b code, ¬ mayAgree → t.nextCodes c = none → t.nextContrib = some (r, b, code) →
          RunsTo (.reduce n i ecc) s (p.contribute n i t c r b code ecc)) ∧
        (¬ mayAgree → t.nextCodes c = none → t.nextContrib = none → t.reduced c = true → RunsTo (.reduce n i ecc) s ended)) ∧
      (c.ranked = true →
        (∀ q, p.grantNext n i t c = some q → RunsTo (.rankOrderedReduce n i ecc) s q) ∧
        (p.grantNext n i t c = none →
          (∀ r, t.nextRank = some r → RunsTo (.rankOrderedReduce n i ecc) s (p.sendRank n i t c r ecc)) ∧
          (t.nextRank = none → t.commits = t.n → t.ackd.length = t.n →
            RunsTo (.rankOrderedReduce n i ecc) s (p.streamEnd t.cmd 0 0 0)) ∧
          (t.nextRank = none → t.commits < t.n →
            RunsTo (.rankOrderedReduce n i ecc) s (Pkg.commitDue n i ecc t.n p)))) ∧
      (c.collOp = 1 →
        (∀ q, p.gatherStep n i t c ecc = some q → RunsTo (.allGather n i ecc) s q) ∧
        (p.gatherStep n i t c ecc = none → t.gathered c = true → RunsTo (.allGather n i ecc) s (p.streamEnd t.cmd 0 0 0))) ∧
      (c.collOp = 2 →
        (mayAgree → RunsTo (.allReduce n i ecc) s (p.tryAgree n i)) ∧
        (∀ r w, ¬ mayAgree → t.nextCodes c = some (r, w) → RunsTo (.allReduce n i ecc) s (p.sendCodes n i t c r w ecc)) ∧
        (∀ r b code, ¬ mayAgree → t.nextCodes c = none → t.nextContrib = some (r, b, code) →
          RunsTo (.allReduce n i ecc) s (p.contribute n i t c r b code ecc)) ∧
        (¬ mayAgree → t.nextCodes c = none → t.nextContrib = none → t.own.length = c.shardBlocks t.n t.rank →
          (∀ b ∈ t.own, b.2.agreed.isSome = true ∧ b.2.applied.length = t.n) →
          (∀ q, p.gatherStep n i t c ecc = some q → RunsTo (.allReduce n i ecc) s q) ∧
          (p.gatherStep n i t c ecc = none → t.reduced c = true → t.gathered c = true → RunsTo (.allReduce n i ecc) s ended)))) ∧
    -- the code that a block is agreed on; a contribution in full to a block of another owner; an owner's add of one
    (∀ b : OwnBlock, (∀ x ∈ b.codes, x.2 ≤ b.code) ∧ (b.codes ≠ [] → ∃ x ∈ b.codes, x.2 = b.code)) ∧
    (∀ (q : Pkg) i t c r b code, code ≠ 255 → c.topk = 0 → r ≠ t.rank → q.memberBad n c (t.members.getD r 0) = false →
      let x := (q.meets ecc).collAsk n i (c.blockReads t.n r b) []
      let y := x.1.srcBlock n c t.n r b ecc.later
      (x.2 = false → q.contribute n i t c r b code ecc = x.1) ∧
      (x.2 = true → ∀ cause, y.2 = .error cause → q.contribute n i t c r b code ecc = y.1.haltOwn n i cause (c.srcIndex t.n r b)) ∧
      (x.2 = true → ∀ vs, y.2 = .ok vs → q.contribute n i t c r b code ecc =
        (y.1.updStream n i (fun s => { s with sentC := blockKey r b :: s.sentC })).collFrame n c 0x13 (t.members.getD r 0) b 0
          (segsOf 0 ((c.quantized t.n t.rank (c.srcIndex t.n r b) code vs).flatMap (fun m => toBytes 6 (intCode 48 m)))))) ∧
    (∀ (q : Pkg) i t c r b ms nonfin,
      let x := q.adder n (c.blockDst b) ms nonfin c.tag c.ids
      let y := x.1.updStream n i (fun s => { s with own := s.own.upd b ⟨[], none, []⟩ (fun o =>
        { o with applied := if o.applied.contains r then o.applied else r :: o.applied }) })
      (x.2 = false → q.applyTo n i t c r b ms nonfin = x.1.haltOwn n i 2 (c.srcIndex t.n t.rank b)) ∧
      (x.2 = true → r ≠ t.rank → y.memberBad n c (t.members.getD r 0) = false →
        q.applyTo n i t c r b ms nonfin = y.collFrame n c 0x15 (t.members.getD r 0) b 0 (toBytes 4 b)))

/-- R282, R283, R487: an EPOCH of the epoch in use completes at once; one of another reads its group and sends its FENCEs to the group's other
packages once no older collective runs, and switches once theirs are in; one whose group cannot be read halts, and one whose group is empty
ends as malformed, which is the model's choice (log 3). R182, R200, R351, R352, R355: firmware reads the records of the oldest share that has
completed, once the tracker lets it, and compares them by HS_SUSPECT as it stood when the own one was written: one of fewer than three, or of a
phase that is not watched, is only flagged; otherwise the record, where it stands, gets the median, and the excess of a slow one is kept;
a new step closes the former one. -/
def Obligations.EpochAndSlowness : Prop :=
  ∀ (s : State), s.pkg.powered = true →
    let p := s.pkg
    (∀ k c ecc, p.epochNow = some (k, c) → c.fin = none → c.ty = 8 →
      let new := c.f 28 2
      let cur := p.fld aEpoch fHS_EPOCH_CUR
      (new = cur → RunsTo (.epoch k ecc) s ((p.epochEnd new).finish k 0 0 0)) ∧
      (new ≠ cur → p.fw.epochSent = true → p.fencesIn new = true → RunsTo (.epoch k ecc) s (p.epochSwitch k c)) ∧
      (new ≠ cur → p.fw.epochSent = true → p.fencesIn new = false → RunsTo (.epoch k ecc) s p) ∧
      (new ≠ cur → p.fw.epochSent = false → p.olderRunning c = true → RunsTo (.epoch k ecc) s p) ∧
      (new ≠ cur → p.fw.epochSent = false → p.olderRunning c = false →
        let g := p.groupOf 0 (.command k) c (p.rd64 aGroupBase % 2 ^ 48) (c.f 30 2 % 4096) ecc
        (g.2 = .error true → RunsTo (.epoch k ecc) s g.1) ∧
        (g.2 = .error false → RunsTo (.epoch k ecc) s
          ((((g.1.setFld aEpoch fHS_EPOCH_PENDING cur).epochEnd new).finish k 5 0xFFFFFFFF (2 ^ 61 + 0xFFFF)).policyEvent fHS_FAULT_POLICY_HALT
            { Event.blank 0x23 with job := c.job, tag := c.tag, layer := c.ids.layer, op := c.ids.op, detail := 1 })) ∧
        (g.2 = .ok [] → RunsTo (.epoch k ecc) s (((g.1.setFld aEpoch fHS_EPOCH_PENDING cur).epochEnd new).malformed k)) ∧
        (∀ ms, g.2 = .ok ms → ms ≠ [] →
          let tgt := (ms.map entryCoord).foldl (fun l x => if x = g.1.coord || l.contains x then l else l ++ [x]) []
          let r := tgt.foldl (fun p x => p.inject { Frame.mk' 0x1B x 0 0 c.job with
            epoch := cur, group := c.f 30 2 % 4096, id := c.tag, aux := new }) g.1
          let t : Pkg := { r with fw := { r.fw with epochSent := true, epochNeed := tgt } }
          (t.fencesIn new = false → RunsTo (.epoch k ecc) s t) ∧ (t.fencesIn new = true → RunsTo (.epoch k ecc) s (t.epochSwitch k c))))) ∧
    (p.served = true → ∀ sh rest, p.fw.shares = sh :: rest →
      let at' := (List.range sh.n).map (fun i => sh.dst + 64 * i)
      let ask := p.askAll .firmware (at'.map (fun a => (a, 64))) []
      let read := Pkg.readRecords at' ask.1
      let q : Pkg := { read.1 with fw := { read.1.fw with shares := rest } }
      let phase := fieldOf sh.record 4 1
      let es := sortBy (fun (a b : Nat) => a ≤ b) (sh.compared read.2)
      let stamped (flag median : Nat) : Pkg := q.rewriteRecord sh.place sh.record
        (splice (splice sh.record 5 [BitVec.ofNat 8 ((sh.record.getD 5 0#8).toNat ||| flag)]) 32 (toBytes 8 median))
      let watched := bits sh.suspect fHS_SUSPECT_PHASES.lo fHS_SUSPECT_PHASES.w / 2 ^ phase % 2
      let margin := bits sh.suspect fHS_SUSPECT_MARGIN.lo fHS_SUSPECT_MARGIN.w
      (ask.2 = false → RunsTo .slowDetection s ask.1) ∧
      (ask.2 = true → es.length < 3 ∨ watched = 0 → RunsTo .slowDetection s (stamped 4 0)) ∧
      (ask.2 = true → 3 ≤ es.length → watched = 1 →
        let median := es.getD ((es.length - 1) / 2) 0
        let elapsed := fieldOf sh.record 24 8
        let slow := median * (100 + orOne margin) < elapsed * 100
        let excess := if elapsed ≤ median then 0 else if median = 0 then 0xFFFF else min 0xFFFF (1000 * (elapsed - median) / median)
        let r := (stamped (if slow then 2 else 0) median).setFld aSlow fHS_SLOW_STATUS_EXCESS excess
        let step := fieldOf sh.record 0 4
        let closed := if r.fw.curStep.isSome && r.fw.curStep ≠ some step then r.closeStep else r
        let still := closed.fw.curStep = some step && closed.fw.curSlow
        RunsTo .slowDetection s { closed with fw := { closed.fw with curStep := some step, curSlow := still || slow } }))

/-- R203, R298, R302, R305 to R307, R310, R313, R328, R401: a frame that arrives, of each type that this package takes: on a port that is down
or has the wrong neighbour nothing happens; on an open one it counts, and it stays in its input buffer behind those of its class and channel
and while it cannot leave; one that leaves is discarded while its job is aborted, goes to its next hop where it is for another package, is
returned where it is not delivered, stands behind the requests that wait in the receive queue of its die, and otherwise has its effect; what an
engine command or a stream hears is progress of its job. That during a package reset a frame for this package has no effect is the model's choice
(log 43). -/
def Obligations.FramesArrive : Prop :=
  ∀ (s : State) (port : Nat) (f : Frame) (ecc : Ecc), s.pkg.powered = true →
    let p := s.pkg
    let takes : List (Instr × Nat × (Pkg → Pkg)) :=
      [(.readyFrame port f, 0x10, fun p => p.readyFrame f), (.expFrame port f, 0x11, fun p => p.expFrame f),
       (.agree port f ecc, 0x12, fun p => p.agreeFrame f ecc), (.contrib port f, 0x13, fun p => p.contribFrame f),
       (.sparse port f, 0x14, fun p => p.sparseFrame f), (.applied port f, 0x15, fun p => p.appliedFrame f),
       (.grant port f ecc, 0x16, fun p => p.grantFrame f ecc), (.rankData port f ecc, 0x17, fun p => p.rankData f ecc),
       (.shard port f, 0x18, fun p => p.shardFrame f), (.shardAck port f, 0x19, fun p => p.shardAck f),
       (.halt port f, 0x1A, fun p => p.haltFrame f), (.fence port f, 0x1B, fun p => p.fenceFrame f),
       (.writeFrame port f ecc, 1, fun p => p.writeFrame f ecc), (.readFrame port f ecc, 2, fun p => p.readFrame f ecc),
       (.readData port f, 3, fun p => p.readData f), (.writeAck port f, 4, fun p => p.writeAck f),
       (.psigFrame port f, 5, fun p => p.psigFrame f), (.psigAck port f, 6, fun p => p.psigAck f),
       (.unreach port f, 7, fun p => p.unreachFrame f)]
    let effect (act : Pkg → Pkg) (q : Pkg) : Pkg := act (if q.heard f then q.progress f.job else q)
    let discarded (q : Pkg) : Pkg := q.bumpSat (rFAB_DISCARD.at 0 0 0) fFAB_DISCARD_COUNT
    let queued (q : Pkg) (i : Nat) : Pkg := { q with fab := { q.fab with inbox := q.fab.inbox ++ [(i, f)] } }
    -- a frame that arrives by a command, with what it does once it is here
    let arrives (i : Instr) (act : Pkg → Pkg) : Prop :=
      (5 ≤ port → RunsTo i s (p.leaveInput (port - 5) f act)) ∧
      (port < 4 → p.open' port = false → RunsTo i s p) ∧
      (port < 4 → p.open' port = true →
        let q := p.countRx port (flowGroup f (p.tport port).upGroups) f
        let stuck := (∃ y ∈ q.fab.inbox, y.1 = port ∧ sameVc y.2 f = true) ∨ q.mayLeave port f = false
        (stuck → RunsTo i s (queued q port)) ∧ (¬ stuck → RunsTo i s (q.leaveInput port f act)))
    (∀ x ∈ takes, f.ty = x.2.1 →
      arrives x.1 x.2.2 ∧
      (port = 4 → p.fw.inReset = true → RunsTo x.1 s p) ∧
      (port = 4 → p.fw.inReset = false → p.jobAborted f.job = true → RunsTo x.1 s (discarded p)) ∧
      (port = 4 → p.fw.inReset = false → p.jobAborted f.job = false → RunsTo x.1 s (effect x.2.2 p))) ∧
    (routed f.ty = true → arrives (.frameForward port f) (fun q => queued q 4)) ∧
    (∀ (q : Pkg) (i : Nat) (act : Pkg → Pkg),
      let ours := f.dst = q.coord ∧ q.jobAborted f.job = true
      let here := (q.freeUnits i f f.vc).fromGroup i f
      (ours → q.leaveInput i f act = discarded (q.freeUnits i f f.vc)) ∧
      (¬ ours →
        (∀ j vc, q.nextHop f (some i) = .ok (some (j, vc)) →
          q.leaveInput i f act = q.output j ⟨i, f.vc, { f with vc := vc, hops := f.hops - 1 }⟩) ∧
        (∀ r, q.nextHop f (some i) = .error r → q.leaveInput i f act = (q.freeUnits i f f.vc).undelivered f r) ∧
        (q.nextHop f (some i) = .ok none →
          (here.fw.inReset = true → q.leaveInput i f act = here) ∧
          (here.fw.inReset = false → here.behind f = true → q.leaveInput i f act = queued here 4) ∧
          (here.fw.inReset = false → here.behind f = false → here.jobAborted f.job = false → q.leaveInput i f act = effect act here)))) ∧
    (∀ q : Pkg, q.behind f = true ↔ tcOf f.ty = 2 ∧ ∃ y ∈ q.fab.inbox, y.1 = 4 ∧ tcOf y.2.ty = 2 ∧ y.2.dstDie = f.dstDie)

/-- R310, R311, R313: a frame leaves by the port of its route in the bank that it names, on virtual channel 1 from a dateline on and
while it stays in its dimension; it is for this package where its route says so and its destination is this one; it is not delivered on a
route to none (reason 1), to a port that is down (2), at the end of its hops (3), or to a wrong package (4). That a frame with one hop left
is not forwarded even to its destination, and that reason 3 goes before reason 2, are the model's reading (log 41). -/
def Obligations.FramesRoute : Prop :=
  ∀ (p : Pkg) (f : Frame) (from? : Option Nat),
    let e := p.route f.bank f.dst
    let port := e % 8
    (port = 4 → f.dst = p.coord → p.nextHop f from? = .ok none) ∧
    (port = 4 → f.dst ≠ p.coord → p.nextHop f from? = .error 4) ∧
    (5 ≤ port → p.nextHop f from? = .error 1) ∧
    (port < 4 → f.hops ≤ 1 → p.nextHop f from? = .error 3) ∧
    (port < 4 → 1 < f.hops → p.open' port = false → p.nextHop f from? = .error 2) ∧
    (port < 4 → 1 < f.hops → p.open' port = true → ∃ vc, p.nextHop f from? = .ok (some (port, vc)) ∧ vc ≤ 1 ∧
      (vc = 1 ↔ e / 8 % 2 = 1 ∨ (f.vc = 1 ∧ ∃ q, from? = some q ∧ q / 2 = port / 2)))

/-- R268, R269, R272 to R280, R283, R285, R286, R402: what the frames of a collective do to the stream of their triple: a READY enables its
sender, or is kept until the stream starts, unless the collective ended with HANG; codes go to their owner's blocks; the codes of an AGREE are
noted, and the contributions to its blocks go out; a contribution is added to its block once the tracker lets it in; a SHARD is written for
each member of its triple on this package once the trackers let it in, and acknowledged where it is whole; an acknowledgement is noted; a GRANT
sends once its owner is READY; a frame whose check fails halts the stream; a HALT halts the stream, or marks the records that are kept; a FENCE
is kept until its epoch uses it. The model's reading: a HALT that finds neither stream nor record leaves nothing (log 41), and a triple
that ended with HANG discards its READYs until a collective of it is held again (log 42). -/
def Obligations.CollectiveFramesAct : Prop :=
  ∀ (p : Pkg) (f : Frame),
    let n := f.dstDie
    (∀ i t c, p.findStream n f.epoch f.group f.id = some (i, t, c) →
      (∀ r, t.rankOf f = some r →
        p.readyFrame f = ((p.updStream n i (fun s => { s with ready := if s.ready.contains r then s.ready else r :: s.ready })).tryAgree n i).ackShards n i ∧
        p.expFrame f = (p.takeCodes n i r f.seq (f.payload.map BitVec.toNat)).tryAgree n i ∧
        (let codes := f.payload.zipIdx.map (fun x => (f.seq + x.2, x.1.toNat))
         let q := codes.foldl (fun p x => p.updStream n i (fun s => { s with agreed := s.agreed.set (blockKey r x.1) x.2 })) p
         ∀ ecc, p.agreeFrame f ecc = codes.foldl (fun p x => match p.streamCmd n i with
           | some (s, c) => if s.parked = true ∨ blockKey r x.1 ∈ s.sentC then p else p.contribute n i s c r x.1 x.2 ecc
           | none => p) q) ∧
        (let q := p.collAsk n i (blockPieces (c.blockDst f.seq)) []
         ∀ bs, unsegs 0 f.payload = .ok bs →
          (q.2 = false → p.contribFrame f = q.1.requeue f ∧ p.sparseFrame f = q.1.requeue f) ∧
          (q.2 = true →
            p.contribFrame f = q.1.applyTo n i t c r f.seq ((inChunks 6 (bs.take 1536)).map (fun b => signedOf 48 (ofBytes b)))
              ((bs.getD 1538 0#8).getLsbD 0) ∧
            (let es := (inChunks 7 bs).map (fun b => (ofBytes (b.take 1), signedOf 48 (ofBytes (b.drop 1))))
             p.sparseFrame f = q.1.applyTo n i t c r f.seq ((List.range 256).map (fun k =>
               match es.find? (fun e => e.1 = k) with | some e => e.2 | none => 0)) false))) ∧
        (∀ off, unsegs 0 f.payload = .error off →
          p.contribFrame f = (p.datapath n 0).haltOwn n i 1 (c.srcIndex t.n t.rank f.seq) ∧
          p.sparseFrame f = (p.datapath n 0).haltOwn n i 1 (c.srcIndex t.n t.rank f.seq) ∧
          (∀ k ecc, t.slots.find r = some k → p.rankData f ecc = (p.datapath n 0).haltOwn n i 1 (c.rankElem t.rank ((f.aux + off) / 4)))) ∧
        (c.ranked = true → p.appliedFrame f = p.updStream n i (fun s => { s with ackd := if s.ackd.contains r then s.ackd else r :: s.ackd })) ∧
        (c.ranked = false → p.appliedFrame f = p.updStream n i (fun s => { s with
          ackd := ((inChunks 4 f.payload).map (fun b => blockKey r (ofBytes b))).foldl (fun l k => if l.contains k then l else k :: l) s.ackd })) ∧
        p.shardAck f = p.updStream n i (fun s => { s with shardAcks := if s.shardAcks.contains r then s.shardAcks else r :: s.shardAcks }) ∧
        (let q := p.updStream n i (fun s => { s with grants := if s.grants.contains r then s.grants else r :: s.grants })
         ∀ ecc t', q.streamCmd n i = some (t', c) → t'.parked = false → c.ranked = true → t'.sentR.contains r = false →
          (t'.ready.contains r = false → p.grantFrame f ecc = q) ∧
          (t'.ready.contains r = true → p.grantFrame f ecc = q.sendRank n i t' c r ecc)) ∧
        (∀ k bs, t.slots.find r = some k → unsegs 0 f.payload = .ok bs → ∀ ecc,
          let at' := c.f 88 8 + k * (4 * c.elems) + f.aux
          let q := p.collAsk n i [] (piecesOf at' bs.length)
          (q.2 = false → p.rankData f ecc = q.1.requeue f) ∧
          (q.2 = true → p.rankData f ecc = Pkg.commitDue n i ecc t.n
            ((q.1.write at' bs c.ids c.tag).updStream n i (fun s => { s with got := s.got.upd r 0 (· + bs.length) }))))) ∧
      p.haltFrame f = p.haltStream n i t.cmd 4 (f.aux / 2 ^ 32 % 2 ^ 16) (f.aux % 2 ^ 32) t.members) ∧
    (p.findStream n f.epoch f.group f.id = none →
      (p.hungTriple n f.epoch f.group f.id = true → p.readyFrame f = p) ∧
      (p.hungTriple n f.epoch f.group f.id = false → (p.die n).ready.length < 4096 → p.readyFrame f = p.updDie n (fun d =>
        { d with ready := d.ready ++ [⟨f.epoch, f.group, f.id, memberEntry f.src f.srcDie, f.job, none⟩] })) ∧
      (p.hungTriple n f.epoch f.group f.id = false → 4096 ≤ (p.die n).ready.length →
        p.readyFrame f = { p with fab := { p.fab with inbox := (4, f) :: p.fab.inbox } }) ∧
      p.expFrame f = p ∧ p.contribFrame f = p ∧ p.sparseFrame f = p ∧ p.appliedFrame f = p ∧ p.shardAck f = p ∧
      (∀ ecc, p.agreeFrame f ecc = p ∧ p.grantFrame f ecc = p ∧ p.rankData f ecc = p) ∧
      p.haltFrame f = p.updDie n (fun d => { d with ready := d.ready.map (fun r =>
        if r.epoch = f.epoch && r.group = f.group && r.cid = f.id then { r with halted := some (f.aux / 2 ^ 32 % 2 ^ 16, f.aux % 2 ^ 32) } else r) })) ∧
    -- a SHARD, for the members of its triple on this package
    (let tgt := p.shardFor f
     (∀ off, unsegs f.seq f.payload = .error off → p.shardFrame f = tgt.foldl (fun p x =>
       (p.datapath x.1 0).haltOwn x.1 x.2.1 1 (x.2.2.2.1.shardBlock x.2.2.1.n x.2.2.2.2 (f.aux + off))) p) ∧
     (∀ bs, unsegs f.seq f.payload = .ok bs →
       let ask := tgt.foldl (fun (q : Pkg × Bool) x =>
         if q.2 then q.1.collAsk x.1 x.2.1 [] (p.shardWrites x.1 x.2.2.2.1 x.2.2.1.n x.2.2.2.2 f.aux bs.length) else q) (p, true)
       let put (q : Pkg) (m i : Nat) (t : Stream) (c : Cmd) (r : Nat) : Pkg :=
         let here := t.got.getD r 0 + bs.length
         let w := ((q.dovetail n m bs.length c.ids).putShard m c t.n r f.aux bs).updStream m i (fun s => { s with got := s.got.set r here })
         if c.shardBytes t.n r ≤ here then
           (w.updStream m i (fun s => { s with shards := if s.shards.contains r then s.shards else r :: s.shards })).ackShards m i
         else w
       (ask.2 = false → p.shardFrame f = ask.1.requeue f) ∧
       (ask.2 = true → p.shardFrame f = tgt.foldl (fun q x =>
         if q.pathBad n x.1 = true ∨ q.shardBad x.1 x.2.2.2.1 = true then
           q.haltPath x.1 x.2.1 (some (x.2.2.2.1.shardBlock x.2.2.1.n x.2.2.2.2 f.aux))
         else put q x.1 x.2.1 x.2.2.1 x.2.2.2.1 x.2.2.2.2) ask.1)) ∧
     (∀ m i t c r, (m, i, t, c, r) ∈ tgt ↔ m < p.board.dies ∧ p.findStream m f.epoch f.group f.id = some (i, t, c) ∧ t.rankOf f = some r)) ∧
    (p.epochNow = none → (p.fenceFrame f).fw.epochFrom =
      if p.fw.epochFrom.contains (f.src, f.aux % 2 ^ 16) then p.fw.epochFrom else p.fw.epochFrom ++ [(f.src, f.aux % 2 ^ 16)])

/-- R162, R200, R203, R224, R229, R232, R233, R303, R308, R309, R314, R377: a WRITE's good segments are written, once the trackers let them in,
and it is acknowledged with the marks of the others; a READ is answered segment by segment, one that cannot be read marked poisoned; data that
returns is kept with the first READ that waits for it until its destination lets it in, and ends the copy where it is poisoned or damaged; an
acknowledgement ends the first WRITE that waits for it, and one that marks a segment aborts the copy, while a SCRUB's summary goes out again; a
PSIG is applied and acknowledged, and its acknowledgement settles it; an UNREACH of a WRITE, READ, READ_DATA or WRITE_ACK ends the copy with
its reason. The model's choices: that of READ_DATA and WRITE_ACK is passed on to the copy's package (log 36), a SCRUB's summary is sent
again (log 26), and a segment over a failed path is marked and not written (log 42). -/
def Obligations.CopyFramesAct : Prop :=
  ∀ (p : Pkg) (f : Frame) (ecc : Ecc),
    let a := f.aux % 2 ^ 48
    let segs := payloadAt a f.seq f.payload
    let good (s : Nat × List Byte × Bool) : Bool := s.2.2 && ecc ≠ .parity && !p.wayBad f.dstDie s.1
    let w := (p.meets ecc).askAll (.fabric f.dstDie) [] ((segs.filter good).flatMap (fun s => piecesOf s.1 s.2.1.length))
    let r := (p.meets ecc).askAll (.fabric f.dstDie) (piecesOf a f.seq) []
    (w.2 = false → p.writeFrame f ecc = w.1.requeue f) ∧
    (w.2 = true → p.writeFrame f ecc = (segs.foldl (fun p s =>
      if good s then (p.sendWay f.dstDie s.1 s.2.1.length f.ids).write s.1 s.2.1 f.ids else p.datapath f.dstDie s.1) w.1).reply f 4 f.seq
        (marksOf (segs.map good)) []) ∧
    (r.2 = false → p.readFrame f ecc = r.1.requeue f) ∧
    (r.2 = true → a % 256 + f.seq ≤ 256 → 0 < f.seq →
      (∀ bs, (r.1.pullNow f.dstDie 6 0 a f.seq f.ids ecc.later).2 = .data bs →
        p.readFrame f ecc = (r.1.pullNow f.dstDie 6 0 a f.seq f.ids ecc.later).1.reply f 3 0 0 (segment bs)) ∧
      (∀ cause b, (r.1.pullNow f.dstDie 6 0 a f.seq f.ids ecc.later).2 = .bad cause b →
        p.readFrame f ecc = (r.1.pullNow f.dstDie 6 0 a f.seq f.ids ecc.later).1.reply f 3 0 1 (segment (List.replicate f.seq 0#8)))) ∧
    (∀ x c, p.fab.reads.find? (fun x => x.tag = f.id && ofPackage f.src x.src && x.data.isNone) = some x → p.cmds.find x.cmd = some c →
      let segs := payloadAt 0 x.src f.payload
      let y : FabRead := { x with data := some (segs.flatMap (fun y => y.2.1)) }
      let q : Pkg := { p with fab := { p.fab with reads := p.fab.reads.map (fun z => if z = x then y else z) } }
      (f.aux % 2 ^ 16 ≠ 0 → p.readData f = p.engineAbort x.cmd 2 x.pos x.src) ∧
      (f.aux % 2 ^ 16 = 0 → segs.any (fun y => !y.2.2) = true →
        p.readData f = (p.datapath c.engDie (x.src % 2 ^ 48)).engineAbort x.cmd 2 x.pos x.src) ∧
      (f.aux % 2 ^ 16 = 0 → segs.any (fun y => !y.2.2) = false → p.readData f = q.commitRead x.cmd y)) ∧
    (∀ x c (bs : List Byte), p.cmds.find x.cmd = some c → x.data = some bs →
      let n := c.engDie
      let e := (p.engineOf c x.cmd).getD 0
      let tgt := p.space c.xfer.dstSp x.dst
      let q := p.askAll (.engine (n * 8 + e)) [] (tgt.writes bs.length)
      (p.spaceBad n tgt = true → p.commitRead x.cmd x = p.engineAbort x.cmd 4 x.pos x.src) ∧
      (p.spaceBad n tgt = false → (∀ b, tgt = .host b → p.hostMem = true) →
        (q.2 = false → p.commitRead x.cmd x = q.1.parkEngine n e) ∧
        (q.2 = true → p.commitRead x.cmd x = (({ q.1 with fab := { q.1.fab with
          reads := removeFirst (fun z => z = x) q.1.fab.reads } }.push n c x.cmd x.src tgt bs).progress c.job).engineDone x.cmd))) ∧
    (∀ x c, p.fab.writes.find? (fun x => x.tag = f.id && ofPackage f.src x.dst) = some x → p.cmds.find x.cmd = some c →
      let q : Pkg := { p with fab := { p.fab with writes := removeFirst (fun x => x.tag = f.id && ofPackage f.src x.dst) p.fab.writes } }
      (f.aux % 2 ^ 16 = 0 → c.ty ≠ 6 → p.writeAck f = q.engineDone x.cmd) ∧
      (f.aux % 2 ^ 16 ≠ 0 → c.ty ≠ 6 → p.writeAck f = q.engineAbort x.cmd 2 c.row x.src) ∧
      (f.aux % 2 ^ 16 ≠ 0 → c.ty = 6 → p.writeAck f = q) ∧
      (f.aux % 2 ^ 16 = 0 → c.ty = 6 → q.awaits x.cmd = false → p.writeAck f = (q.dropCmd x.cmd).finish x.cmd 0 0 0)) ∧
    (let t := f.aux % 2 ^ 32
     let k := f.aux / 2 ^ 32 % 2 ^ 16
     let die := t / 2 ^ 15 % 8
     (f.aux / 2 ^ 48 % 8 = 3 → ∀ key, p.phys die (t / 2 ^ 9 % 64) = some key →
       p.psigFrame f = (p.onKey key (fun c => c.addPeg (t % 64) k)).reply f 6 f.seq f.aux []) ∧
     (f.aux / 2 ^ 48 % 8 = 3 → p.phys die (t / 2 ^ 9 % 64) = none → p.psigFrame f = p.reply f 6 f.seq f.aux []) ∧
     (f.aux / 2 ^ 48 % 8 ≠ 3 → p.present die = true → p.psigFrame f = (p.addDpeg die (t % 256) k).reply f 6 f.seq f.aux [])) ∧
    (∀ o, p.fab.psigs.find? (fun o => o.is f.dstDie f.src f.seq f.aux f.id) = some o → p.psigAck f = p.psigSettled o) ∧
    (p.fab.psigs.find? (fun o => o.is f.dstDie f.src f.seq f.aux f.id) = none → p.psigAck f = p) ∧
    (let h := Frame.ofHeader f.payload
     (h.ty = 1 → ∀ x, p.fab.writes.find? (fun x => x.tag = h.id && x.dst = h.aux) = some x →
       p.unreachFrame f = p.pathEnd x.cmd (f.aux % 8) x.dst) ∧
     (h.ty = 2 → ∀ x, p.fab.reads.find? (fun x => x.tag = h.id && x.src = h.aux) = some x →
       p.unreachFrame f = p.pathEnd x.cmd (f.aux % 8) x.src) ∧
     (h.ty = 3 → h.dst = p.coord → ∀ x, p.fab.reads.find? (fun x => x.tag = h.id && ofPackage h.src x.src) = some x →
       p.unreachFrame f = p.pathEnd x.cmd (f.aux % 8) x.src) ∧
     (h.ty = 4 → h.dst = p.coord → ∀ x, p.fab.writes.find? (fun x => x.tag = h.id && ofPackage h.src x.dst) = some x →
       p.unreachFrame f = p.pathEnd x.cmd (f.aux % 8) x.dst))

/-- R325 to R327: an ABORT not seen before is remembered, where 64 are remembered in place of the oldest, goes out on the other ports that
are up, with one hop less, and ends the job here; one that is remembered, or has no hop left, does nothing more. A write of FAB_ABORT is a write
of the register. The oldest key is forgotten 10 ms after its first receipt. -/
def Obligations.AbortsFlood : Prop :=
  ∀ (s : State), s.pkg.powered = true →
    let p := s.pkg
    (∀ port f, f.ty = 0x20 →
      -- a frame that arrives counts, and leaves its input buffer
      let q := if port < 4 then (p.countRx port (flowGroup f (p.tport port).upGroups) f).freeUnits port f f.vc
        else if port = 4 then p else p.freeUnits (port - 5) f f.vc
      let from' := if 5 ≤ port then port - 5 else port
      let origin := f.aux % 2 ^ 14
      let seen := f.hops = 0 || q.fab.keys.any (fun k => k.1 = f.job && k.2.1 = origin && k.2.2.1 = f.seq)
      (port < 4 → p.open' port = false → RunsTo (.abort port f) s p) ∧
      ((port < 4 → p.open' port = true) → seen = true → RunsTo (.abort port f) s q) ∧
      ((port < 4 → p.open' port = true) → seen = false →
        RunsTo (.abort port f) s (((q.rememberKey f.job origin f.seq).flood f (some from')).takeAbort f.job origin))) ∧
    (∀ (q : Pkg) f from', q.flood f (some from') = (List.range 4).foldl (fun q i =>
      if i ≠ from' ∧ q.open' i = true then q.output i ⟨4, 0, { f with hops := f.hops - 1, vc := 0 }⟩ else q) q) ∧
    (∀ job origin seq, (p.rememberKey job origin seq).fab.keys =
      (if 64 ≤ p.fab.keys.length then p.fab.keys.drop 1 else p.fab.keys) ++ [(job, origin, seq, p.ftc.now)]) ∧
    (∀ entry o, RunsTo (.fabAbort entry o) s (p.access (rFAB_ABORT.at 0 0 0) 4 (16 + entry % 16) o)) ∧
    (∀ k ks, p.fab.keys = k :: ks →
      let q := p.until (k.2.2.2 + 10000000)
      RunsTo .abortKeyExpiry s { q with fab := { q.fab with keys := removeFirst (fun x => x = k) q.fab.keys } }) ∧
    (p.fab.keys = [] → RunsTo .abortKeyExpiry s p)

/-- R290 to R293, R295 to R297, R305: on a lane group that is up, a good flit is used: its acknowledgement empties the replay buffer and its
credit comes back; the frame data of the one that is due is taken, and frames not held already enter the port's input buffers; another starts a
replay, which counts (replays are counted where they are asked for, and flits without frame data acknowledge and ask for replays: log 15), or is discarded while one runs, and the eighth failed replay of one flit takes the group down. A group that went down is
counted and trains again, but for the third loss within 1 s, which holds the port. A group that trains comes up once its LINK_ID and TSYNC have
passed within 100 ms, or tries again 100 ms after its start. LINK_ID sets NBR_OK by the neighbour's coordinate, and on a mismatch what waits is
returned. -/
def Obligations.LinksAct : Prop :=
  ∀ (s : State) (i g : Nat), s.pkg.powered = true → i < 4 →
    let p := s.pkg
    let x := (p.tport i).group g
    (∀ f : Flit, x.up = true →
      let failed := if x.replaying then x.replays + 1 else 0
      let used := (p.ackFlits i g f.acked).credited i f.credit.1 f.credit.2
      (f.good = true → f.idle = true → RunsTo (.linkFlit i g f) s ((if f.asksReplay then used.replay i g f.acked else used).serve i)) ∧
      (f.good = true → f.idle = false → f.seq = x.rxSeq →
        let y := cutFrames 242 (if x.part.isEmpty then f.no else x.partNo) (x.part ++ f.data)
        let q := used.updGroup i g (fun x => { x with
          rxSeq := (x.rxSeq + 1) % 2 ^ 10, part := y.2.2, partNo := y.2.1, replays := 0, replaying := false })
        RunsTo (.linkFlit i g f) s (((q.takeFrames i g y.1).idleFlit i g 0 false).serve i)) ∧
      (f.good = false ∨ (f.idle = false ∧ f.seq ≠ x.rxSeq) →
        (x.replaying = true → f.seq ≠ x.rxSeq → RunsTo (.linkFlit i g f) s p) ∧
        (x.replaying = false ∨ f.seq = x.rxSeq →
          (8 ≤ failed → RunsTo (.linkFlit i g f) s (p.laneGroupDown i g)) ∧
          (failed < 8 → RunsTo (.linkFlit i g f) s
            (((p.updGroup i g (fun x => { x with replaying := true, replays := failed })).bumpSat (rFAB_PORT_RETRY.at 0 0 i)
              fFAB_PORT_RETRY_COUNT).idleFlit i g 0 true))))) ∧
    -- what a port sends: frames back to back in flits of 242 bytes, and those of lost groups again, in their order
    (∀ (q : Pkg) (no : Nat) (f : Frame) (ids : Ids), q.txPart i g = TxPart.none → f.bytes.length < 242 →
      q.sendOn i g no f ids = ((q.updPort i (fun r => { r with sent := r.sent ++ [(no, g, f)] })).setTx i g
        ⟨no, f.bytes, [f.bytes.length]⟩).countDie (groupDie q.board.dies i g) 26 (32 + f.payload.length) ids) ∧
    (∀ (q : Pkg) (gs : List Nat), q.portUp i = true →
      let lost := ((q.tport i).sent.filter (fun x => gs.contains x.2.1)).map (fun x => (x.1, x.2.2))
      q.afterLoss i gs = (q.updPort i (fun r => { r with
        sent := r.sent.filter (fun x => !gs.contains x.2.1), again := sortBy r.older (r.again ++ lost) })).serve i) ∧
    (∀ ack, x.rtx.any (fun t => t.seq = ack) = true →
      (((p.ackFlits i g ack).tport i).group g).rtx = x.rtx.dropWhile (fun t => !(t.seq = ack))) ∧
    (∀ (q : Pkg) (l : List (Nat × Frame)), (q.takeFrames i g l).fab.inbox =
      q.fab.inbox ++ (l.filter (fun y => !(q.tport i).rxFrames.contains y.1)).map (fun y => (i, y.2))) ∧
    (x.up = true →
      let recent := p.ftc.now :: x.losses.filter (fun t => p.ftc.now < t + 1000000000)
      let q := (p.bumpSat (aPortStatus i) fFAB_PORT_STATUS_DOWNS).updGroup i g (fun x => { x with losses := recent })
      (recent.length < 3 → RunsTo (.laneGroupDown i g) s (q.groupOff i g true)) ∧
      (3 ≤ recent.length → RunsTo (.laneGroupDown i g) s
        (((q.groupOff i g false).updPort i (fun q => { q with held := true })).portEvent i 0x53 g))) ∧
    (x.up = false → RunsTo (.laneGroupDown i g) s p) ∧
    (∀ t, x.trainSince = some t → p.mayTrain i g = true →
      let q := p.updGroup i g (fun x => { x with up := true, trainSince := none, rxSeq := 0, part := [], replays := 0, replaying := false
                                                 txSeq := 0, rtx := [] })
      let passed := x.up = false ∧ p.ftc.now ≤ t + 100000000 ∧ x.idSeen = true ∧ x.tsSeen = true
      (passed → RunsTo (.linkTraining i g) s (((q.portEvent i 0x52 ((q.tport i).upBits)).noteFirstUp i).serve i)) ∧
      (¬ passed → RunsTo (.linkTraining i g) s p) ∧
      RunsTo (.trainingTimeout i g) s ((p.until (t + 100000000)).train i g)) ∧
    (∀ q : Pkg, q.lit i g = true →
      q.train i g = (q.updGroup i g (fun x => { x with trainSince := some q.ftc.now, idSeen := false, tsSeen := false })).sendLinkId i) ∧
    (∀ l : LinkId, (p.tport i).groups.any (fun g => g.2.up || g.2.trainSince.isSome) = true →
      let sx := dimOf (p.fld aDim fFAB_DIM_SX)
      let sy := dimOf (p.fld aDim fFAB_DIM_SY)
      let ok := l.px = (if i = 0 then (p.px + 1) % sx else if i = 1 then (p.px + sx - 1) % sx else p.px) ∧
        l.py = (if i = 2 then (p.py + 1) % sy else if i = 3 then (p.py + sy - 1) % sy else p.py)
      let known (b : Bool) := ((p.countLocal i 27 9).updPort i (fun q => { q with
        nbrOk := b, nbr := l.logical % 2 ^ 14, nbrGroups := l.groups
        groups := q.groups.map (fun g => (g.1, { g.2 with idSeen := g.2.idSeen || g.2.trainSince.isSome })) })).groupsOff i
          ((List.range 4).filter (fun g => l.groups ≤ g)) false
      (ok → RunsTo (.linkId i l) s ((known true).noteFirstUp i)) ∧
      (¬ok → RunsTo (.linkId i l) s ((((known false).portEvent i 0x54 (l.px + 128 * l.py)).flushOut i).reparent)))

/-- R317, R319 to R324: a TSYNC gives its stamps and advertisement, and completes an exchange where it names a send stamp of this package; θ of
the parent steers an FTC that is ACQUIRING towards LOCKED, which 64 exchanges in a row within 2 ns reach, and takes one that is LOCKED back
where it exceeds 1 µs; the FTC is slewed by at most a tick in 5,000, and in HOLDOVER on as it last was; a first advertisement is adopted; after
3 ms of HOLDOVER firmware reports it, once; the grandmaster serves time 100 ms after its first port is up; a pending bank switch takes place at
its time; a read of a low word keeps the high word for its port of origin. That a serving grandmaster shows LOCKED, and that slewing goes by whole
ticks, are the model's choices (log 33). -/
def Obligations.TimeSteers : Prop :=
  ∀ (s : State), s.pkg.powered = true →
    let p := s.pkg
    (∀ (i : Nat) (t : Tsync), i < 4 →
      let t4 : Int := 32 * (p.ftc.now : Int) + (t.frac % 32 : Nat)
      let q := (p.countLocal i 27 29).updPort i (fun q => { q with
        stamps := some (t.t3, t4)
        groups := q.groups.map (fun g => (g.1, { g.2 with tsSeen := g.2.tsSeen || g.2.idSeen })) })
      let r := q.updPort i (fun q => { q with adv := some (t.gm, t.depth) })
      (q.open' i = false → RunsTo (.tsync i t) s q) ∧
      (q.open' i = true → t.echo = none → RunsTo (.tsync i t) s r) ∧
      (q.open' i = true → ∀ e, t.echo = some e →
        ((r.tport i).tx.contains e.1 = false → RunsTo (.tsync i t) s r) ∧
        ((r.tport i).tx.contains e.1 = true →
          let asym := signedOf 16 (r.fld (rFTC_PORT_ASYM.at 0 0 i) fFTC_PORT_ASYM_ASYM)
          let theta : Int := ((e.2 - e.1) - (t4 - t.t3)) * 500 - asym * 16
          RunsTo (.tsync i t) s ((r.updPort i (fun q => { q with theta := theta })).exchange i t theta)))) ∧
    (∀ (q : Pkg) (i : Nat) (t : Tsync) (theta : Int), i < 4 → q.isGM = false → q.ftcLost = false →
      let steered (f : Ftc) : Ftc := { f with offset := theta.tdiv 1000, slew := theta.tdiv 32000, depth := min 254 (t.depth + 1), gm := t.gm }
      (q.ftc.parent = i → t.depth ≠ 255 →
        (q.ftc.st = .acquiring → 64000 < theta.natAbs → q.exchange i t theta = { q with ftc := { steered q.ftc with good := 0 } }) ∧
        (q.ftc.st = .acquiring → theta.natAbs ≤ 64000 → q.ftc.good + 1 < 64 →
          q.exchange i t theta = { q with ftc := { steered q.ftc with good := q.ftc.good + 1 } }) ∧
        (q.ftc.st = .acquiring → theta.natAbs ≤ 64000 → 64 ≤ q.ftc.good + 1 →
          q.exchange i t theta = { q with ftc := { steered q.ftc with st := .locked, everLocked := true, good := 0 } }) ∧
        (q.ftc.st = .locked → theta.natAbs ≤ 32000000 → q.exchange i t theta = { q with ftc := steered q.ftc }) ∧
        (q.ftc.st = .locked → 32000000 < theta.natAbs →
          let u := ({ q with ftc := { q.ftc with offset := theta.tdiv 1000, slew := theta.tdiv 32000, st := .acquiring, good := 0 } }).unlocked
          q.exchange i t theta = { u with ftc := { u.ftc with depth := min 254 (t.depth + 1), gm := t.gm } })) ∧
      (q.ftc.parent = 7 → q.bestPort = none → q.exchange i t theta = q) ∧
      (q.ftc.parent = 7 → ∀ x, q.bestPort = some x → x.2.2 = i → q.exchange i t theta = q.adopt x)) ∧
    (∀ f : Ftc, f.slewed.2 ≠ 1 → f.slewAt + 5000 ≤ f.now ∧ f.slewed.1.slewAt = f.now ∧ f.slewed.2 ≤ 2 ∧
      (f.st ≠ .holdover → f.slewed.1.slew.natAbs + 1 = f.slew.natAbs ∧ (f.slewed.2 = 2 ↔ 0 < f.slew)) ∧
      (f.st = .holdover → f.slewed.1.rate = f.rate ∧ (f.slewed.2 = 2 ↔ 0 < f.rate))) ∧
    (p.ftc.everLocked = true → p.ftc.st ≠ .holdover → p.holdover.ftc.st = .holdover ∧ p.holdover.ftc.rate = p.ftc.slew.sign ∧
      p.holdover.ftc.holdSince = p.ftc.now) ∧
    (p.served = true → p.ftc.st = .holdover →
      (p.ftc.unsyncReported = false → RunsTo .ftcUnsync s
        ({ p.until (p.ftc.holdSince + 3000000) with ftc := { (p.until (p.ftc.holdSince + 3000000)).ftc with unsyncReported := true } }.event
          (Event.blank 0x57))) ∧
      (p.ftc.unsyncReported = true → RunsTo .ftcUnsync s p)) ∧
    (∀ t, p.ftc.firstUp = some t → p.isGM = true → p.ftc.serving = false → p.ftc.parent = 7 → p.ftcLost = false →
      let q := p.until (t + 100000000)
      let r := if q.ftc.best = 0 then q
        else if q.ftc.everLocked = true then { q with ftc := { q.ftc with slew := q.ftc.best } }
        else q.stepFtc (q.ftc.now + q.ftc.best)
      RunsTo .grandmasterStart s { r with ftc := { r.ftc with best := 0, serving := true, parent := 4, depth := 0, gm := r.coord
                                                              st := .locked, everLocked := true } }) ∧
    (p.fld aRtStatus fFAB_RT_STATUS_PEND = 1 → RunsTo .bankSwitch s (p.until (p.rd64 (rFAB_RT_AT.at 0 0 0))).switchNow) ∧
    (∀ q : Pkg, q.switchNow = if q.fld aRtStatus fFAB_RT_STATUS_PEND = 1 ∧ q.rd64 (rFAB_RT_AT.at 0 0 0) ≤ q.ftc.now then q.switchBank else q) ∧
    (p.fld aRtStatus fFAB_RT_STATUS_PEND = 0 → RunsTo .bankSwitch s p) ∧
    (∀ (a : Nat) (o : Origin), a % 8 = 0 → latches a = true → latches (a + 4) = true → (o = .bar0 → (p.linkUp && p.port.memSpace) = true) →
      RunsTo (.ftcNowRead a o) s ({ p with latch := p.latch.set (latchKey o a) (p.word s.mtr (a + 4)) }.emit
        (.hostData a (toBytes 4 (p.word s.mtr a).toNat) false)) ∧
      (∀ v, p.latch.find (latchKey o a) = some v →
        RunsTo (.ftcNowRead (a + 4) o) s ({ p with latch := p.latch.del (latchKey o a) }.emit (.hostData (a + 4) (toBytes 4 v.toNat) false))) ∧
      (p.latch.find (latchKey o a) = none →
        RunsTo (.ftcNowRead (a + 4) o) s (p.emit (.hostData (a + 4) (toBytes 4 (p.word s.mtr (a + 4)).toNat) false))))

/-- R41, R408, R453, R454: a command that writes a register, from a port that may reach it, brings its write to the register arbiter, where
it is held while 65,536 journal entries wait, or other writes do; otherwise the journal gets its entry and the write takes effect; from
another port it does nothing. Memory space, bus mastering, CXL.cache, CXL.mem and MSI-X are enabled in configuration space, where the bases of
BAR0 and BAR2 are assigned; a write of an HDM decoder is a write into BAR0 as every other, and one that is not committed takes its Base, Size
and DPA Skip, and a Commit once the decoders before it are committed (their place, order and granule are the model's choice, log 13). -/
def Obligations.RegisterWritesArrive : Prop :=
  ∀ (s : State) (o : Origin) (off k i v : Nat), s.pkg.powered = true → k < 16 → i < 4 →
    let p := s.pkg
    -- the commands, with their port, offset, size and value
    let writes : List (Instr × Origin × Nat × Nat × Nat) :=
      [(.commit k o, o, 0x200 + 4 * k, 4, 1), (.hostReset o, o, 0x538, 4, 0xA5),
       (.retrain i v o, o, rFAB_PORT_CTRL.at 0 0 i, 4, (v ||| 0x100) % 2 ^ 32),
       (.commandRingLoad v o, o, aCtxLoad, 4, v % 2 ^ 15), (.commandRingDisable v o, o, aCtxLoad, 4, 2 ^ 29 + v % 2 ^ 15),
       (.completionRingLoad v o, o, aCtxLoad, 4, 2 ^ 31 + v % 2 ^ 12), (.completionRingDisable v o, o, aCtxLoad, 4, 2 ^ 31 + 2 ^ 29 + v % 2 ^ 12),
       (.registerWrite (.bar off 4 v o), o, off / 4 * 4, 4, v % 2 ^ 32),
       (.registerWrite (.bar off 8 v o), o, off / 8 * 8, 8, v % 2 ^ 64),
       (.registerWrite (.hdm i .base v), .bar0, hdmOff i .base, 8, v % 2 ^ 64), (.registerWrite (.hdm i .size v), .bar0, hdmOff i .size, 8, v % 2 ^ 64),
       (.registerWrite (.hdm i .commit v), .bar0, hdmOff i .commit, 4, 2 ^ 9 * (v % 2))]
    let full := (65536 ≤ p.fw.jbuf.length) || !p.fw.jwait.isEmpty || !p.fw.jheld.isEmpty
    (∀ x ∈ writes, let w : HeldWrite := ⟨x.2.2.1, x.2.2.2.1, x.2.2.2.2, x.2.1, none⟩
      (p.mayReach x.2.1 = true → full = true → RunsTo x.1 s { p with fw := { p.fw with jheld := p.fw.jheld ++ [w] } }) ∧
      (p.mayReach x.2.1 = true → full = false →
        let kind := if (0x200 ≤ w.off ∧ w.off < 0x240 ∧ w.value % 2 = 1) ∨
          (w.size = 8 ∧ 0x200 ≤ w.off + 4 ∧ w.off + 4 < 0x240 ∧ w.value / 2 ^ 32 % 2 = 1) then 2 else 1
        let store := persists w.off || (w.size = 8 && persists (w.off + 4))
        RunsTo x.1 s ((p.jput kind x.2.1.code w.size store w.off w.value).takeWrite w.off (w.size = 8) w.value)) ∧
      (p.mayReach x.2.1 = false → RunsTo x.1 s p)) ∧
    RunsTo (.registerWrite (.hdm i .skip v)) s ((p.access (hdmOff i .skip) 4 v .bar0).access (hdmOff i .skip + 4) 4 (v / 2 ^ 32) .bar0) ∧
    (∀ (q : Pkg) (w : Nat), hdmSlot w = none →
      q.takeWrite w false v = q.applyWord w (BitVec.ofNat 32 v) ∧
      q.takeWrite w true v = (q.applyWord w (BitVec.ofNat 32 v)).applyWord (w + 4) (BitVec.ofNat 32 (v / 2 ^ 32))) ∧
    (p.linkUp = true → ∀ b,
      RunsTo (.registerWrite (.cfg .memSpace b)) s { p with port := { p.port with memSpace := b } } ∧
      RunsTo (.registerWrite (.cfg .busMaster b)) s { p with port := { p.port with busMaster := b } } ∧
      RunsTo (.registerWrite (.cfg .cacheEn b)) s { p with port := { p.port with cacheEn := b } } ∧
      RunsTo (.registerWrite (.cfg .memEn b)) s { p with port := { p.port with memEn := b } } ∧
      RunsTo (.registerWrite (.cfg .msixEn b)) s { p with port := { p.port with msixEn := b } }) ∧
    (p.linkUp = true →
      RunsTo (.registerWrite (.base false v)) s { p with port := { p.port with bar0 := v % 2 ^ 64 / 2 ^ 26 * 2 ^ 26 } } ∧
      RunsTo (.registerWrite (.base true v)) s { p with port := { p.port with bar2 := v % 2 ^ 64 / 2 ^ 19 * 2 ^ 19 } }) ∧
    (∀ q : Pkg,
      let d := q.hdmAt i
      let put (x : Hdm) : Pkg := { q with port := { q.port with hdm := q.port.hdm.set i x } }
      let v28 (v : Nat) : Nat := v % 2 ^ 64 / 2 ^ 28 * 2 ^ 28
      (d.committed = true → q.takeWrite (hdmOff i .base) true v = q ∧ q.takeWrite (hdmOff i .size) true v = q ∧
        q.takeWrite (hdmOff i .skip) false v = q ∧ q.takeWrite (hdmOff i .skip + 4) false v = q) ∧
      (d.committed = false →
        q.takeWrite (hdmOff i .base) true v = put { d with base := v28 v } ∧ q.takeWrite (hdmOff i .size) true v = put { d with size := v28 v } ∧
        q.takeWrite (hdmOff i .skip) false v = put { d with skip := v28 (d.skip / 2 ^ 32 * 2 ^ 32 + v % 2 ^ 32) } ∧
        q.takeWrite (hdmOff i .skip + 4) false v = put { d with skip := v28 (d.skip % 2 ^ 32 + 2 ^ 32 * (v % 2 ^ 32)) }) ∧
      (v / 2 ^ 9 % 2 = 1 → (∀ j, j < i → (q.hdmAt j).committed = true) →
        q.takeWrite (hdmOff i .commit) false v = put { d with committed := true }) ∧
      (v / 2 ^ 9 % 2 = 1 → (∃ j, j < i ∧ (q.hdmAt j).committed = false) → q.takeWrite (hdmOff i .commit) false v = q) ∧
      (v / 2 ^ 9 % 2 = 0 → q.takeWrite (hdmOff i .commit) false v = put { d with committed := false }))

/-- R40, R368, R408, R453: what such a write does: COMMIT makes every shadow copy of its block take effect and is counted; 0xA5 to GO asks
for a package reset, and only has its event recorded where one is due or runs; a write of RING_CTX_LOAD loads or disables the context that it names,
and one that would load a context in use sets ERR. The entry of the journal has 32 bytes, which give its fields back. -/
def Obligations.TriggersAct : Prop :=
  (∀ (p : Pkg) (k : Nat), k < 16 → p.applyWord (0x200 + 4 * k) 1#32 = p.commit k) ∧
  (∀ (p : Pkg) (k : Nat), k < 6 ∨ (8 ≤ k ∧ k < 16 ∧ p.present (k - 8) = true) →
    let q := { p with shadow := p.shadow.filter (fun e => !(clampAt e.1 = k)) }
    let mine := p.shadow.filter (fun e => clampAt e.1 = k)
    let r := mine.foldl Pkg.commitWord q
    let switch := mine.any (fun e => e.1 = rFAB_RT_SWITCH.at 0 0 0 || e.1 = rFAB_RT_AT.at 0 0 0 || e.1 = rFAB_RT_AT.at 0 0 0 + 4)
    (switch = false → p.commit k = r.bumpWrap (rHS_CLAMP.at 0 0 k) fHS_CLAMP_COUNT) ∧
    (switch = true → p.commit k = r.commitSwitch.bumpWrap (rHS_CLAMP.at 0 0 k) fHS_CLAMP_COUNT)) ∧
  (∀ (p : Pkg), (p.fw.inReset = false → p.fw.resetReq = none →
      p.applyWord 0x538 0xA5#32 = { p with fw := { p.fw with resetReq := some 0x77 } }) ∧
    (p.fw.inReset = true ∨ p.fw.resetReq ≠ none → p.applyWord 0x538 0xA5#32 = p.event { Event.blank 0x77 with action := 8 })) ∧
  (∀ (p : Pkg) (r : Nat), r < 2 ^ 15 →
    let loaded := p.hostMem && !(p.ring r).en
    let a := 4096 * (p.rd64 (rRING_CTX_BASE.at 0 0 0) / 4096) + 32 * r
    (p.ctxLoad r).ring r = (if loaded then
      { en := true, base := p.hostField a 8, size := clampTo 4 16 (p.hostField (a + 8) 1), prio := p.hostField (a + 9) 1 % 4
        cq := p.hostField (a + 10) 2 % 4096, head := p.hostField (a + 12) 4, tail := p.hostField (a + 12) 4 } else p.ring r) ∧
    ((p.ctxLoad r).fld aCtxStatus fRING_CTX_STATUS_ERR = if (p.ring r).en then 1 else 0) ∧
    ((p.ctxLoad (2 ^ 29 + r)).ring r = { p.ring r with en := false })) ∧
  (∀ (p : Pkg) (c : Nat), c < 2 ^ 12 →
    let loaded := p.hostMem && !(p.cq c).en
    let a := 4096 * (p.rd64 (rRING_CQ_BASE.at 0 0 0) / 4096) + 32 * c
    (p.ctxLoad (2 ^ 31 + c)).cq c = (if loaded then
      { en := true, base := p.hostField a 8, size := clampTo 6 16 (p.hostField (a + 8) 1), vector := p.hostField (a + 10) 2
        intCount := max 1 (p.hostField (a + 12) 2), intTime := p.hostField (a + 14) 2, n := 0, head := 0, uncovered := 0, since := 0 }
      else p.cq c) ∧
    ((p.ctxLoad (2 ^ 31 + c)).fld aCtxStatus fRING_CTX_STATUS_ERR = if (p.cq c).en then 1 else 0) ∧
    ((p.ctxLoad (2 ^ 31 + 2 ^ 29 + c)).cq c = { p.cq c with en := false })) ∧
  (∀ e : JEntry, e.bytes.length = 32 ∧
    (e.seq < 2 ^ 32 → e.ftc < 2 ^ 64 → e.kind < 256 → e.origin < 256 → e.size < 256 → e.off < 2 ^ 32 → e.value < 2 ^ 64 →
      JEntry.parse e.bytes = some e))

/-- R167 to R169, R339, R359, R366, R369 to R374, R379, R380: a doorbell of an enabled ring is its tail, one of a completion ring its head; a fetch
turn takes the command at the head of the ring that it serves into the command table and stores the new head; one of a TYPE that is not known
ends there, with a free status (log 3, the model's choice). At an arbitration point commands fire by class, then by arrival, each where its
WAIT counts, summed for each peg, are met, which it then takes, and where the conditions of its type hold; its FTC is kept, and it joins the
queue of its engine; KERNELs and UPDATEs that have fired enter the start queues of their cores in firing order, one that finds no room,
or shares a core with one that waits, waits. The entry of an ended command goes into its completion ring where there is room, and covers the
ring's entries with an interrupt once they are INT_COUNT, or its status is not OK; otherwise the ring's timer does. -/
def Obligations.RingsAct : Prop :=
  ∀ (s : State), s.pkg.powered = true →
    let p := s.pkg
    (∀ r v, p.port.memSpace = true → r < 32768 →
      ((p.ring r).en = true → RunsTo (.commandRingDoorbell r v) s
        { p with rings := p.rings.set r { p.ring r with tail := v % 2 ^ 32 }, port := { p.port with bells := p.port.bells.set r (v % 2 ^ 32) } }) ∧
      ((p.ring r).en = false → RunsTo (.commandRingDoorbell r v) s p)) ∧
    (∀ c v, p.port.memSpace = true → c < 4096 → RunsTo (.completionRingDoorbell c v) s
      { p with cqs := p.cqs.set c { p.cq c with head := v % 2 ^ 32 }
               port := { p.port with bells := p.port.bells.set (32768 + c) (v % 2 ^ 32) } }) ∧
    (p.fw.inReset = false → p.hostMem = true → p.fld (rRING_CTRL.at 0 0 0) fRING_CTRL_FETCH = 1 →
      (p.fetchRing = none → RunsTo .fetchTurn s p) ∧
      (∀ r q, p.fetchRing = some (r, q) →
        let n := p.headSlots q
        let d := p.hostRead (q.slot q.head) 64 ++ (if n = 2 then p.hostRead (q.slot (q.head + 1)) 64 else [])
        let c : Cmd := { d := d, ring := r, prio := q.prio, seq := q.head, arr := p.arrivals, stage := .fetched, fire := none, left := []
                         started := [], fail := none, fin := none, prog := 0, began := 0, idx := 0, crc := 0#32, tally := [], ues := []
                         record := [], recAt := none, suspect := 0#32, abortDue := false }
        let head := (q.head + n) % 2 ^ 32
        let t := { p with cmds := p.cmds.set p.arrivals c, arrivals := p.arrivals + 1, rings := p.rings.set r { q with head := head }
                          port := { p.port with lastRing := p.port.lastRing.set q.prio r } }
        let t := t.rdCurr (q.slot q.head) 64
        let t := if n = 2 then t.rdCurr (q.slot (q.head + 1)) 64 else t
        let t := (t.hostWrite (t.ringCtx r + 12) (toBytes 4 head)).traceCmd c 1 c.ty q.head
        let ended := c.job ≠ 0 ∧ t.jobAborted c.job = true
        (¬ ended → knownType c.ty = true → RunsTo .fetchTurn s t) ∧
        (¬ ended → knownType c.ty = false → RunsTo .fetchTurn s (t.malformed p.arrivals)) ∧
        (ended → RunsTo .fetchTurn s (t.whileAborted p.arrivals c)))) ∧
    -- the next arbitration point: what may fire, in order, fires; then what waits for start queues goes there, in firing order
    (let t := (p.ftc.now / 8 + 1) * 8
     RunsTo .arbitrationPoint s ((p.until (t - 1)).atTick t)) ∧
    (∀ (q : Pkg) (t : Nat), t % 8 = 0 → t % 1000 ≠ 0 →
      let r := ({ q with ftc := { q.ftc with now := t } } : Pkg).switchNow.arbitrateNow.settle
      q.atTick t = { r with touched := q.touched, answered := q.answered, used := q.used, ftc := { r.ftc with now := t } }) ∧
    (∀ q : Pkg, q.fw.inReset = false →
      let late := (q.cmds.filter (fun e => e.2.stage = .fetched && e.2.fin = none && q.orderOk e.1 e.2)).map Prod.fst
      let d := late.foldl (fun p k => p.dispatch k) q
      let f := Pkg.fireAll (sortBy firesBefore (d.cmds.filter (fun e => e.2.stage = .firing))) [] d
      q.arbitrateNow = f.placeWaiting (f.startWaiters.map Prod.fst) []) ∧
    (∀ l : List (Nat × Cmd), (sortBy firesBefore l).Perm l ∧ (sortBy firesBefore l).Pairwise (fun a b => a.2.prio < b.2.prio ∨
      (a.2.prio = b.2.prio ∧ a.2.arr ≤ b.2.arr))) ∧
    (∀ (q : Pkg) (k : Nat) (c : Cmd) (xs : List (Nat × Cmd)) (hit : List Nat),
      let counts (n r : Nat) : Nat := ((c.waits.filter (fun v => v.1 = n && v.2.1 = r)).map (fun v => v.2.2)).sum
      let fires := (∀ w ∈ c.waits, q.present w.1 = true ∧ counts w.1 w.2.1 ≤ q.dpeg w.1 w.2.1) ∧ q.mayFire c hit = true
      let fired := (((q.takeWaits c).progress c.job).updCmd k (fun c => { c with fire := some q.ftc.now, stage := .fired })).traceCmd c 2 c.ty 0
      (fires → Pkg.fireAll ((k, c) :: xs) hit q =
        Pkg.fireAll xs (if (c.ty = 1 ∨ c.ty = 2) ∧ c.prio ≠ 3 then hit ++ q.coreSet c else hit) (q.fire k c)) ∧
      (¬ fires → Pkg.fireAll ((k, c) :: xs) hit q = Pkg.fireAll xs hit q) ∧
      (fires → (∀ n r, q.dpeg n r < 2 ^ 32) → ∀ n r, (q.takeWaits c).dpeg n r = q.dpeg n r - counts n r) ∧
      (c.ty = 1 ∨ c.ty = 2 ∨ c.ty = 11 ∨ c.ty = 12 → q.fire k c = fired) ∧
      (c.ty = 3 ∨ c.ty = 4 → q.fire k c =
        (fired.updDie c.engDie (fun d => { d with engq := d.engq ++ [k] })).updCmd k (fun c => { c with stage := .queued })) ∧
      (c.ty = 7 → q.fire k c =
        (fired.updDie c.collDie (fun d => { d with collq := d.collq ++ [k] })).updCmd k (fun c => { c with stage := .queued }))) ∧
    (∀ (q : Pkg) (k : Nat) (c : Cmd) (ks busy : List Nat), q.cmds.find k = some c →
      let set := q.coreSet c
      let blocked := (∃ x ∈ set, x ∈ busy) ∨ q.roomFor c = false
      let enter (q : Pkg) (x : Nat × Nat) : Pkg := match q.phys (x.1 / 64) (x.1 % 64) with
        | none => q
        | some key => (q.onKey key (fun core => { core with startq := core.startq ++ [
            { cmd := k, upd := c.ty = 2, ring := c.ring, rank := x.2, cores := set.length, image := c.f 32 8, arg0 := BitVec.ofNat 64 (c.f 40 8)
              arg1 := BitVec.ofNat 64 (c.f 48 8), iflush := c.ty = 1 && c.f 31 1 % 2 = 1, tag := c.tag, ids := c.ids
              width := q.width (x.1 / 64) }] })).wake key
      (blocked → q.placeWaiting (k :: ks) busy = q.placeWaiting ks (busy ++ set)) ∧
      (¬ blocked → q.placeWaiting (k :: ks) busy = (q.place2 k c).placeWaiting ks busy) ∧
      ((∀ x ∈ set, (q.phys (x / 64) (x % 64)).isSome = true) →
        (∀ x ∈ set, ((set.zipIdx.foldl enter q).phys (x / 64) (x % 64)).isSome = true) →
        q.place2 k c = ((set.zipIdx.foldl enter q).updCmd k (fun c => { c with stage := .running, left := set })).endIfDone k)) ∧
    (∀ k c e, p.cmds.find k = some c → c.fin = some e →
      let i := p.cqOf c
      let q := p.cq i
      (p.entryRoom c = false → RunsTo (.completionEntry k) s p) ∧
      (p.entryRoom c = true →
        let w := { q with n := (q.n + 1) % 2 ^ 32, uncovered := q.uncovered + 1, since := if q.uncovered = 0 then p.ftc.now else q.since }
        let t : Pkg := { p.hostWrite (q.base + 32 * (q.n % 2 ^ q.size)) (c.entry e q) with cqs := p.cqs.set i w, cmds := p.cmds.del k }
        let covered : Pkg := { t with cqs := t.cqs.set i { w with uncovered := 0 } }
        ((e.status ≠ 0 ∨ q.intCount ≤ q.uncovered + 1) → RunsTo (.completionEntry k) s (covered.raiseVector q.vector)) ∧
        (e.status = 0 → q.uncovered + 1 < q.intCount → RunsTo (.completionEntry k) s t))) ∧
    (∀ c, (p.cq c).intTime ≠ 0 → (p.cq c).uncovered ≠ 0 → p.linkUp = true →
      let t := p.until ((p.cq c).since + 1000 * (p.cq c).intTime)
      RunsTo (.interruptTimer c) s ({ t with cqs := t.cqs.set c { t.cq c with uncovered := 0 } }.raiseVector (t.cq c).vector)) ∧
    (∀ c, (p.cq c).uncovered = 0 → RunsTo (.interruptTimer c) s p)

/-- R21, R357, R406, R408 to R413: a package reset that is due, for the third time within an hour not from the host, drains the package
instead; otherwise it runs its steps: the cause, READY 0, ABORTs of the jobs that run, frames in transit forwarded, snapshot, shavings,
completions with status reset, dirty lines written back, and the reset itself (as one command, the model's choice, log 43). The firmware
watchdog's skips those that need firmware. A start that stalls is recorded; a failed link of a dovetail faults its die; the retries of the host
link are counted, and its loss is taken. -/
def Obligations.PackageResetsRun : Prop :=
  ∀ (s : State) (held : List (Nat × List Byte)) (o : BringUp), s.pkg.powered = true →
    let p := s.pkg
    (p.served = true → ∀ cause, p.fw.resetReq = some cause →
      let recent := p.fw.readies.filter (fun t => p.ftc.now < t + 3600 * ticksPerSecond)
      let start := p.ftc.now
      (cause ≠ 0x77 → 2 ≤ recent.length → RunsTo (.packageReset held o) s ((p.updFw (fun f => { f with resetReq := none })).drainFlag cause)) ∧
      ((cause = 0x77 ∨ recent.length < 2) →
        let q := (p.setFld aReset fHS_RESET_STATUS_CAUSE cause).setFld aReset fHS_RESET_STATUS_READY 0
        let q := (q.bumpSat aReset fHS_RESET_STATUS_COUNT).setFld aReset fHS_RESET_STATUS_LOST 0
        let q := (if cause = 0x77 then q.event { Event.blank 0x77 with action := 8 } else q).updFw (fun f => { f with inReset := true })
        let q := (List.range 16).foldl (fun p k =>
          if p.fld (aJob k) fFAB_JOB_STATE = 1 then p.sendAbort (p.fld (aJob k) fFAB_JOB_JOB) else p) q
        let q : Pkg := { q with cores := q.cores.map (fun e => (e.1, { e.2 with seq := { e.2.seq with stopping := true } })) }
        let q := (Pkg.transit q.fab.inbox.length q).allOut
        let q := (q.snapshot cause).shavings o.shaved
        let q := ((q.cmds.map Prod.fst).foldl (fun p k => p.finish k 9 cause start) q).writeEntries
        let q := if q.cmds.isEmpty then q else q.setFld aReset fHS_RESET_STATUS_LOST 1
        RunsTo (.packageReset held o) s ((q.quiesce held).settle.reboot o none))) ∧
    (p.fw.running.isSome = true →
      let q := (p.setFld aReset fHS_RESET_STATUS_CAUSE 0x76).setFld aReset fHS_RESET_STATUS_READY 0
      let q := ((q.bumpSat aReset fHS_RESET_STATUS_COUNT).setFld aReset fHS_RESET_STATUS_LOST 1).setFld aReset fHS_RESET_STATUS_FLASH_SHAV 0
      RunsTo (.fwWatchdog held o) s ((q.quiesce held).reboot o (some { Event.blank 0x76 with action := 8, ftc := p.ftc.now }))) ∧
    (∀ n, p.present n = true → RunsTo (.dovetail n) s
      (((p.event { Event.blank 0x74 with die := n, action := p.faultAction 0x74 }).updDie n (fun d => { d with faulted := true })).wantReset 0x74)) ∧
    (p.served = true → RunsTo .startStall s
      ((p.snapshot 0x62).event { Event.blank 0x62 with diag := (p.snapshot 0x62).fw.diagSeq % 2 ^ 32 })) ∧
    (∀ k, p.linkUp = true →
      let q := p.setFld (rRING_LINK.at 0 0 0) fRING_LINK_RETRIES (min (p.fld (rRING_LINK.at 0 0 0) fRING_LINK_RETRIES + k) 0xFFFF)
      RunsTo (.hostLink k false) s q ∧
      RunsTo (.hostLink k true) s ({ q with port := { q.port with speed := 0, width := 0, ide := false } }.packageFault 0x75 none)) ∧
    (∀ k lost, p.linkUp = false → RunsTo (.hostLink k lost) s p)

/-- R16 to R18, R392 to R399: a core that is due and whose turn it is is tested from its due time on, once it is awake; a test that passed restores
what it used; one that failed fences the core, and a bound core moves to the next spare, or with none its logical core stays unbound, and its
failure is reported; a full test that passed again lifts the fence of a repaired core, and otherwise counts as an unreproduced failure. A
waiting rebinding moves the logical core to the next spare. That a rebinding is one event with nothing held, and reason 0x11 where no spare is
left, are the model's choices (log 29). -/
def Obligations.TestsAndRebindRun : Prop :=
  ∀ (s : State) (n c : Nat) (g : Nat), s.pkg.powered = true → s.pkg.served = true →
    let p := s.pkg
    let key := coreKey n c
    (p.testTurn n c = true → ∀ t, p.dueAt n c = some t →
      let q := p.until t
      ((q.core key).pwr ≠ .awake → RunsTo (.rotationTest n c) s (q.wake key)) ∧
      ((q.core key).pwr = .awake → RunsTo (.rotationTest n c) s
        ((q.setFld (rCD_KAT_STATUS.at n 0 0) fCD_KAT_STATUS_LAST c).updFw (fun f => { f with
          tests := f.tests.set key ⟨false, q.ftc.now, q.core key⟩, due := f.due.set key ⟨q.ftc.now, 1, 1⟩ })))) ∧
    (p.testTurn n c = false → RunsTo (.rotationTest n c) s p) ∧
    (p.testTurn n c = true ↔ p.testable n c = true ∧ ∀ x, x < c → p.testable n x = true → p.dueAt n x ≠ p.dueAt n c) ∧
    (∀ t, p.fw.tests.find key = some t →
      let q := (p.updFw (fun f => { f with tests := f.tests.del key })).noteTested n c
      let whole := (q.core key).restored t.saved
      let failed := q.bumpSat (rCD_KAT_FAILS.at n 0 0) fCD_KAT_FAILS_COUNT
      RunsTo (.rotationTestEnd n c true none) s ((q.setCore key whole).updFw (fun f => { f with passed := f.passed.set key q.ftc.now })) ∧
      ((failed.die n).logical c = none →
        let r := (failed.fence n c).event { Event.blank 0x13 with die := n, pcore := c, action := 1 }
        RunsTo (.rotationTestEnd n c false none) s r ∧ RunsTo (.rotationTestEnd n c false (some g)) s (r.bypass n c g)) ∧
      (∀ lc, (failed.die n).logical c = some lc →
        let wf := max (failed.fw.passed.getD key 0) (failed.fw.boundAt.getD key 0)
        let ends (r : Pkg) : Prop := RunsTo (.rotationTestEnd n c false (some g)) s (r.bypass n c g) ∧
          RunsTo (.rotationTestEnd n c false none) s (r.updFw (fun f => { f with fullTests := f.fullTests.set key ⟨r.ftc.now, false⟩ }))
        (∀ sp, (failed.fence n c).nextSpare n = some sp → ends (((failed.fence n c).moveCore n lc sp whole (some c)).katFail n lc c 3 wf)) ∧
        ((failed.fence n c).nextSpare n = none → ends (((failed.fence n c).unbind n lc c 0x12).katFail n lc c 49 wf)))) ∧
    (∀ ft, p.fw.fullTests.find key = some ft →
      let q := p.updFw (fun f => { f with fullTests := f.fullTests.del key })
      (ft.bypassed = false → RunsTo (.fullTestEnd n c true none) s (q.unreproduced n)) ∧
      (ft.bypassed = true → q.short key (q.core key).kerf = true → RunsTo (.fullTestEnd n c true none) s q) ∧
      (ft.bypassed = true → q.short key (q.core key).kerf = false → RunsTo (.fullTestEnd n c true none) s
        ((q.unfence n c).updFw (fun f => { f with passed := f.passed.set key q.ftc.now, due := f.due.set key ⟨ft.since, 1, 1⟩ }))) ∧
      (ft.bypassed = false → RunsTo (.fullTestEnd n c false (some g)) s (q.bypass n c g)) ∧
      (ft.bypassed = true → RunsTo (.fullTestEnd n c false (some g)) s q) ∧
      RunsTo (.fullTestEnd n c false none) s q) ∧
    (∀ lc, p.present n = true → lc < 64 → p.dueRebind n lc = true → (List.range lc).any (fun x => p.dueRebind n x) = false →
      (∀ old, (p.die n).bind.find lc = some old →
        let q := p.updFw (fun f => { f with tests := f.tests.del (coreKey n old), rebindAfter := f.rebindAfter.del (coreKey n old) })
        (∀ sp, q.nextSpare n = some sp → RunsTo (.rebind n lc) s (q.moveCore n lc sp (q.core (coreKey n old)) (some old))) ∧
        (q.nextSpare n = none → RunsTo (.rebind n lc) s (q.unbind n lc old 0x11))) ∧
      ((p.die n).bind.find lc = none → ∀ sp, p.nextSpare n = some sp →
        RunsTo (.rebind n lc) s (p.moveCore n lc sp (p.core (coreKey n sp)) none)))

/-- R329, R386, R391, R401, R402, R424, R442, R454, R455: what firmware does by itself: the watchdog's check ends the jobs that show no
progress within the limit; the end of an abort, a drain, a controller's correctable errors and replays are reported; unacknowledged records
go out again, 1 s after they last did; buffered journal entries reach flash in order, and held writes take the room; an area with less than 1 MiB free is compacted
into the other one; a sample is taken at the next sampling tick, under the fields in effect until then, and put into the ring or dropped. From when a job's watchdog counts, and how far
one COMPACTION goes, are the model's choices (logs 31 and 14). -/
def Obligations.FirmwareActs : Prop :=
  ∀ (s : State), s.pkg.powered = true → s.pkg.served = true →
    let p := s.pkg
    (let q := p.until (100000000 * (p.ftc.now / 100000000 + 1))
      let jobs := q.jobsNow
      let kept : Tbl Nat := q.fw.jobFtc.filter (fun e => jobs.contains e.1)
      let seen := jobs.foldl (fun (t : Tbl Nat) j => match t.find j with | some _ => t | none => t.set j q.ftc.now) kept
      let r := q.updFw (fun f => { f with jobFtc := seen })
      let limit := r.fld (rHS_WDOG.at 0 0 0) fHS_WDOG_LIMIT
      let stalled := jobs.filter (fun j => r.fw.jobFtc.getD j 0 + 1000000 * limit ≤ r.ftc.now)
      (limit = 0 ∨ r.fw.inReset = true → RunsTo .jobWatchdog s r) ∧
      (limit ≠ 0 → r.fw.inReset = false → RunsTo .jobWatchdog s (stalled.foldl Pkg.hang r))) ∧
    (∀ job, p.fw.abortPend.contains job = true →
      (p.cmds.any (fun e => e.2.job = job) = false → RunsTo (.abortDone job) s
        ((p.updFw (fun f => { f with abortPend := f.abortPend.filter (fun j => !(j = job)) })).event { Event.blank 0x92 with job := job })) ∧
      (p.cmds.any (fun e => e.2.job = job) = true → RunsTo (.abortDone job) s p)) ∧
    (p.fw.draining = true →
      let q := if (List.range 4).all (fun i => (p.tport i).out.isEmpty) then p else p.after 10000000
      let q := (List.range 4).foldl (fun p i => (p.setFld (rFAB_PORT_CTRL.at 0 0 i) fFAB_PORT_CTRL_DISABLE 1).portCtrl i) q
      RunsTo .drained s (((q.updFw (fun f => { f with draining := false })).setFld aHealth fHS_HEALTH_DRAINED 1).event (Event.blank 0x94))) ∧
    (∀ n m, p.present n = true → m < 4 →
      let now := p.fld (rMEM_ECC_CORR.at n m 0) fMEM_ECC_CORR_COUNT
      let seen := p.fw.ceSeen.getD (n * 4 + m) 0
      let q := p.updFw (fun f => { f with ceSeen := f.ceSeen.set (n * 4 + m) now })
      (now ≤ seen → RunsTo (.memCe n m) s q) ∧
      (seen < now → RunsTo (.memCe n m) s (q.event { Event.blank 0x32 with die := n, unit := m, detail := now - seen }))) ∧
    (∀ k, 0 < k → RunsTo (.dtReplay k) s (p.event { Event.blank 0x42 with detail := k })) ∧
    (∀ k seq,
      let q := p.until (p.fw.sentAt.getD (k * 2 ^ 32 + seq % 2 ^ 32) 0 + 1000000000)
      p.fld (rMGT_NET_CTRL.at 0 0 0) fMGT_NET_CTRL_EN = 1 →
      p.fw.unacked.any (fun u => u.1 = k && u.2.1 = seq && u.2.2 ≠ 0) = true → RunsTo (.eventResend k seq) s
        ((q.updFw (fun f => { f with unacked := f.unacked.map (fun u =>
          if u.1 = k && u.2.1 = seq then (k, seq, u.2.2 + 1) else u) })).sendEvent k seq)) ∧
    (∀ n, RunsTo (.journalFlush n) s (iterate Pkg.flushOne n p).releaseHeld) ∧
    (∀ e es, p.fw.jbuf = e :: es →
      (p.fw.compacting = false → p.areaNow.bytes + 32 ≤ areaBytes →
        p.flushOne = (p.setArea { p.areaNow with entries := p.areaNow.entries ++ [e.bytes] }).updFw
          (fun f => { f with jbuf := es ++ f.jwait.take 1, jwait := f.jwait.drop 1 })) ∧
      (p.fw.compacting = true → p.flushOne = p)) ∧
    (p.fw.compacting = false →
      (areaBytes < p.areaNow.bytes + 0x100000 →
        RunsTo .compaction s ((p.setOther p.areaNow.next).updFw (fun f => { f with compacting := true }))) ∧
      (p.areaNow.bytes + 0x100000 ≤ areaBytes → RunsTo .compaction s p)) ∧
    (p.fw.compacting = true →
      (p.areaOther.marker = [] → RunsTo .compaction s
        ((p.setOther (p.areaOther.marked p.ftc.now)).updFw (fun f => { f with activeArea := !f.activeArea }))) ∧
      (p.areaOther.marker ≠ [] → RunsTo .compaction s ((p.setOther .erased).updFw (fun f => { f with compacting := false })))) ∧
    (∀ late, p.sampleTick = none → RunsTo (.sample late) s p) ∧
    (∀ t, p.sampleTick = some t →
      let q := (p.until t).updFw (fun f => { f with smpOld := none })
      let r := q.sampleRecord
      (p.oldTick = none → t = (p.ftc.now / sampleStep (p.fld aSmpCtrl fOBS_SMP_CTRL_INTERVAL) + 1)
        * sampleStep (p.fld aSmpCtrl fOBS_SMP_CTRL_INTERVAL)) ∧
      (∀ late, q.fld aSmpCtrl fOBS_SMP_CTRL_INTERVAL = 0 ∨ q.fld aSmpCtrl fOBS_SMP_CTRL_SIZE_LOG2 = 0 → RunsTo (.sample late) s q) ∧
      (q.fld aSmpCtrl fOBS_SMP_CTRL_INTERVAL ≠ 0 → q.fld aSmpCtrl fOBS_SMP_CTRL_SIZE_LOG2 ≠ 0 →
        RunsTo (.sample true) s (q.bumpSat aSmpStatus fOBS_SMP_STATUS_DROPPED) ∧
        RunsTo (.sample false) s ((q.updFw (fun f => { f with smpSeq := (f.smpSeq + 1) % 2 ^ 32, lastSample := r })).putSample r)))

/-- R438, R439, R440 to R442, R456: a request over the management UDP or MCTP that firmware serves is answered in its turn: registers are
read and written word by word, event records and journal entries answered all or, with one gone, with status 4; a count outside its range
with status 2, a request of another TYPE with status 1. That a range is answered whole or not at all, and that a count outside its range is a
bad length, are the model's choices (log 21). An acknowledged record is dropped, and a waiting one sent; neighbour solicitations and echo requests are answered; ENTDAA
gives an address; the port's link comes and goes. -/
def Obligations.ManagementAnswers : Prop :=
  ∀ (s : State) (ch : Chan) (tag : Nat), s.pkg.powered = true →
    let p := s.pkg
    (ch ≠ .doe → s.turn ch = true → p.hears ch = true →
      (∀ off n ty, ty = 0 ∨ 7 < ty → RunsTo (.regRead ch tag off n ty) s (p.respond ch ty 1 tag [])) ∧
      (∀ off n ty, 0 < ty → ty ≤ 7 → (n = 0 ∨ 256 < n → RunsTo (.regRead ch tag off n ty) s (p.respond ch 1 2 tag [])) ∧
        (0 < n → n ≤ 256 → let x := Pkg.readRegs s.mtr ch.origin (off / 4 * 4) n p []
          RunsTo (.regRead ch tag off n ty) s (x.1.respond ch 1 0 tag x.2))) ∧
      (∀ off ws, (ws = [] ∨ 256 < ws.length → RunsTo (.regWrite ch tag off ws) s (p.respond ch 2 2 tag [])) ∧
        (ws ≠ [] → ws.length ≤ 256 → RunsTo (.regWrite ch tag off ws) s (Pkg.writeRegs ch.origin tag ws (off / 4 * 4) p))) ∧
      (∀ first, RunsTo (.evtRead ch tag first 0) s (p.respond ch 4 2 tag []) ∧ RunsTo (.jrnlRead ch tag first 0) s (p.respond ch 5 2 tag [])) ∧
      (∀ first n, 0 < n →
        (n ≤ 16 →
          let es := (List.range n).filterMap (fun i => p.fw.record (first + i))
          (es.length = n → RunsTo (.evtRead ch tag first n) s (p.respond ch 4 0 tag (es.flatMap Event.bytes))) ∧
          (es.length ≠ n → RunsTo (.evtRead ch tag first n) s (p.respond ch 4 4 tag []))) ∧
        (16 < n → RunsTo (.evtRead ch tag first n) s (p.respond ch 4 2 tag [])) ∧
        (n ≤ 32 →
          let es := (List.range n).filterMap (fun i => p.areaNow.good.find? (fun e => e.seq = (first + i) % 2 ^ 32))
          (es.length = n → RunsTo (.jrnlRead ch tag first n) s (p.respond ch 5 0 tag (es.flatMap JEntry.bytes))) ∧
          (es.length ≠ n → RunsTo (.jrnlRead ch tag first n) s (p.respond ch 5 4 tag []))) ∧
        (32 < n → RunsTo (.jrnlRead ch tag first n) s (p.respond ch 5 2 tag [])))) ∧
    (p.hears .udp = true →
      (∀ k seq, p.fw.unacked.any (fun u => u.1 = k && u.2.1 = seq && u.2.2 ≠ 0) = true → RunsTo (.event k seq) s
        ((p.updFw (fun f => { f with unacked := f.unacked.filter (fun u => !(u.1 = k && u.2.1 = seq)) })).sendWaiting k)) ∧
      RunsTo (.neighbourDiscovery p.netAddr) s (p.emit (.net 0 (toBytes 16 p.netAddr))) ∧
      (∀ a, a ≠ p.netAddr → RunsTo (.neighbourDiscovery a) s p) ∧
      (∀ data, RunsTo (.icmpv6Echo data) s (p.emit (.net 1 data)))) ∧
    (p.served = true → ∀ a, RunsTo (.entdaa a) s { p with mgt := { p.mgt with i3cAddr := some (a % 128) } }) ∧
    (∀ up, RunsTo (.managementPortLink up) s { p with mgt := { p.mgt with linkUp := up } })

/-- R364, R444 to R452: the firmware protocol on a channel that is served: BEGIN opens a transfer of at most 16 MiB, DATA fills it, END
checks the image and writes it to flash, with status 5 where the check of the write fails, or runs it where the boot ROM waits; a transfer of
another channel is answered with status 4, none with 6. The statuses that R447 does not name for a case, where the fields of bodies lie, and
the VALUE of a KIND 4 entry are the model's choices (logs 21 and 22). STATUS, LOCK_SVN and the certificates and measurements are answered; DOE lists its protocols, CDAT its ranges, IDE_KM its keys. -/
def Obligations.FirmwareProtocolAnswers : Prop :=
  ∀ (s : State) (ch : Chan) (tag : Nat), s.pkg.powered = true → s.turn ch = true →
    let p := s.pkg
    (p.fwHears ch = true →
      (∀ len, (p.fw.transfer.any (fun t => !(t.chan = ch)) = true → RunsTo (.firmwareBegin ch tag len) s (p.fwReply ch tag 4 [])) ∧
        (p.fw.transfer.any (fun t => !(t.chan = ch)) = false →
          (2 ^ 24 < len → RunsTo (.firmwareBegin ch tag len) s (p.fwReply ch tag 3 [])) ∧
          (len ≤ 2 ^ 24 → RunsTo (.firmwareBegin ch tag len) s
            ((p.updFw (fun f => { f with transfer := some ⟨ch, len, []⟩ })).fwReply ch tag 0 [])))) ∧
      (∀ off bs w, p.fw.transfer = none →
        RunsTo (.firmwareData ch tag off bs) s (p.fwReply ch tag 6 []) ∧ RunsTo (.firmwareEnd ch tag w) s (p.fwReply ch tag 6 [])) ∧
      (∀ off bs w t, p.fw.transfer = some t → t.chan ≠ ch →
        RunsTo (.firmwareData ch tag off bs) s (p.fwReply ch tag 4 []) ∧ RunsTo (.firmwareEnd ch tag w) s (p.fwReply ch tag 4 [])) ∧
      (∀ off bs t, p.fw.transfer = some t → t.chan = ch → bs ≠ [] → bs.length ≤ (if ch = .doe then 4096 else 1024) →
        (off + bs.length ≤ t.length → RunsTo (.firmwareData ch tag off bs) s
          ((p.updFw (fun f => { f with transfer := some { t with buf := t.buf.setRun off bs } })).fwReply ch tag 0 [])) ∧
        (t.length < off + bs.length → RunsTo (.firmwareData ch tag off bs) s (p.fwReply ch tag 3 []))) ∧
      (∀ t, p.fw.transfer = some t → t.chan = ch →
        let st := imageStatus p.fw.revoked p.fw.minSvn t.bytes
        let img := Image.ofBytes t.bytes
        let q := p.updFw (fun f => { f with transfer := none })
        (st ≠ 0 → ∀ w, RunsTo (.firmwareEnd ch tag w) s (q.fwReply ch tag st [])) ∧
        (st = 0 → p.fw.waiting = true → ∀ w, RunsTo (.firmwareEnd ch tag w) s ((q.fwReply ch tag 0 []).runImage img true)) ∧
        (st = 0 → p.fw.waiting = false →
          let kept := ((q.updFw (fun f => { f with image := some img })).fwReply ch tag 0 []).fresh
          RunsTo (.firmwareEnd ch tag .good) s (kept.1.jput 4 ch.jorigin 4 false img.version (Config.freeNat kept.2 % 2 ^ 32)) ∧
          RunsTo (.firmwareEnd ch tag .cut) s (q.updFw (fun f => { f with image := none })) ∧
          let failed := ((q.updFw (fun f => { f with image := none })).fwReply ch tag 5 []).fresh
          RunsTo (.firmwareEnd ch tag .bad) s (failed.1.jput 4 ch.jorigin 4 false img.version (Config.freeNat failed.2 % 2 ^ 32)))) ∧
      RunsTo (.firmwareStatus ch tag) s (p.fwReply ch tag 0 (toBytes 4 (p.ownWord (rMGT_BOOT.at 0 0 0)).toNat
        ++ toBytes 4 ((p.fw.running.map Image.version).getD 0) ++ toBytes 4 ((p.fw.running.map Image.svn).getD 0)
        ++ toBytes 4 ((p.fw.transfer.map (fun t => t.buf.length)).getD 0))) ∧
      (∀ i, p.fw.waiting = false → p.fw.bootRam = false → p.fw.running = some i → RunsTo (.lockSvn ch tag) s
        (((p.updFw (fun f => { f with minSvn := max p.fw.minSvn i.svn })).jput 4 ch.jorigin 4 false i.version
          (max p.fw.minSvn i.svn)).fwReply ch tag 0 [])) ∧
      (p.fw.waiting = true ∨ p.fw.bootRam = true → RunsTo (.lockSvn ch tag) s (p.fwReply ch tag 6 []))) ∧
    (p.hears ch = true → p.served = true →
      (∀ off len, 0 < len → len ≤ 1024 → RunsTo (.getCert ch tag off len) s (p.attReply ch tag 0
        ((if off = 0 then toBytes 4 Config.deviceChain.length else []) ++ (Config.deviceChain.drop off).take len))) ∧
      (∀ nonce mask,
        let c := p.fw.measCounter + 1
        let entries := p.fw.measures.zipIdx.flatMap (fun x => if mask / 2 ^ x.2 % 2 = 1 then toBytes 1 x.2 ++ x.1 else [])
        let body := entries ++ nonce ++ toBytes 1 (flag01 p.fw.bootRam) ++ toBytes 8 c
        RunsTo (.getMeas ch tag nonce mask) s ((p.updFw (fun f => { f with measCounter := c })).attReply ch tag 0
          (body ++ Config.deviceSign (Config.sha384 (nonce ++ toBytes 4 mask ++ body)))))) ∧
    (p.linkUp = true → p.served = true → p.fw.waiting = false →
      (∀ i, i < 5 → RunsTo (.doeDiscovery i) s (p.emit (.doe (doeName i ++ toBytes 1 (if i = 4 then 0 else i + 1))))) ∧
      RunsTo .cdat s (p.emit (.doe (p.cdatRanges.flatMap (fun r => toBytes 1 0 ++ toBytes 1 0 ++ toBytes 2 24 ++ toBytes 1 r.1
        ++ toBytes 3 0 ++ toBytes 8 r.2.1 ++ toBytes 8 r.2.2 ++ p.cdatRates r.1)))) ∧
      (∀ on, RunsTo (.ideKm on) s ({ p with port := { p.port with ide := on } }.emit (.doe (doeName 2))))) ∧
    (p.linkUp = true → p.fw.waiting = true →
      RunsTo (.doeDiscovery 0) s (p.emit (.doe (doeName 0 ++ [1#8]))) ∧ RunsTo (.doeDiscovery 1) s (p.emit (.doe (doeName 3 ++ [0#8]))))

/-- R49 to R53, R57 to R60, R63, R476: a control period of a die in adaptive mode lowers its base voltage by 10 mV over its allocation or
above 100 °C, raises it where it may, and moves the firmware ceiling; one of a die in fixed mode keeps to VFIXED. Droops are counted; a
rail out of tolerance and a thermal trip fault the die. A core without work is gated, a waiting request admitted at its spacing (unless
work has withdrawn it until then, R61), when committed settings of the governor take effect (R64), a wake takes 800 ns and then 64 beats of ramp.
That in fixed mode the heat moves the firmware ceiling alone is the model's choice (log 34), and so are the range in which R63 raises a die and
windows that follow each other (log 44). -/
def Obligations.PowerEventsAct : Prop :=
  ∀ (s : State) (n c : Nat), s.pkg.powered = true →
    let p := s.pkg
    let key := coreKey n c
    (∀ t : Telemetry, p.served = true → p.present n = true → p.fw.inReset = false →
      let alloc := allocation p.board.dies
      let trim := p.trim n
      let q := (p.wr (rCD_BEAT_RATE.at n 0 0) (BitVec.ofNat 32 (65536 * (t.fastest % 65536) + t.slowest % 65536))).updDie n
        (fun d => { d with oldVctrl := none })
      let d := q.die n
      let missed := if t.answered then 0 else d.avsMissed + 1
      let slow := if 100 * t.rate < 97 * t.others then d.slowFor + 1 else 0
      let raising := (d.raising || 16 ≤ slow) && 100 * t.rate < 97 * t.others && d.baseMv + 10 * trim < 850 && t.predicted ≤ alloc
      let r := q.setVrFail n (3 ≤ missed)
      let d := { d with avsMissed := missed, slowFor := slow, raising := raising, tj := t.tj }
      (r.fixedMode n = false →
        let v := if alloc < t.power || 100 < t.tj then max 550 (d.baseMv - 10)
          else if d.baseMv + 10 * trim < 850 && t.predicted ≤ alloc && (t.tj ≤ 95 || raising) then d.baseMv + 10 else d.baseMv
        let lower := v = 550 && (alloc < t.power || 100 < t.tj)
        RunsTo (.controlPeriod n t) s (r.updDie n (fun _ => { d with
          baseMv := v, setMv := if t.answered then min 850 (v + 10 * trim) else d.setMv
          fwCeil := if 3 ≤ missed then 50 else if lower then max 50 (d.fwCeil - 5) else min 255 (d.fwCeil + 5) }))) ∧
      (r.fixedMode n = true →
        RunsTo (.controlPeriod n t) s ((if alloc < t.power then r.bumpSat (rCD_VSTATUS.at n 0 0) fCD_VSTATUS_OVER_ALLOC else r).updDie n
          (fun _ => { d with
            raising := false, slowFor := 0, setMv := if t.answered then clampTo 550 850 (r.vfixed n + 10 * trim) else d.setMv
            fwCeil := if 3 ≤ missed then 50 else if 100 < t.tj then max 50 (d.fwCeil - 5) else min 255 (d.fwCeil + 5) })))) ∧
    (p.present n = true →
      RunsTo (.droop n) s (p.bumpSat (rCD_DROOP.at n 0 0) fCD_DROOP_COUNT) ∧
      (let fault (q : Pkg) (code : Nat) := ((q.event { Event.blank code with die := n, action := q.faultAction code }).updDie n
          (fun d => { d with faulted := true })).wantReset code;
        RunsTo (.railUnder n) s (fault p 0x71) ∧ RunsTo (.railOver n) s (fault p 0x72) ∧
        RunsTo (.thermal n) s (fault (p.updDie n (fun d => { d with tripped := true })) 0x73))) ∧
    (let q := p.until (1000 * (p.ftc.now / 1000 + 1));
      RunsTo (.ceilingWindow n) s { q with cores := q.cores.map (fun e : Nat × Core =>
        (e.1, if e.1 / 72 = n then { e.2 with windowBeats := 0 } else e.2)) }) ∧
    (c < 72 → p.present n = true → (p.core key).idle = true → (p.core key).pwr = .awake →
      (p.die n).oldGate.getD (p.fld (rCD_GOV_CTRL.at n 0 0) fCD_GOV_CTRL_IDLE_GATE) ≠ 0 → p.fw.tests.find key = none →
      RunsTo (.gateDown n c) s ((p.setCore key { p.core key with pwr := .gateQueued }).govAsk n c false)) ∧
    (∀ w, (∀ r ∈ (p.die n).gov, r.point < (p.ftc.now + 7) / 8) →
      p.govAsk n c w = p.updDie n (fun d => { d with gov := d.gov ++ [⟨c, w, (p.ftc.now + 7) / 8⟩] })) ∧
    (∀ r rs, (p.die n).gov = r :: rs →
      let k := coreKey n r.core
      let q := p.until (max (p.die n).govNext (8 * r.point))
      let t := q.ftc.now
      let q1 := q.updDie n (fun d => { d with gov := d.gov.drop 1, oldGate := none, oldSlew := none })
      let spacing := 1000 / max 1 (min 4 (max 12 (q.fld (rCD_GOV_CTRL.at n 0 0) fCD_GOV_CTRL_SLEW) * 2 / 25))
      let q2 := q1.updDie n (fun d => { d with govNext := t + spacing })
      (r.wake = true ∨ (p.core k).pwr = .gateQueued →
        ((q.die n).gov.head? = some r → RunsTo (.admission n) s
          (q2.setCore k { q2.core k with pwr := if r.wake then .ungating t else .gated })) ∧
        ((q.die n).gov.head? ≠ some r → RunsTo (.admission n) s q)) ∧
      (r.wake = false → (p.core k).pwr ≠ .gateQueued → RunsTo (.admission n) s (p.updDie n (fun d => { d with gov := rs })))) ∧
    (∀ t, (p.core key).pwr = .ungating t →
      let q := p.until (t + 800)
      RunsTo (.ungate n c) s (q.setCore key { q.core key with pwr := .ramp })) ∧
    ((p.core key).pwr = .ramp → RunsTo (.rowGroupRamp n c) s (p.setCore key
      { (p.core key).unhold with pwr := .awake, half := (p.core key).half + 128, opaActive := (p.core key).half + 128 }))

/-- R471 to R484: the board's events act in every state: PKG_PWROK; a cold reset leaves only the flash, the fuses and the board, no command waits
after it, and HS_RESET_STATUS says that memory is lost; the release of PKG_RST_N latches the straps and starts the boot ROM and the FTC, a grandmaster's at FTC_INIT and any other
at 0, which is FTC_INIT's reset value; CXL_PERST_N resets the host port, or lets it train, at x16 or x8 and 64 or 32 GT/s; VR_ALERT, which
HS_POWER_STATUS shows; THERM_TRIP, which PKG_RST_N does not hold back; and, while the package is powered, a lost clock (of the FTC: HOLDOVER),
and a rail that the PMBus finds out of tolerance. -/
def Obligations.BoardEventsAct : Prop :=
  ∀ (s : State),
    let p := s.pkg
    RunsTo .pkgPwrok s { p with board := { p.board with pwrok := true } } ∧
    (∀ b, exec (.coldReset b) s = .next (({ s with waiting := [] } : State).afterwards (.coldReset b) (p.coldReset b)) ∧ (p.coldReset b).board.rstN = false ∧ (p.coldReset b).cmds = [] ∧
      (p.coldReset b).cores = [] ∧ (p.coldReset b).mem.cells = [] ∧ (p.coldReset b).ftc = Ftc.reset ∧
      (∀ a, a ≠ aReset → (p.coldReset b).rd a = resetWord a) ∧ (p.coldReset b).fld aReset fHS_RESET_STATUS_MEM_LOST = 1 ∧
      (p.coldReset b).shadow = [] ∧ (p.coldReset b).rings = [] ∧ (p.coldReset b).cqs = [] ∧ (p.coldReset b).port = HostPort.reset p.port.top ∧
      (∀ n, ((p.coldReset b).die n).pegs = [] ∧ ((p.coldReset b).die n).bcache = [] ∧ ((p.coldReset b).die n).fused = (p.die n).fused) ∧
      (p.coldReset b).fw.jbuf = [] ∧ (p.coldReset b).fw.area0 = p.fw.area0 ∧ (p.coldReset b).fw.area1 = p.fw.area1 ∧
      (p.coldReset b).fw.image = p.fw.image ∧ (p.coldReset b).fw.minSvn = p.fw.minSvn ∧ (p.coldReset b).board.dimms = p.board.dimms) ∧
    (∀ o, p.board.pwrok = true → p.board.rstN = false → p.isGM = true ∨ p.rd64 (rFTC_INIT.at 0 0 0) = 0 →
      let trains := p.board.perstN = true ∧ (o.speed = 1 ∨ o.speed = 2) ∧ (o.width = 8 ∨ o.width = 16)
      let q := { p with board := { p.board with rstN := true }
                        ftc := { p.ftc with now := if p.isGM then p.rd64 (rFTC_INIT.at 0 0 0) else 0 }
                        port := { p.port with speed := if trains then o.speed else 0, width := if trains then o.width else 0 } }
      let q := q.wr (rHS_STRAPS.at 0 0 0) (putFlds 0#32 [(fHS_STRAPS_X, o.x), (fHS_STRAPS_Y, o.y), (fHS_STRAPS_FW_WAIT, flag01 o.fwWait),
        (fHS_STRAPS_MGT_DEF, flag01 o.mgtDef), (fHS_STRAPS_TEST_N, flag01 o.testN)])
      let q := ((q.setFld aCoord fFAB_COORD_PX o.x).setFld aCoord fFAB_COORD_PY o.y).bootRom
      (q.fw.waiting = true → RunsTo (.bringUp o) s q) ∧ (q.fw.waiting = false → RunsTo (.bringUp o) s (q.toReady o))) ∧
    (∀ o, p.board.pwrok = true → p.board.rstN = true → p.fw.booted = false →
      (p.fw.running.isSome = true → RunsTo (.bringUp o) s (p.toReady o)) ∧ (p.fw.running = none → RunsTo (.bringUp o) s p)) ∧
    (let q := ({ p with board := { p.board with perstN := false } } : Pkg).linkLost;
      RunsTo .hostPortReset s { q with
        regs := q.regs.filter (fun e => !(0x180000 ≤ e.1 && e.1 < 0x188000))
        port := { HostPort.reset q.port.top with bells := q.port.bells, lastRing := q.port.lastRing } }) ∧
    (∀ sp w, p.board.perstN = false →
      let trains := (sp = 1 ∨ sp = 2) ∧ (w = 8 ∨ w = 16)
      (p.powered = true → RunsTo (.perstRelease sp w) s { p with
        board := { p.board with perstN := true }
        port := { p.port with speed := if trains then sp else 0, width := if trains then w else 0 } }) ∧
      (p.powered = false → RunsTo (.perstRelease sp w) s { p with board := { p.board with perstN := true } })) ∧
    (p.board.pwrok = true → RunsTo .thermTrip s { p with board := { p.board with thermTrip := true } }) ∧
    (∀ on, let q : Pkg := { p with board := { p.board with vrAlert := on } }
      RunsTo (.vrAlert on) s q ∧ ((q.ownWord aPower).getLsbD fHS_POWER_STATUS_VR_ALERT.lo = on)) ∧
    p.memRstN = p.powered ∧
    (p.powered = true →
      let lost (c : Clk) := p.setFld aPower fHS_POWER_STATUS_CLK_LOST (p.fld aPower fHS_POWER_STATUS_CLK_LOST ||| 2 ^ c.bit)
      RunsTo (.clkLost .cxl) s (lost .cxl).linkLost ∧
      let free : Pkg := { lost .ftc with board := { p.board with clkGone := (1, 0) :: p.board.clkGone }, ftc := p.ftc.holding }
      RunsTo (.clkLost .ftc) s (if p.ftc.st = .locked then free.unlocked else free) ∧
      ∀ n, let q (i : Nat) (c : Clk) : Pkg := { lost c with board := { p.board with clkGone := (i, n) :: p.board.clkGone } }
        RunsTo (.clkLost (.hbm n)) s ((q 3 (.hbm n)).scrambleMem (hbmBase n) (hbmBase (n + 1))) ∧
        RunsTo (.clkLost (.ddr n)) s ((q 4 (.ddr n)).scrambleMem (ddrBase n) (ddrBase (n + 1))) ∧
        RunsTo (.clkLost (.fab n)) s ((List.range 4).foldl (fun p i => (List.range (groupCount p.board.dies)).foldl (fun p g =>
          if groupDie p.board.dies i g = n then p.laneGroupDown i g else p) p) (lost (.fab n)))) ∧
    (p.powered = true → p.served = true → ∀ out, RunsTo (.pmbusPoll out) s (out.foldl (fun p x =>
      let q : Pkg := if x.1.ofMemory then { p with board := { p.board with memLost := true } } else p
      q.packageFault (if x.2 then 0x71 else 0x72) (match x.1 with | .hbm n _ => some n | _ => none)) (p.after 1000000)))

/-- R459 to R466: Milnik's events: every rail present adds its mV × mA to its energy in µJ, what is below 1 µJ kept; a die's counts are added
to its counters, or lost with a framing error; a record is closed at the next multiple of 60,000 ms, signed with the one before it, and kept
in RAM and flash (how MTIME and SPAN count, and that a sample closes a record that is due, are the model's reading, log 25); the live copy is written; a loss of power, and a power-up, which counts BOOTS and takes the counters from the last record
stored; and its port answers IDENT, RECORD, CERT and QUOTE. -/
def Obligations.MeterActs : Prop :=
  ∀ (s : State),
    let m := s.mtr
    (m.powered = true →
      exec .milnikPowerLoss s = .next { s with mtr := { m with powered := false } } ∧
      (∀ ok,
        let t := max (60000 * ((m.mtime - m.spanMs) / 60000 + 1)) m.mtime
        let u := { m with mtime := t, us := 0 }
        let prev := if m.last.isEmpty then toBytes 48 0 else Config.sha384 m.last
        let r := milnikSigned (u.head 1 (m.seq + 1) (min (m.spanMs + (t - m.mtime)) 60000) ++ prev)
        exec (.milnikRecordClose ok) s = .next { s with mtr := { u with
          seq := m.seq + 1, spanMs := 0, gap := false, overrange := false, lineFault := 0, last := r
          flash := if ok then m.flash.set ((m.seq + 1) % 131072) r else m.flash, stored := if ok then r else m.stored
          flashFault := m.flashFault || !ok, flashNext := !ok, ram := ((m.seq + 1, r) :: m.ram).take 64 } }) ∧
      exec .liveCopyRefresh s = .next { s with mtr := { m with liveGen := (m.liveGen + 2) % 2 ^ 32, live := m.head 1 (m.seq + 1) m.spanMs } } ∧
      (∀ n, s.pkg.present n = true →
        let q := s.pkg.updDie n (fun d => { d with line := [] })
        exec (.countingLine n true) s = .next { s with mtr := { m with lineFault := m.lineFault ||| 2 ^ n }, pkg := q } ∧
        exec (.countingLine n false) s = .next { s with pkg := q, mtr := { m with
          ops := (s.pkg.die n).line.foldl (fun t e => t.upd e.1 0 (fun x => (x + e.2) % 2 ^ 128)) m.ops } }) ∧
      (∀ vi,
        let m1 := if 60000 * ((m.mtime - m.spanMs) / 60000 + 1) ≤ m.mtime then m.close true else m
        let u := vi.zipIdx.foldl (fun m x => if x.2 < 24 then m.sampleRail x.2 x.1 else m) m1
        exec (.milnikSample vi) s = .next { s with mtr := if u.us + 1 = 1000
          then { u with us := 0, mtime := u.mtime + 1, spanMs := u.spanMs + 1 } else { u with us := u.us + 1 } }) ∧
      (∀ r mv ma,
        (m.railPresent r = true → m.sampleRail r (mv, ma) = { m with
          residue := m.residue.set r ((m.residue.getD r 0 + mv * ma) % 1000000)
          energy := m.energy.set r ((m.energy.getD r 0 + (m.residue.getD r 0 + mv * ma) / 1000000) % 2 ^ 64)
          overrange := m.overrange || (if r < 8 then 780000 else 48000) < ma }) ∧
        (m.railPresent r = false → m.sampleRail r (mv, ma) = m)) ∧
      (let answers (i : Instr) (b : List Byte) := exec i s = .next { s with pkg := s.pkg.emit (.meter b) };
        answers .milnikIdent (toBytes 4 m.identWord ++ toBytes 4 m.statusWord ++ toBytes 8 m.serial ++ toBytes 8 m.pkgSerial) ∧
        (∀ off len, answers (.milnikCert off len) ((Config.milnikChain.drop off).take (min len 1024))) ∧
        (∀ nonce, answers (.quote nonce) (milnikSigned (m.head 2 m.seq 0 ++ nonce))) ∧
        (∀ seq e, m.ram.find? (fun e => e.1 = seq) = some e → answers (.milnikRecord seq) e.2) ∧
        (∀ seq r, m.ram.find? (fun e => e.1 = seq) = none → m.flash.find (seq % 131072) = some r →
          answers (.milnikRecord seq) (if recordField r 8 8 = seq then r else [])) ∧
        (∀ seq, m.ram.find? (fun e => e.1 = seq) = none → m.flash.find (seq % 131072) = none → answers (.milnikRecord seq) []))) ∧
    (m.powered = false → exec .milnikPowerUp s = .next { s with mtr := { m with
      powered := true, boots := (m.boots + 1) % 2 ^ 32, gap := true, spanMs := 0, us := 0, overrange := false, lineFault := 0
      flashFault := false, flashNext := false, ram := [], residue := [], seq := recordField m.stored 8 8, last := m.stored
      energy := (List.range 24).map (fun r => (r, recordField m.stored (64 + 8 * r) 8))
      ops := (List.range 16).map (fun i => (i, recordField m.stored (256 + 16 * i) 16)) } })

/-- A step runs the command at the front of the queue on the state with the queue's rest, and answers its outcome. -/
def Obligations.StepRunsFront : Prop :=
  ∀ (c : Instr) (s : State), step { s with pending := c :: s.pending } = exec c s

/-- R53, R141, R302, R322, R361, R442 (log 1): with an empty queue a step lets the commands that have waited go on, in order, once no snoop and
no held write is left; else it takes the oldest frame that has arrived and may be taken; else the lowest core that can does what it does next; else the FTC of
a powered package ticks. -/
def Obligations.EmptyQueueActs : Prop :=
  ∀ (s : State), s.pending = [] →
    (s.pkg.snoops = [] → s.pkg.fw.jheld = [] → ∀ c cs, s.waiting = c :: cs → step s = .next { s with waiting := [], pending := c :: cs }) ∧
    (s.waiting = [] ∨ s.pkg.snoops ≠ [] ∨ s.pkg.fw.jheld ≠ [] →
      (∀ k x, s.pkg.nextFrame = some (k, x) → s.pkg.fab.inbox[k]? = some x ∧ step s = .next { s with
        pkg := { s.pkg with fab := { s.pkg.fab with inbox := s.pkg.fab.inbox.eraseIdx k } }, pending := [frameCommand (if x.1 < 4 then 5 + x.1 else x.1) x.2] }) ∧
      (∀ x xs, s.pkg.fab.inbox = x :: xs → s.pkg.takeable [] x = true → s.pkg.nextFrame = some (0, x)) ∧
      (s.pkg.nextFrame = none →
        (s.pkg.powered = false → step s = .next s) ∧
        (s.pkg.powered = true →
          (∀ p cs, s.pkg.coresNext (s.pkg.cores.map Prod.fst) = .go p cs → step s = .next { s with pkg := p, pending := cs }) ∧
          (s.pkg.coresNext (s.pkg.cores.map Prod.fst) = .none → step s = .next { s with pkg := s.pkg.tick }) ∧
          s.pkg.tick.ftc.now = s.pkg.ftc.now + s.pkg.ftc.slewed.2 ∧ (s.pkg.ftc.slewing = 0 → s.pkg.ftc.slewed.2 = 1))))

/-- R136, R310, R322, R327, R410, R474, R481: what reset leaves: no command waits, the package is in cold reset and not READY, its FTC is
FREE at 0 with parent 7, no core has started a program, no job is entered and no ring enabled; and the state meets the invariant. -/
def Obligations.ResetLeaves : Prop :=
  let s := State.reset
  s.Inv ∧ s.pending = [] ∧ s.pkg.powered = false ∧ s.pkg.fld aReset fHS_RESET_STATUS_READY = 0 ∧
  s.pkg.ftc.now = 0 ∧ s.pkg.ftc.st = .free ∧ s.pkg.ftc.parent = 7 ∧
  (∀ k, (s.pkg.core k).seq.running = false ∧ (s.pkg.core k).startq = []) ∧
  (∀ k, k < 16 → s.pkg.fld (aJob k) fFAB_JOB_STATE = 0) ∧ (∀ r, (s.pkg.ring r).en = false) ∧
  s.pkg.cmds = [] ∧ s.mtr.sealed = true

/-- R361, R459, R462, R464: every step keeps the invariant: Milnik's counters stay as wide as its records give them and its stores as
large as they are, and no step ends with a line waited for whose snoop has not gone out. -/
def Obligations.InvariantKept : Prop :=
  ∀ (s s' : State), s.Inv → step s = .next s' → s'.Inv

/-- R467: no command but Milnik's own events changes Milnik, whatever the state of the package; and no state of the package alters what
those events do to it, but for the counts that a die's counting line carries. -/
def Obligations.MeterIsolated : Prop :=
  (∀ (c : Instr) (s s' : State), ofMilnik c = false → exec c s = .next s' → s'.mtr = s.mtr) ∧
  (∀ (s s' : State), s.pending = [] → step s = .next s' → s'.mtr = s.mtr) ∧
  (∀ (c : Instr) (s t : State) (p : Pkg), ofMilnik c = true → (∀ n f, c = .countingLine n f → p.present n = s.pkg.present n ∧
    (p.die n).line = (s.pkg.die n).line) → exec c s = .next t → ∃ u, exec c { s with pkg := p } = .next u ∧ u.mtr = t.mtr)
end

