-- ==== Sys2Proof/Laws/Table.lean ====
section
/-! SUPPORT. Sparse tables: what a write and a removal do to every key, and that each operation keeps the keys strictly rising. -/
namespace Sys2Proof.Machine

variable {α : Type}

theorem Tbl.find_set (t : Tbl α) (n m : Nat) (x : α) : (t.set n x).find m = if n = m then some x else t.find m := by
  induction t with
  | nil => simp [Tbl.set, Tbl.find]
  | cons e t ih =>
    obtain ⟨k, v⟩ := e
    simp only [Tbl.set]
    split
    · simp only [Tbl.find]
    · split
      · rename_i h; subst h; simp only [Tbl.find]; split <;> rfl
      · rename_i h1 h2
        simp only [Tbl.find, ih]
        by_cases hk : k = m
        · have : n ≠ m := by omega
          simp [hk, this]
        · simp [hk]

@[simp] theorem Tbl.find_set_self (t : Tbl α) (n : Nat) (x : α) : (t.set n x).find n = some x := by simp [Tbl.find_set]
theorem Tbl.find_set_ne (t : Tbl α) {n m : Nat} (x : α) (h : n ≠ m) : (t.set n x).find m = t.find m := by simp [Tbl.find_set, h]
@[simp] theorem Tbl.getD_set_self (t : Tbl α) (n : Nat) (x d : α) : (t.set n x).getD n d = x := by simp [Tbl.getD]
theorem Tbl.getD_set_ne (t : Tbl α) {n m : Nat} (x d : α) (h : n ≠ m) : (t.set n x).getD m d = t.getD m d := by
  simp [Tbl.getD, Tbl.find_set_ne t x h]
theorem Tbl.getD_set (t : Tbl α) (n m : Nat) (x d : α) : (t.set n x).getD m d = if n = m then x else t.getD m d := by
  simp only [Tbl.getD, Tbl.find_set]; split <;> rfl

/-- Every entry after a write is the written one or one that was there. -/
theorem Tbl.mem_set {t : Tbl α} {n : Nat} {x : α} {e : Nat × α} (h : e ∈ t.set n x) : e = (n, x) ∨ e ∈ t := by
  induction t with
  | nil => simpa [Tbl.set] using h
  | cons a t ih =>
    obtain ⟨k, v⟩ := a
    simp only [Tbl.set] at h
    split at h
    · simpa using h
    · split at h
      · simp only [List.mem_cons] at h ⊢; exact h.elim .inl (fun h => .inr (.inr h))
      · simp only [List.mem_cons] at h ⊢
        rcases h with h | h
        · exact .inr (.inl h)
        · exact (ih h).elim .inl (fun h => .inr (.inr h))

theorem Tbl.set_wf {t : Tbl α} (h : t.wf) (n : Nat) (x : α) : (t.set n x).wf := by
  induction t with
  | nil => simp [Tbl.set, Tbl.wf]
  | cons a t ih =>
    obtain ⟨k, v⟩ := a
    simp only [Tbl.wf, List.pairwise_cons] at h
    simp only [Tbl.set]
    split
    · rename_i hn
      simp only [Tbl.wf, List.pairwise_cons]
      refine ⟨?_, h.1, h.2⟩
      intro e he
      rcases List.mem_cons.1 he with he | he
      · subst he; exact hn
      · have h1 : k < e.1 := h.1 e he
        show n < e.1
        omega
    · split
      · rename_i hn; subst hn; simp only [Tbl.wf, List.pairwise_cons]; exact ⟨h.1, h.2⟩
      · rename_i h1 h2
        simp only [Tbl.wf, List.pairwise_cons]
        refine ⟨?_, ih h.2⟩
        intro e he
        rcases Tbl.mem_set he with he | he
        · subst he; show k < n; omega
        · exact h.1 e he

theorem Tbl.upd_wf {t : Tbl α} (h : t.wf) (n : Nat) (d : α) (f : α → α) : (t.upd n d f).wf := Tbl.set_wf h _ _

theorem Tbl.setRun_wf {t : Tbl α} (h : t.wf) (n : Nat) (l : List α) : (Tbl.setRun t n l).wf := by
  induction l generalizing t n with
  | nil => exact h
  | cons x l ih => exact ih (Tbl.set_wf h n x) (n + 1)

theorem Tbl.delRange_wf {t : Tbl α} (h : t.wf) (lo hi : Nat) : (t.delRange lo hi).wf := List.Pairwise.filter _ h

theorem Tbl.del_sublist (t : Tbl α) (n : Nat) : (t.del n).Sublist t := by
  induction t with
  | nil => exact .slnil
  | cons a t ih =>
    obtain ⟨k, v⟩ := a
    simp only [Tbl.del]
    split
    · exact List.sublist_cons_self _ _
    · exact ih.cons_cons _

theorem Tbl.del_wf {t : Tbl α} (h : t.wf) (n : Nat) : (t.del n).wf := List.Pairwise.sublist (Tbl.del_sublist t n) h

/-- What a run of writes does to a key. -/
theorem Tbl.find_setRun (t : Tbl α) (n m : Nat) (l : List α) :
    (Tbl.setRun t n l).find m = if n ≤ m ∧ m < n + l.length then l[m - n]? else t.find m := by
  induction l generalizing t n with
  | nil =>
    have : ¬ (n ≤ m ∧ m < n + 0) := by omega
    simp only [Tbl.setRun, List.length_nil, this, if_false]
  | cons x l ih =>
    simp only [Tbl.setRun, ih, Tbl.find_set, List.length_cons]
    by_cases h1 : n = m
    · subst h1
      rw [if_neg (by omega)]; simp
    · simp only [h1, if_false]
      by_cases h2 : n + 1 ≤ m ∧ m < n + 1 + l.length
      · have h3 : n ≤ m ∧ m < n + (l.length + 1) := by omega
        obtain ⟨k, hk⟩ : ∃ k, m - n = k + 1 := ⟨m - n - 1, by omega⟩
        simp only [h2, h3, and_self, if_true, hk, List.getElem?_cons_succ]
        congr 1; omega
      · have h3 : ¬ (n ≤ m ∧ m < n + (l.length + 1)) := by omega
        simp only [h2, h3, if_false]

end Sys2Proof.Machine
end

