-- ==== Sys2Proof/Laws/Memory.lean ====
section
/-! SUPPORT. Byte memories: the canonical form, kept by every memory operation, and a read after a write. -/
namespace Sys2Proof.Machine

/-- The canonical form of a memory (log 7): the addresses written strictly rise. -/
abbrev Mem.wf (m : Mem) : Prop := m.cells.wf

theorem Mem.empty_wf (seed : Nat) : (Mem.empty seed).wf := List.Pairwise.nil
theorem Mem.write_wf {m : Mem} (h : m.wf) (a : Nat) (bs : List Byte) : (m.write a bs).wf := Tbl.setRun_wf h a bs
theorem Mem.scramble_wf {m : Mem} (h : m.wf) (lo hi seed : Nat) : (m.scramble lo hi seed).wf := Tbl.delRange_wf h lo hi

/-- R9, R29: after a write, its bytes read as written and every other byte as before. -/
theorem Mem.read_write (m : Mem) (a b : Nat) (bs : List Byte) :
    (m.write a bs).read b = if h : a ≤ b ∧ b < a + bs.length then bs[b - a]'(by omega) else m.read b := by
  simp only [Mem.read, Mem.write, Tbl.find_setRun]
  by_cases h : a ≤ b ∧ b < a + bs.length
  · have hl : b - a < bs.length := by omega
    simp [h, hl]
  · simp only [h, if_false, dite_false]; rfl

/-- The bytes just written read back. -/
theorem Mem.readN_write (m : Mem) (a : Nat) (bs : List Byte) : (m.write a bs).readN a bs.length = bs := by
  have key : ∀ (n k : Nat), k + n = bs.length → (m.write a bs).readN (a + k) n = bs.drop k := by
    intro n
    induction n with
    | zero => intro k hk; simp only [Mem.readN]; rw [List.drop_of_length_le (by omega)]
    | succ n ih =>
      intro k hk
      have hl : k < bs.length := by omega
      simp only [Mem.readN, Mem.read_write]
      rw [dif_pos (by omega), show a + k + 1 = a + (k + 1) from by omega, ih (k + 1) (by omega), List.drop_eq_getElem_cons hl]
      simp
  simpa using key bs.length 0 (by omega)

end Sys2Proof.Machine
end

