-- ==== Sys2Proof/Laws/State.lean ====
section
/-! SUPPORT. What the shared operations over the package leave as it is, said once: counting (R420, R422), the act of a core, what a
command leaves to be done at once; and the outcome of a slot that issues. -/
namespace Sys2Proof.Machine

/-! Cores. -/
@[simp] theorem Pkg.core_setCore_self (p : Pkg) (k : Nat) (c : Core) : (p.setCore k c).core k = c := by
  simp [Pkg.core, Pkg.setCore]
theorem Pkg.core_setCore_ne (p : Pkg) {k j : Nat} (c : Core) (h : j ≠ k) : (p.setCore k c).core j = p.core j := by
  simp [Pkg.core, Pkg.setCore, Tbl.getD_set_ne _ _ _ (Ne.symm h)]

theorem Tbl.mem_of_find {α : Type} {t : Tbl α} {n : Nat} {x : α} (h : t.find n = some x) : (n, x) ∈ t := by
  induction t with
  | nil => cases h
  | cons a t ih =>
    obtain ⟨k, v⟩ := a
    simp only [Tbl.find] at h
    split at h
    · rename_i hk; subst hk; cases h; exact List.mem_cons_self
    · exact List.mem_cons_of_mem _ (ih h)

/-- A core of a quiet package has no error that is not handled. -/
theorem Pkg.Quiet.core_ue {p : Pkg} (h : p.Quiet) (k : Nat) : (p.core k).ue = false := by
  unfold Pkg.core Tbl.getD
  cases hf : p.cores.find k with
  | none => rfl
  | some c => exact h.2.2.2.1 _ (Tbl.mem_of_find hf)

/-! Dies. -/
theorem Pkg.die_updDie (p : Pkg) (n m : Nat) (f : Die → Die) : (p.updDie n f).die m = if n = m then f (p.die n) else p.die m := by
  simp only [Pkg.die, Pkg.updDie, Tbl.getD_set]

/-- What counting leaves: everything but the counters of dies. -/
def Pkg.CountFrame (p q : Pkg) : Prop :=
  (∃ t, q = { p with dies := t }) ∧
  ∀ n, ∃ a b c, q.die n = { p.die n with cnt := a, fcnt := b, line := c }

theorem Pkg.CountFrame.same {p : Pkg} : p.CountFrame p := ⟨⟨p.dies, rfl⟩, fun n => ⟨(p.die n).cnt, (p.die n).fcnt, (p.die n).line, rfl⟩⟩
theorem Pkg.CountFrame.trans {p q r : Pkg} (h : p.CountFrame q) (k : q.CountFrame r) : p.CountFrame r := by
  obtain ⟨⟨t, rfl⟩, h⟩ := h
  obtain ⟨⟨u, rfl⟩, k⟩ := k
  refine ⟨⟨u, rfl⟩, fun n => ?_⟩
  obtain ⟨a, b, c, hn⟩ := h n
  obtain ⟨a', b', c', kn⟩ := k n
  exact ⟨a', b', c', by rw [kn, hn]⟩

theorem Pkg.updDie_count (p : Pkg) (n : Nat) (f : Die → Die) (hf : ∀ d, ∃ a b c, f d = { d with cnt := a, fcnt := b, line := c }) :
    p.CountFrame (p.updDie n f) := by
  refine ⟨⟨_, rfl⟩, fun m => ?_⟩
  rw [Pkg.die_updDie]
  split
  · rename_i h; subst h; exact hf _
  · exact ⟨(p.die m).cnt, (p.die m).fcnt, (p.die m).line, rfl⟩

theorem Pkg.countSets_frame (p : Pkg) (n i k : Nat) (ids : Ids) : p.CountFrame (p.countSets n i k ids) :=
  p.updDie_count n _ (fun d => ⟨d.cnt, _, d.line, rfl⟩)

theorem Pkg.countDie_frame (p : Pkg) (n i k : Nat) (ids : Ids) : p.CountFrame (p.countDie n i k ids) :=
  (p.updDie_count n _ (fun d => ⟨_, d.fcnt, d.line, rfl⟩)).trans (Pkg.countSets_frame _ _ _ _ _)

theorem foldl_countFrame {α : Type} (f : Pkg → α → Pkg) (hf : ∀ (p : Pkg) (x : α), p.CountFrame (f p x)) (l : List α) (p : Pkg) :
    p.CountFrame (l.foldl f p) := by
  induction l generalizing p with
  | nil => exact .same
  | cons x l ih => exact (hf p x).trans (ih _)

theorem Pkg.gained_frame (p : Pkg) (n : Nat) (old new : Core) : p.CountFrame (p.gained n old new) := by
  apply foldl_countFrame
  intro p e
  dsimp only
  split
  · exact .same
  · split
    · exact (p.countSets_frame _ _ _ _).trans (Pkg.updDie_count _ _ _ (fun d => ⟨d.cnt, d.fcnt, _, rfl⟩))
    · exact p.countSets_frame _ _ _ _

/-! The act of a core. -/
@[simp] theorem Pkg.core_onKey_self (p : Pkg) (k : Nat) (f : Core → Core) : (p.onKey k f).core k = f (p.core k) := by
  obtain ⟨⟨t, h⟩, -⟩ := (p.setCore k (f (p.core k))).gained_frame (k / 72) (p.core k) (f (p.core k))
  rw [Pkg.onKey, h]
  exact p.core_setCore_self k _

theorem Pkg.core_onKey_ne (p : Pkg) {k j : Nat} (f : Core → Core) (hj : j ≠ k) : (p.onKey k f).core j = p.core j := by
  obtain ⟨⟨t, h⟩, -⟩ := (p.setCore k (f (p.core k))).gained_frame (k / 72) (p.core k) (f (p.core k))
  rw [Pkg.onKey, h]
  exact p.core_setCore_ne _ hj

/-- An act that raises nothing is the core's act and no more. -/
theorem Pkg.act_plain (p : Pkg) (key : Nat) (f : Core → Core) (hu : (f (p.core key)).ue = false)
    (ht : (f (p.core key)).seq.trap = (p.core key).seq.trap) (ha : (f (p.core key)).aborted = (p.core key).aborted) :
    p.act key f = p.onKey key f := by
  simp only [Pkg.act, Pkg.core_onKey_self, hu, ht, ha]
  simp

/-! What a command leaves to be done at once. -/

/-- A package that differs from a quiet one in nothing that is left to be done at once is quiet. -/
theorem Pkg.Quiet.of_parts {p q : Pkg} (h : p.Quiet) (h1 : q.touched = p.touched) (h2 : q.used = p.used) (h3 : q.fw.evTrace = p.fw.evTrace)
    (h4 : ∀ e ∈ q.cores, e.2.ue = false) (h5 : q.posted = p.posted) (h6 : q.switchDue = p.switchDue) (h7 : q.cmds = p.cmds)
    (h8 : q.admitted = p.admitted) (h9 : q.fab.tx = p.fab.tx) : q.Quiet :=
  ⟨h1.trans h.1, h2.trans h.2.1, h3.trans h.2.2.1, h4, h5.trans h.2.2.2.2.1, h6.trans h.2.2.2.2.2.1, h7 ▸ h.2.2.2.2.2.2.1,
    h8.trans h.2.2.2.2.2.2.2.1, h9.trans h.2.2.2.2.2.2.2.2⟩

/-- The lists a command leaves for its end, where they are empty. -/
theorem Pkg.nothing_left (p : Pkg) (h2 : p.used = []) (h3 : p.fw.evTrace = []) (h8 : p.admitted = []) :
    ({ p with fw := { p.fw with evTrace := [] }, admitted := [], answered := p.answered.filter (fun l => !p.used.contains l), used := [] } : Pkg) = p := by
  obtain ⟨⟩ := p
  rename_i fw _ _ _ _
  obtain ⟨⟩ := fw
  simp only at h2 h3 h8
  subst h2
  subst h3
  subst h8
  simp

theorem Pkg.settle_quiet {p : Pkg} (h : p.Quiet) : p.settle = p := by
  obtain ⟨-, h2, h3, h4, h5, h6, h7, h8, h9⟩ := h
  have hc : p.cores.filter (fun e => e.2.ue) = [] := by
    rw [List.filter_eq_nil_iff]
    intro e he
    simp [h4 e he]
  have ha : p.cmds.filter (fun e => e.2.abortDue && e.2.fin ≠ none) = [] := by
    rw [List.filter_eq_nil_iff]
    intro e he
    rw [h7 e he]
    exact Bool.false_ne_true
  have hs : p.switchNow.abortsDue = p := by
    rw [Pkg.switchNow, h6, if_neg Bool.false_ne_true, Pkg.abortsDue, ha]; rfl
  have he : ({ p with fw := { p.fw with evTrace := [] }, admitted := [], answered := p.answered.filter (fun l => !p.used.contains l), used := [] } : Pkg) = p :=
    p.nothing_left h2 h3 h8
  have hl : Pkg.landPosted p.posted.length p = p := by rw [h5]; rfl
  unfold Pkg.settle
  simp only [hs, hl, hc, List.foldl_nil]
  rw [h3, List.foldl_nil, he, Pkg.fillFlits, h9]
  rfl

theorem State.put_quiet (s : State) (c : Instr) {p : Pkg} (h : p.Quiet) : s.put c p = .next { s with pkg := p } := by
  unfold State.put
  rw [Pkg.settle_quiet h]
  simp only [h.1]

/-- R361: what a command comes to, whatever it leaves to be done at once. -/
theorem State.put_afterwards (s : State) (c : Instr) (p : Pkg) : s.put c p = .next (s.afterwards c p) := by
  unfold State.put State.afterwards
  cases h : p.settle.touched <;> simp [h]

/-! Slots. -/
theorem Pkg.issuing_of_site {p : Pkg} {t : Site} {key : Nat} (h : p.site t = some key) : (p.core key).issuing = true := by
  unfold Pkg.site at h
  cases hp : p.phys t.die t.core with
  | none => simp [hp] at h
  | some k =>
    simp only [hp] at h
    by_cases hi : (p.core k).issuing = true
    · have hk : k = key := by
        simp only [hi, Bool.true_and] at h
        revert h
        generalize (_ && _ : Bool) = b
        cases b <;> simp
      exact hk ▸ hi
    · simp [hi] at h

/-- R136, R137: writes that land change registers and nothing else. -/
theorem Core.land_frame (c : Core) (d : Dest) : ∃ x y z, c.land d = { c with s := x, v := y, sk := z } := by
  cases d with
  | s n v =>
    by_cases h : n = 0
    · exact ⟨c.s, c.v, c.sk, by simp [Core.land, h]⟩
    · exact ⟨_, c.v, c.sk, by simp only [Core.land, h, if_false]; rfl⟩
  | v n lo l => exact ⟨c.s, _, c.sk, rfl⟩
  | sk n k => exact ⟨c.s, c.v, _, rfl⟩

theorem Core.landDue_frame (b : Nat) (ws : List RegWrite) (c : Core) :
    ∃ x y z w, Core.landDue b ws c = { c with s := x, v := y, sk := z, pend := w } := by
  induction ws generalizing c with
  | nil => exact ⟨c.s, c.v, c.sk, [], rfl⟩
  | cons w ws ih =>
    simp only [Core.landDue]
    split
    · obtain ⟨x, y, z, h⟩ := c.land_frame w.dest
      obtain ⟨x', y', z', w', k⟩ := ih (c.land w.dest)
      exact ⟨x', y', z', w', by rw [k, h]⟩
    · exact ⟨c.s, c.v, c.sk, _, rfl⟩

/-- R135: beats that pass change registers, times and counters. -/
theorem Core.advance_frame (c : Core) (n : Nat) : ∃ x y z w k, c.advance n =
    { c with beat := c.beat + n, half := c.half + 2 * n, windowBeats := c.windowBeats + n, cids := c.seq.ids,
             s := x, v := y, sk := z, pend := w, cnt := k } := by
  simp only [Core.advance, Core.count]
  obtain ⟨x, y, z, w, h⟩ := Core.landDue_frame (c.beat + n) c.pend
    { c with beat := c.beat + n, half := c.half + 2 * n, windowBeats := c.windowBeats + n, cids := c.seq.ids }
  rw [h]
  exact ⟨x, y, z, w, _, rfl⟩

/-- R141: the end of a word raises nothing by itself. -/
theorem Core.fin_raises (c : Core) (l : Option WordEnd) :
    (c.fin l).ue = c.ue ∧ (c.fin l).seq.trap = c.seq.trap ∧ (c.fin l).aborted = c.aborted := by
  cases l with
  | none => exact ⟨rfl, rfl, rfl⟩
  | some w =>
    simp only [Core.fin, Core.closeWord]
    generalize hsq : (if w.fin = true then _ else _ : Seq) = sq
    have ht : sq.trap = c.seq.trap := by
      subst hsq
      split
      · rfl
      · split <;> rfl
    obtain ⟨x, y, z, u, k, h⟩ := Core.advance_frame { c with seq := sq } (wordBeats w c.seq.turn)
    rw [h]
    exact ⟨rfl, ht, rfl⟩

/-- A slot that issues and raises nothing: what it leaves, and what it leaves alone. -/
theorem State.slot_issues {s : State} {i : Instr} {t : Site} {key : Nat} {q : Core} (hq : s.pkg.Quiet) (hs : s.pkg.site t = some key)
    (he : ∃ f, exec i s = s.slot i t f ∧ f (s.pkg.core key) = .go q)
    (hue : q.ue = (s.pkg.core key).ue) (htq : q.seq.trap = (s.pkg.core key).seq.trap)
    (hab : q.aborted = (s.pkg.core key).aborted) : Issues i s t key q := by
  obtain ⟨f, he, hf⟩ := he
  have hu : (q.fin t.last).ue = false := (q.fin_raises t.last).1.trans (hue.trans (hq.core_ue key))
  have ha : (q.fin t.last).aborted = (s.pkg.core key).aborted := (q.fin_raises t.last).2.2.trans hab
  have hi := Pkg.issuing_of_site hs
  have htr : (s.pkg.core key).seq.trap = .none := by
    simp only [Core.issuing, Bool.and_eq_true, decide_eq_true_eq] at hi
    exact hi.1.1.2
  have ht : (q.fin t.last).seq.trap = .none := (q.fin_raises t.last).2.1.trans (htq.trans htr)
  obtain ⟨⟨ds, hg⟩, hd⟩ := (s.pkg.setCore key (q.fin t.last)).gained_frame (key / 72) (s.pkg.core key) (q.fin t.last)
  have hact : s.pkg.act key (fun _ => q.fin t.last) = { s.pkg.setCore key (q.fin t.last) with dies := ds } := by
    rw [Pkg.act_plain _ _ _ hu (ht.trans htr.symm) ha, Pkg.onKey, hg]
  have hgo : ∃ w : Tbl Nat,
      s.pkg.slotGo key t (fun _ => q) = { { s.pkg.setCore key (q.fin t.last) with dies := ds } with fw := { s.pkg.fw with jobFtc := w } } := by
    simp only [Pkg.slotGo, hact]
    cases t.last.isSome
    · exact ⟨s.pkg.fw.jobFtc, rfl⟩
    · simp only [if_true, Pkg.progress]
      exact ⟨_, rfl⟩
  obtain ⟨w, hgo⟩ := hgo
  have hquiet : (s.pkg.slotGo key t (fun _ => q)).Quiet := by
    rw [hgo]
    refine hq.of_parts rfl rfl rfl ?_ rfl rfl rfl rfl rfl
    intro e hm
    rcases Tbl.mem_set hm with rfl | hm
    · exact hu
    · exact hq.2.2.2.1 e hm
  refine ⟨s.pkg.slotGo key t (fun _ => q), ?_, ?_, ?_⟩
  · unfold Runs
    rw [he]
    unfold State.slot
    rw [hs]
    dsimp only
    rw [hf]
    exact State.put_quiet s i hquiet
  · rw [hgo]; exact s.pkg.core_setCore_self key _
  · rw [hgo]
    refine ⟨fun k hk => s.pkg.core_setCore_ne _ hk, rfl, rfl, rfl, rfl, rfl, rfl, rfl, rfl,
      rfl, rfl, rfl, rfl, rfl, rfl, rfl, rfl, rfl, ⟨w, rfl⟩, ?_⟩
    intro n
    obtain ⟨a, b, c, hn⟩ := hd n
    rw [hg] at hn
    have : ({ { s.pkg.setCore key (q.fin t.last) with dies := ds } with fw := { s.pkg.fw with jobFtc := w } } : Pkg).die n =
        { s.pkg.die n with cnt := a, fcnt := b, line := c } := hn
    rw [this]
    exact ⟨rfl, rfl, rfl, rfl, rfl⟩

end Sys2Proof.Machine
end

