-- ==== Sys2Proof/Laws/Effects.lean ====
section
/-! SUPPORT. From the package that a command leaves to the command's outcome, for each way in which commands act; and the outcome of
an event on a core. -/
namespace Sys2Proof.Machine

/-- A command of the package, under power. -/
theorem State.inPower_runsTo {s : State} {i : Instr} {f : Pkg → Pkg} {p : Pkg} (hp : s.pkg.powered = true)
    (he : exec i s = s.inPower i f) (hf : f s.pkg = p) : RunsTo i s p := by
  subst hf
  rw [RunsTo, he, State.inPower, if_pos hp]
  exact State.put_afterwards s i _

theorem State.inPower_runs {s : State} {i : Instr} {f : Pkg → Pkg} {p : Pkg} (hp : s.pkg.powered = true)
    (he : exec i s = s.inPower i f) (hf : f s.pkg = p) (hq : p.Quiet) : Runs i s p := by
  subst hf
  rw [Runs, he, State.inPower, if_pos hp]
  exact State.put_quiet s i hq

/-- An event of the board. -/
theorem State.always_runsTo {s : State} {i : Instr} {f : Pkg → Pkg} {p : Pkg} (he : exec i s = s.always i f) (hf : f s.pkg = p) :
    RunsTo i s p := by
  subst hf
  rw [RunsTo, he, State.always]
  exact State.put_afterwards s i _

/-- An act of firmware. -/
theorem State.byFirmware_runsTo {s : State} {i : Instr} {f : Pkg → Pkg} {p : Pkg} (hp : s.pkg.powered = true) (hv : s.pkg.served = true)
    (he : exec i s = s.byFirmware i f) (hf : f s.pkg = p) : RunsTo i s p := by
  subst hf
  rw [RunsTo, he, State.byFirmware, hp, hv]
  exact State.put_afterwards s i _

/-- A request in its turn. -/
theorem State.request_runsTo {s : State} {i : Instr} {ch : Chan} {f : Pkg → Pkg} {p : Pkg} (hp : s.pkg.powered = true)
    (ht : s.turn ch = true) (he : exec i s = s.request i ch f) (hf : f s.pkg = p) : RunsTo i s p := by
  apply State.inPower_runsTo hp _ hf
  rw [he, State.request, ht]
  simp

/-- A slot that issues, whatever it raises. -/
theorem State.slot_runsTo {s : State} {i : Instr} {t : Site} {key : Nat} {q : Core} {p : Pkg} (hs : s.pkg.site t = some key)
    (he : ∃ f, exec i s = s.slot i t f ∧ f (s.pkg.core key) = .go q) (hp : s.pkg.slotGo key t (fun _ => q) = p) : RunsTo i s p := by
  obtain ⟨f, he, hf⟩ := he
  subst hp
  rw [RunsTo, he, State.slot, hs]
  simp only [hf]
  exact State.put_afterwards s i _

/-- A slot's operation that holds its word. -/
theorem State.slot_held {s : State} {i : Instr} {t : Site} {key b : Nat} (hs : s.pkg.site t = some key)
    (he : ∃ f, exec i s = s.slot i t f ∧ f (s.pkg.core key) = .held b) :
    exec i s = .next { s with pkg := s.pkg.onKey key (fun q => q.hold b) } := by
  obtain ⟨f, he, hf⟩ := he
  rw [he, State.slot, hs]
  simp only [hf]

/-- A slot's operation that is a program error. -/
theorem State.slot_bad {s : State} {i : Instr} {t : Site} {key : Nat} (hs : s.pkg.site t = some key)
    (he : ∃ f, exec i s = s.slot i t f ∧ f (s.pkg.core key) = .bad) : exec i s = .fault .programError := by
  obtain ⟨f, he, hf⟩ := he
  rw [he, State.slot, hs]
  simp only [hf]

/-- What the act of a core leaves alone. -/
theorem Pkg.onKey_frame (p : Pkg) (key : Nat) (f : Core → Core) : p.SlotFrame (p.onKey key f) key ∧
    ∃ ds, p.onKey key f = { p.setCore key (f (p.core key)) with dies := ds } := by
  obtain ⟨⟨ds, hg⟩, hd⟩ := (p.setCore key (f (p.core key))).gained_frame (key / 72) (p.core key) (f (p.core key))
  rw [hg] at hd
  have he : p.onKey key f = { p.setCore key (f (p.core key)) with dies := ds } := by rw [Pkg.onKey, hg]
  refine ⟨?_, ds, he⟩
  rw [he]
  refine ⟨fun k hk => p.core_setCore_ne _ hk, rfl, rfl, rfl, rfl, rfl, rfl, rfl, rfl, rfl, rfl, rfl, rfl, rfl, rfl, rfl, rfl, rfl, ⟨p.fw.jobFtc, rfl⟩, ?_⟩
  intro n
  obtain ⟨a, b, c, hn⟩ := hd n
  have : ({ p.setCore key (f (p.core key)) with dies := ds } : Pkg).die n = { p.die n with cnt := a, fcnt := b, line := c } := hn
  rw [this]
  exact ⟨rfl, rfl, rfl, rfl, rfl⟩

theorem Pkg.onKey_quiet {p : Pkg} (hq : p.Quiet) (key : Nat) (f : Core → Core) (hu : (f (p.core key)).ue = false) :
    (p.onKey key f).Quiet := by
  obtain ⟨-, ds, he⟩ := p.onKey_frame key f
  rw [he]
  refine hq.of_parts rfl rfl rfl ?_ rfl rfl rfl rfl rfl
  intro e hm
  rcases Tbl.mem_set hm with rfl | hm
  · exact hu
  · exact hq.2.2.2.1 e hm

/-- An event on a core that raises nothing. -/
theorem State.core_acts {s : State} {i : Instr} {g : Pkg → Pkg} {f : Core → Core} {n lc key : Nat} {c : Core}
    (hp : s.pkg.powered = true) (hq : s.pkg.Quiet) (hk : s.pkg.phys n lc = some key) (hw : (s.pkg.core key).pwr = .awake)
    (ht : s.pkg.fw.tests.find key = none) (he : exec i s = s.inPower i g) (hg : g s.pkg = s.pkg.onCore n lc f)
    (hf : f (s.pkg.core key) = c) (hu : c.ue = (s.pkg.core key).ue) (hr : c.seq.trap = (s.pkg.core key).seq.trap)
    (ha : c.aborted = (s.pkg.core key).aborted) : ActsOn i s key c := by
  subst hf
  have hu' : (f (s.pkg.core key)).ue = false := hu.trans (hq.core_ue key)
  refine ⟨s.pkg.onKey key f, ?_, s.pkg.core_onKey_self key f, (s.pkg.onKey_frame key f).1⟩
  apply State.inPower_runs hp he _ (Pkg.onKey_quiet hq key f hu')
  rw [hg, Pkg.onCore, hk]
  simp only [hw, ht]
  exact s.pkg.act_plain key f hu' hr ha

end Sys2Proof.Machine
end

