-- ==== Sys2Proof/Laws/Commands.lean ====
section
/-! SUPPORT. Frames that arrive (R302, R307, R328), and register writes at the arbiter (R454). -/
namespace Sys2Proof.Machine

/-- R310: a frame that a hop delivers is for this package. -/
theorem nextHop_here {p : Pkg} {f : Frame} {i? : Option Nat} (h : p.nextHop f i? = .ok none) : f.dst = p.coord := by
  unfold Pkg.nextHop at h
  by_cases hd : f.dst = p.coord
  · exact hd
  · exfalso
    simp only [hd, if_false] at h
    repeat' split at h
    all_goals cases h

/-- R305, R306: a frame on the wire stays in its input buffer, or leaves it at once. -/
theorem Pkg.fromWire_cases (p : Pkg) (port : Nat) (f : Frame) (act : Pkg → Pkg) :
    let q := p.countRx port (flowGroup f (p.tport port).upGroups) f
    let stuck := (∃ y ∈ q.fab.inbox, y.1 = port ∧ sameVc y.2 f = true) ∨ q.mayLeave port f = false
    (stuck → p.fromWire port f act = { q with fab := { q.fab with inbox := q.fab.inbox ++ [(port, f)] } }) ∧
    (¬ stuck → p.fromWire port f act = q.leaveInput port f act) := by
  intro q stuck
  have h : (q.fab.inbox.any (fun x => decide (x.1 = port) && sameVc x.2 f) || !q.mayLeave port f) = true ↔ stuck := by
    simp only [stuck, Bool.or_eq_true, List.any_eq_true, Bool.and_eq_true, decide_eq_true_eq, Bool.not_eq_true', Prod.exists]
  constructor
  · intro hs
    exact if_pos (h.mpr hs)
  · intro hs
    exact if_neg (fun k => hs (h.mp k))

/-- What a frame that leaves its input buffer comes to. -/
theorem Pkg.leaveInput_cases (q : Pkg) (i : Nat) (f : Frame) (act : Pkg → Pkg) :
    let ours := f.dst = q.coord ∧ q.jobAborted f.job = true
    let here := (q.freeUnits i f f.vc).fromGroup i f
    (ours → q.leaveInput i f act = (q.freeUnits i f f.vc).discard) ∧
    (¬ ours →
      (∀ j vc, q.nextHop f (some i) = .ok (some (j, vc)) → q.leaveInput i f act = q.output j ⟨i, f.vc, { f with vc := vc, hops := f.hops - 1 }⟩) ∧
      (∀ r, q.nextHop f (some i) = .error r → q.leaveInput i f act = (q.freeUnits i f f.vc).undelivered f r) ∧
      (q.nextHop f (some i) = .ok none →
        (here.fw.inReset = true → q.leaveInput i f act = here) ∧
        (here.fw.inReset = false → here.behind f = true → q.leaveInput i f act = here.enqueue f) ∧
        (here.fw.inReset = false → here.behind f = false → q.leaveInput i f act = here.accept f act))) := by
  intro ours here
  have hd : q.discards f = true ↔ ours := by simp only [Pkg.discards, Bool.and_eq_true, decide_eq_true_eq, ours]
  refine ⟨fun h => if_pos (hd.mpr h), fun h => ?_⟩
  have h' : ¬ q.discards f = true := fun k => h (hd.mp k)
  refine ⟨fun j vc hn => ?_, fun r hn => ?_, fun hn => ⟨fun h1 => ?_, fun h1 h2 => ?_, fun h1 h2 => ?_⟩⟩
  all_goals rw [Pkg.leaveInput, if_neg h', hn]
  · exact if_pos h1
  · exact (if_neg (by rw [h1]; exact Bool.false_ne_true)).trans (if_pos h2)
  · exact (if_neg (by rw [h1]; exact Bool.false_ne_true)).trans (if_neg (by rw [h2]; exact Bool.false_ne_true))

/-- What the arrival of a frame comes to. -/
theorem arrive_runs {s : State} {port : Nat} {f : Frame} {i : Instr} {ty : Nat} {act : Pkg → Pkg} (hp : s.pkg.powered = true)
    (he : exec i s = s.inPower i (fun p => p.arrive port f ty act)) (hty : f.ty = ty) :
    (5 ≤ port → RunsTo i s (s.pkg.leaveInput (port - 5) f act)) ∧
    (port < 4 → s.pkg.open' port = false → RunsTo i s s.pkg) ∧
    (port < 4 → s.pkg.open' port = true → RunsTo i s (s.pkg.fromWire port f act)) ∧
    (port = 4 → s.pkg.fw.inReset = true → RunsTo i s s.pkg) ∧
    (port = 4 → s.pkg.fw.inReset = false → RunsTo i s (s.pkg.accept f act)) := by
  refine ⟨fun h => ?_, fun h h1 => ?_, fun h h1 => ?_, fun h h1 => ?_, fun h h1 => ?_⟩
  all_goals refine State.inPower_runsTo hp he ?_
  all_goals rw [Pkg.arrive, if_neg (fun k => k hty)]
  · rw [if_neg (by omega), if_pos h]
  · rw [if_neg (by omega), if_neg (by omega), h1]; rfl
  · rw [if_neg (by omega), if_neg (by omega), h1]; rfl
  · rw [if_pos h, if_pos h1]
  · rw [if_pos h, h1]; rfl

/-- What a frame for another package comes to. -/
theorem forward_runs {s : State} {port : Nat} {f : Frame} (hp : s.pkg.powered = true) (hr : routed f.ty = true) :
    (5 ≤ port → RunsTo (.frameForward port f) s (s.pkg.leaveInput (port - 5) f (fun p => p.enqueue f))) ∧
    (port < 4 → s.pkg.open' port = false → RunsTo (.frameForward port f) s s.pkg) ∧
    (port < 4 → s.pkg.open' port = true → RunsTo (.frameForward port f) s (s.pkg.fromWire port f (fun p => p.enqueue f))) := by
  have he : exec (.frameForward port f) s = s.inPower (.frameForward port f) (fun p => p.frameForward port f) := rfl
  refine ⟨fun h => ?_, fun h h1 => ?_, fun h h1 => ?_⟩
  all_goals refine State.inPower_runsTo hp he ?_
  all_goals rw [Pkg.frameForward, hr, Bool.not_true, Bool.false_or, decide_eq_false (by omega), if_neg Bool.false_ne_true]
  · rw [if_pos h]
  · rw [if_neg (by omega), h1]; rfl
  · rw [if_neg (by omega), h1]; rfl

/-- R453: KIND of a write. -/
theorem isCommit_kind (w : HeldWrite) :
    (if (isCommit w.off w.value || decide (w.size = 8) && isCommit (w.off + 4) (w.value / 2 ^ 32)) = true then 2 else 1) =
      (if (0x200 ≤ w.off ∧ w.off < 0x240 ∧ w.value % 2 = 1) ∨
          (w.size = 8 ∧ 0x200 ≤ w.off + 4 ∧ w.off + 4 < 0x240 ∧ w.value / 2 ^ 32 % 2 = 1) then 2 else 1) := by
  simp only [isCommit, Bool.or_eq_true, Bool.and_eq_true, decide_eq_true_eq, and_assoc]

/-- R454: a write is held, or the journal gets its entry and it takes effect. -/
theorem Pkg.arbiter_cases (p : Pkg) (w : HeldWrite) (hsz : w.size = 4 ∨ w.size = 8) (hv : w.value < 2 ^ (8 * w.size)) (hr : w.reply = none) :
    ((decide (65536 ≤ p.fw.jbuf.length) || !p.fw.jwait.isEmpty || !p.fw.jheld.isEmpty) = true → p.arbiter w = { p with fw := { p.fw with jheld := p.fw.jheld ++ [w] } }) ∧
    ((decide (65536 ≤ p.fw.jbuf.length) || !p.fw.jwait.isEmpty || !p.fw.jheld.isEmpty) = false →
        let kind := if (0x200 ≤ w.off ∧ w.off < 0x240 ∧ w.value % 2 = 1) ∨
          (w.size = 8 ∧ 0x200 ≤ w.off + 4 ∧ w.off + 4 < 0x240 ∧ w.value / 2 ^ 32 % 2 = 1) then 2 else 1
        let store := persists w.off || (w.size = 8 && persists (w.off + 4))
        p.arbiter w = (p.jput kind w.origin.code w.size store w.off w.value).takeWrite w.off (w.size = 8) w.value) := by
  refine ⟨?_, ?_⟩
  · intro h
    simp only [Pkg.arbiter, h, if_true]
  · intro h
    have hm : w.value % (if w.size = 8 then 2 ^ 64 else 2 ^ 32) = w.value := by
      rcases hsz with h | h <;> rw [h] at hv ⊢ <;> simp <;> omega
    simp only [Pkg.arbiter, h, hr, isCommit_kind, hm, Bool.false_eq_true, if_false]

/-- A command that writes a register. -/
theorem access_runs {s : State} {i : Instr} {o : Origin} {off v : Nat} {size : Nat} (hp : s.pkg.powered = true) (w : HeldWrite)
    (he : exec i s = s.inPower i (fun p => p.access off size v o))
    (hs : (if size = 8 then 8 else 4) = w.size) (ho : off / w.size * w.size = w.off) (hv : v % 2 ^ (8 * w.size) = w.value) (hw : o = w.origin)
    (hr : w.reply = none) :
      (s.pkg.mayReach o = true → ((decide (65536 ≤ s.pkg.fw.jbuf.length)) || !s.pkg.fw.jwait.isEmpty || !s.pkg.fw.jheld.isEmpty) = true →
        RunsTo i s { s.pkg with fw := { s.pkg.fw with jheld := s.pkg.fw.jheld ++ [w] } }) ∧
      (s.pkg.mayReach o = true → ((decide (65536 ≤ s.pkg.fw.jbuf.length)) || !s.pkg.fw.jwait.isEmpty || !s.pkg.fw.jheld.isEmpty) = false →
        let kind := if (0x200 ≤ w.off ∧ w.off < 0x240 ∧ w.value % 2 = 1) ∨
          (w.size = 8 ∧ 0x200 ≤ w.off + 4 ∧ w.off + 4 < 0x240 ∧ w.value / 2 ^ 32 % 2 = 1) then 2 else 1
        let store := persists w.off || (w.size = 8 && persists (w.off + 4))
        RunsTo i s ((s.pkg.jput kind o.code w.size store w.off w.value).takeWrite w.off (w.size = 8) w.value)) ∧
      (s.pkg.mayReach o = false → RunsTo i s s.pkg) := by
  subst hw
  have hsz : w.size = 4 ∨ w.size = 8 := by rw [← hs]; by_cases h : size = 8 <;> simp [h]
  have hv' : w.value < 2 ^ (8 * w.size) := by rw [← hv]; exact Nat.mod_lt _ (Nat.two_pow_pos _)
  obtain ⟨w1, w2, w3, w4, w5⟩ := w
  simp only at hs ho hv hr hsz hv' ⊢
  have hac : ∀ p : Pkg, p.access off size v w4 = if p.mayReach w4 then p.arbiter ⟨w1, w2, w3, w4, none⟩ else p := by
    intro p
    simp only [Pkg.access, hs, ho, hv]
  subst hr
  have hb := Pkg.arbiter_cases s.pkg ⟨w1, w2, w3, w4, none⟩ hsz hv' rfl
  refine ⟨?_, ?_, ?_⟩
  · intro h1 h2
    refine State.inPower_runsTo hp he ?_
    show s.pkg.access off size v w4 = _
    rw [hac, h1, if_pos rfl, hb.1 h2]
  · intro h1 h2
    refine State.inPower_runsTo hp he ?_
    show s.pkg.access off size v w4 = _
    rw [hac, h1, if_pos rfl, hb.2 h2]
  · intro h1
    refine State.inPower_runsTo hp he ?_
    show s.pkg.access off size v w4 = _
    rw [hac, h1]; rfl

end Sys2Proof.Machine
end

