-- ==== Sys2Proof/Laws/Core.lean ====
section
/-! SUPPORT. What the updates of a core leave as they are, and what landing a register write does (R137). -/
namespace Sys2Proof.Machine

theorem Core.countStrokes_raises (c : Core) (o : RunOp) (w : Nat) (i : Ids) (n : Nat) :
    (c.countStrokes o w i n).ue = c.ue ∧ (c.countStrokes o w i n).seq = c.seq ∧ (c.countStrokes o w i n).aborted = c.aborted := by
  simp only [Core.countStrokes]; split <;> exact ⟨rfl, rfl, rfl⟩

theorem Core.setBank_raises (c : Core) (n : Nat) (b : Bank) :
    (c.setBank n b).ue = c.ue ∧ (c.setBank n b).seq = c.seq ∧ (c.setBank n b).aborted = c.aborted := by
  simp only [Core.setBank]; split <;> exact ⟨rfl, rfl, rfl⟩

theorem Core.setLast_raises (c : Core) (n t : Nat) :
    (c.setLast n t).ue = c.ue ∧ (c.setLast n t).seq = c.seq ∧ (c.setLast n t).aborted = c.aborted := by
  simp only [Core.setLast]; split <;> exact ⟨rfl, rfl, rfl⟩

theorem Core.signal_raises (c : Core) (q : Option Nat) :
    (c.signal q).ue = c.ue ∧ (c.signal q).seq = c.seq ∧ (c.signal q).aborted = c.aborted := by
  simp only [Core.signal]; split <;> exact ⟨rfl, rfl, rfl⟩

theorem Core.setFills_raises (c : Core) (b : Bool) (l : List FillOp) : (c.setFills b l).ue = c.ue ∧ (c.setFills b l).seq = c.seq ∧ (c.setFills b l).aborted = c.aborted := by
  cases b <;> exact ⟨rfl, rfl, rfl⟩

theorem Core.setSlot_raises (c : Core) (b : Bool) (i : Nat) (x : Slot) : (c.setSlot b i x).ue = c.ue ∧ (c.setSlot b i x).seq = c.seq ∧ (c.setSlot b i x).aborted = c.aborted := by
  cases b <;> exact ⟨rfl, rfl, rfl⟩

theorem Core.setLast_eta (c : Core) (n t : Nat) : ∃ x y, c.setLast n t = { c with last0 := x, last1 := y } := by
  simp only [Core.setLast]; split <;> exact ⟨_, _, rfl⟩

theorem Core.setBank_eta (c : Core) (n : Nat) (b : Bank) : ∃ x y, c.setBank n b = { c with bank0 := x, bank1 := y } := by
  simp only [Core.setBank]; split <;> exact ⟨_, _, rfl⟩

theorem Core.setBank_queue (c : Core) (n : Nat) (b : Bank) : (c.setBank n b).queue = c.queue := by
  simp only [Core.setBank]; split <;> rfl

/-- R137: one write to an S register. -/
theorem Core.land_rdS (c : Core) (d : Dest) (r : Nat) : (c.land d).rdS r = match d with | .s k v => if k = r ∧ r ≠ 0 then v else c.rdS r | _ => c.rdS r := by
  cases d with
  | s n v =>
    simp only [Core.land, Core.rdS]
    by_cases hn : n = 0
    · subst hn; by_cases hr : r = 0 <;> simp [hr]; intro h; exact absurd h.symm hr
    · by_cases hr : r = 0
      · simp [hr]
      · simp only [hn, hr, if_false]
        rw [Tbl.getD_set]; simp [hr]
  | v n lo l => rfl
  | sk n k => rfl

/-- R137: one write to a key register. -/
theorem Core.land_rdSK (c : Core) (d : Dest) (r : Nat) : (c.land d).rdSK r = match d with | .sk k v => if k = r then v else c.rdSK r | _ => c.rdSK r := by
  cases d with
  | s n v => simp only [Core.land, Core.rdSK]; split <;> rfl
  | v n lo l => rfl
  | sk n k => simp only [Core.land, Core.rdSK]; rw [Tbl.getD_set]

theorem listSet_length {α : Type} (l : List α) (i : Nat) (x : α) : (listSet l i x).length = l.length := by
  induction l generalizing i with
  | nil => rfl
  | cons a l ih => cases i <;> simp [listSet, ih]

theorem listSet_getElem? {α : Type} (l : List α) (i j : Nat) (x : α) : (listSet l i x)[j]? = if i = j ∧ j < l.length then some x else l[j]? := by
  induction l generalizing i j with
  | nil => simp [listSet]
  | cons a l ih =>
    cases i with
    | zero => cases j <;> simp [listSet]
    | succ i => cases j <;> simp [listSet, ih]

theorem setLanes_length (old : List Word) (lo : Nat) (xs : List Word) : (setLanes old lo xs).length = old.length := by
  induction xs generalizing old lo with
  | nil => rfl
  | cons x xs ih => rw [setLanes, ih, listSet_length]

/-- R137: the lanes that a write names, and the others. -/
theorem setLanes_getElem? (old : List Word) (lo : Nat) (xs : List Word) (j : Nat) (hj : j < old.length) :
    (setLanes old lo xs)[j]? = (if lo ≤ j then xs[j - lo]? else none).or old[j]? := by
  induction xs generalizing old lo with
  | nil => simp [setLanes]
  | cons x xs ih =>
    rw [setLanes, ih _ _ (by rw [listSet_length]; exact hj), listSet_getElem?]
    by_cases h1 : lo = j
    · subst h1
      have : ¬ (lo + 1 ≤ lo) := by omega
      simp [this, hj]
    · by_cases h2 : lo ≤ j
      · have e : j - lo = (j - (lo + 1)) + 1 := by omega
        have h3 : lo + 1 ≤ j := by omega
        simp only [h1, h2, h3, if_true, if_false, false_and, e, List.getElem?_cons_succ]
      · have h3 : ¬ lo + 1 ≤ j := by omega
        simp [h1, h2, h3]

/-- A V register keeps its 64 lanes. -/
theorem Core.land_lanes (c : Core) (d : Dest) (h : ∀ k, (c.rdV k).length = 64) : ∀ k, ((c.land d).rdV k).length = 64 := by
  intro k
  cases d with
  | s n v => simp only [Core.land, Core.rdV]; split <;> exact h k
  | sk n v => exact h k
  | v n lo vs =>
    simp only [Core.land, Core.rdV, Tbl.getD_set]
    split
    · rw [setLanes_length]; exact h n
    · exact h k

/-- R137: one write, lane by lane. -/
theorem Core.land_lane (c : Core) (d : Dest) (r l : Nat) (h : ∀ k, (c.rdV k).length = 64) (hl : l < 64) :
    (c.land d).lane r l = ((match d with
        | .v k lo vs => if k = r ∧ lo ≤ l then vs[l - lo]? else none
        | _ => none) : Option Word).getD (c.lane r l) := by
  cases d with
  | s n v => simp only [Core.land, Core.lane, Core.rdV]; split <;> rfl
  | sk n v => rfl
  | v n lo vs =>
    simp only [Core.land, Core.lane]
    simp only [Core.rdV, Tbl.getD_set]
    by_cases hn : n = r
    · subst hn
      simp only [if_true, true_and]
      rw [List.getD_eq_getElem?_getD, setLanes_getElem? _ _ _ _ (by rw [show (c.v.getD n (List.replicate 64 0#32)).length = 64 from h n]; exact hl)]
      rw [List.getD_eq_getElem?_getD]
      generalize (if lo ≤ l then vs[l - lo]? else none) = o
      cases o <;> simp
    · simp [hn]

/-- R155: no body ends there. -/
theorem loopBack_none (ls : List LoopLevel) (p : Nat) (h : ∀ l ∈ ls, l.stop ≠ p) : loopBack ls p = (ls, p) := by
  cases ls with
  | nil => rfl
  | cons l ls => simp [loopBack, h l (List.mem_cons_self)]

end Sys2Proof.Machine
end

