-- ==== Sys2Proof/Laws/Package.lean ====
section
/-! SUPPORT. Single updates of the package: what reads after them, and what they leave. -/
namespace Sys2Proof.Machine

/-- R97. -/
theorem Pkg.takeKerf_core (p : Pkg) (key : Nat) : (p.takeKerf key).core key = (p.core key).applyKerf ((p.die (key / 72)).kerfFuse.getD (key % 72) 0)
   (p.fld (aKerfRt key) fCORE_KERF_RT_MASK) (p.groupsNeeded (key / 72)) (2 ^ 41 + p.free) := by
  simp only [Pkg.takeKerf, Pkg.core_setCore_self]; rfl

/-- A key names its die, and a physical core of it. -/
theorem Pkg.phys_key {p : Pkg} {n c key : Nat} (h : p.phys n c = some key) : key / 72 = n ∧ ∃ x, x < 72 ∧ key = coreKey n x := by
  unfold Pkg.phys at h
  split at h
  · obtain ⟨x, -, hx⟩ := Option.bind_eq_some_iff.mp h
    split at hx
    · rename_i hlt
      cases hx
      exact ⟨by rw [coreKey]; omega, x, hlt, rfl⟩
    · cases hx
  · cases h

/-- The first number that passes a test. -/
theorem range_find?_first (e m : Nat) (f : Nat → Bool) (h : ∀ j, j < e → f j = false) (he : f e = true) (hm : e < m) : (List.range m).find? f = some e := by
  rw [List.find?_range_eq_some]
  exact ⟨he, by simpa using hm, fun j hj => by simp [h j hj]⟩

theorem Pkg.tport_updPort (p : Pkg) (i : Nat) (f : Port → Port) : (p.updPort i f).tport i = f (p.tport i) := by
  simp [Pkg.tport, Pkg.updPort, Tbl.getD]

/-- R380. -/
theorem Pkg.interrupt_of (t : Pkg) (i : Nat) (w : Cq) (h : t.cq i = w) :
    t.interrupt i = Pkg.raiseVector { t with cqs := t.cqs.set i { w with uncovered := 0 } } w.vector := by
  subst h; rfl

/-- A field written reads back. -/
theorem bits_putFld (v : Word) (x : Nat) (f : Fld) (h : f.lo + f.w ≤ 32) : bits (putFld v f x) f.lo f.w = x % 2 ^ f.w := by
  simp only [bits, putFld, BitVec.toNat_ofNat, Nat.shiftRight_eq_div_pow]
  generalize v.toNat = n
  have hy : x % 2 ^ f.w < 2 ^ f.w := Nat.mod_lt _ (Nat.two_pow_pos _)
  generalize x % 2 ^ f.w = y at hy ⊢
  have hlo := Nat.two_pow_pos f.lo
  have hw := Nat.two_pow_pos f.w
  obtain ⟨d, hd⟩ : ∃ d, 32 = f.lo + (f.w + d) := ⟨32 - f.lo - f.w, by omega⟩
  rw [show (2 : Nat) ^ 32 = 2 ^ f.lo * (2 ^ f.w * 2 ^ d) by rw [← Nat.pow_add, ← Nat.pow_add, ← hd]]
  rw [Nat.mod_mul_right_div_self, Nat.mod_mul_right_mod]
  have : n - n / 2 ^ f.lo % 2 ^ f.w * 2 ^ f.lo = n / 2 ^ f.lo / 2 ^ f.w * 2 ^ f.w * 2 ^ f.lo + n % 2 ^ f.lo := by
    have e1 := Nat.div_add_mod n (2 ^ f.lo)
    have e2 := Nat.div_add_mod (n / 2 ^ f.lo) (2 ^ f.w)
    generalize n / 2 ^ f.lo = q at *
    generalize q / 2 ^ f.w = r at *
    generalize q % 2 ^ f.w = t at *
    generalize n % 2 ^ f.lo = u at *
    subst e2
    rw [← e1, Nat.mul_add, Nat.mul_comm t, Nat.mul_comm r, Nat.mul_comm (2 ^ f.w * r)]
    omega
  rw [this, Nat.add_right_comm, ← Nat.add_mul, Nat.add_comm (_ * _) (n % _), Nat.add_mul_div_right _ _ hlo,
    Nat.div_eq_of_lt (Nat.mod_lt _ hlo), Nat.zero_add, Nat.mul_comm, Nat.add_comm, Nat.add_mul_mod_self_left]
  exact Nat.mod_eq_of_lt hy

/-- A field of a stored register written reads back. -/
theorem Pkg.fld_setFld (p : Pkg) (a x : Nat) (f : Fld) (h : f.lo + f.w ≤ 32) : (p.setFld a f x).fld a f = x % 2 ^ f.w := by
  simp only [Pkg.fld, Pkg.setFld, Pkg.rd, Pkg.wr, Tbl.getD, Tbl.find_set_self, Option.getD_some]
  exact bits_putFld _ _ _ h

/-- R361: a snoop that goes out leaves no line waited for. -/
theorem Pkg.sendSnoop_touched (p : Pkg) (l : Nat) (b : Bool) : (p.sendSnoop l b).touched = p.touched := by
  unfold Pkg.sendSnoop; split <;> rfl

theorem Pkg.onKey_touched (p : Pkg) (k : Nat) (f : Core → Core) : (p.onKey k f).touched = p.touched := by
  obtain ⟨-, ds, he⟩ := p.onKey_frame k f
  rw [he]; rfl

/-- What is due at a tick needs no line that the host may hold. -/
theorem Pkg.atTick_touched (p : Pkg) (t : Nat) : (p.atTick t).touched = p.touched := by rw [Pkg.atTick]
theorem Pkg.count_touched (p : Pkg) : p.count.touched = p.touched := p.atTick_touched _

theorem iterate_touched (n : Nat) (p : Pkg) : (iterate Pkg.count n p).touched = p.touched := by
  induction n generalizing p with
  | zero => rfl
  | succ n ih => rw [iterate, ih]; exact p.count_touched

theorem Pkg.tick_touched (p : Pkg) : p.tick.touched = p.touched := iterate_touched _ _

end Sys2Proof.Machine
end

