-- ==== Sys2Proof/Laws/Steps.lean ====
section
/-! SUPPORT. What the ways in which commands act keep: Milnik (R467), and no line waited for (R361); and the invariant of Milnik under its events. -/
namespace Sys2Proof.Machine

/-- A next state has the same Milnik and no line waited for. -/
def Keep (s : State) (o : Host.Outcome State Fault Refusal) : Prop := ∀ s', o = .next s' → s'.mtr = s.mtr ∧ s'.pkg.touched = none

theorem keep_put {s : State} (h : s.pkg.touched = none) (c : Instr) (p : Pkg) : Keep s (s.put c p) := by
  intro s' he
  unfold State.put at he
  cases ht : p.settle.touched with
  | some x => simp only [ht] at he; cases he; exact ⟨rfl, (Pkg.sendSnoop_touched _ _ _).trans h⟩
  | none => simp only [ht] at he; cases he; exact ⟨rfl, ht⟩

theorem keep_always {s : State} (h : s.pkg.touched = none) (c : Instr) (f : Pkg → Pkg) : Keep s (s.always c f) := keep_put h c _

theorem keep_same {s : State} (h : s.pkg.touched = none) : Keep s (.next s) := by intro s' he; cases he; exact ⟨rfl, h⟩

theorem keep_inPower {s : State} (h : s.pkg.touched = none) (c : Instr) (f : Pkg → Pkg) : Keep s (s.inPower c f) := by
  unfold State.inPower; split
  · exact keep_put h c _
  · exact keep_same h

theorem keep_byFirmware {s : State} (h : s.pkg.touched = none) (c : Instr) (f : Pkg → Pkg) : Keep s (s.byFirmware c f) := by
  unfold State.byFirmware; split
  · exact keep_put h c _
  · exact keep_same h

theorem keep_request {s : State} (h : s.pkg.touched = none) (c : Instr) (ch : Chan) (f : Pkg → Pkg) : Keep s (s.request c ch f) := by
  unfold State.request; split
  · intro s' he; cases he; exact ⟨rfl, h⟩
  · exact keep_inPower h c _

theorem keep_pkg {s : State} {q : Pkg} (h : q.touched = none) : Keep s (.next { s with pkg := q }) := by
  intro s' he; cases he; exact ⟨rfl, h⟩

theorem keep_slot {s : State} (h : s.pkg.touched = none) (c : Instr) (t : Site) (f : Core → SlotOut) : Keep s (s.slot c t f) := by
  unfold State.slot; split
  · exact keep_same h
  · split
    · exact keep_put h c _
    · exact keep_pkg ((Pkg.onKey_touched _ _ _).trans h)
    · intro s' he; cases he

theorem keep_psig {s : State} (h : s.pkg.touched = none) (c : Instr) (t : Site) (a b d : Nat) : Keep s (s.psig c t a b d) := by
  unfold State.psig; split
  · exact keep_same h
  · split
    · exact keep_put h c _
    · intro s' he; cases he

theorem keep_answer {s : State} (h : s.pkg.touched = none) (f : Milnik → List Byte) : Keep s (s.answer f) := by
  unfold State.answer; split
  · intro s' he; cases he; exact ⟨rfl, h⟩
  · exact keep_same h

theorem Pkg.coreTurn_touched {p q : Pkg} {cs : List Instr} {k : Nat} (h : p.touched = none) (hc : p.coreTurn k = .go q cs) : q.touched = none := by
  rw [Pkg.coreTurn] at hc
  generalize p.coreNext k = y at hc
  cases y with
  | none => cases hc
  | stop => cases hc
  | go r ds =>
    simp only at hc
    cases ht : r.touched with
    | some x =>
      rw [ht] at hc
      simp only at hc
      split at hc
      · cases hc
      · cases hc; exact (Pkg.sendSnoop_touched _ _ _).trans h
    | none =>
      rw [ht] at hc
      cases hc; exact ht

theorem Pkg.coresNext_touched {p q : Pkg} {cs : List Instr} {ks : List Nat} (h : p.touched = none) (hc : p.coresNext ks = .go q cs) :
    q.touched = none := by
  induction ks with
  | nil => cases hc
  | cons k ks ih =>
    unfold Pkg.coresNext at hc
    split at hc
    · exact ih hc
    · exact Pkg.coreTurn_touched h hc

theorem rangeMap_wf (f : Nat → Nat) (n : Nat) : Tbl.wf ((List.range n).map (fun i => (i, f i))) := by
  rw [Tbl.wf, List.pairwise_map]
  exact List.pairwise_lt_range

theorem Milnik.close_inv {m : Milnik} (h : m.Inv) (ok : Bool) : (m.close ok).Inv := by
  unfold Milnik.close
  split
  · exact h
  · dsimp only
    refine ⟨h.energy, h.residue, h.ops, h.energyKeys, h.opsKeys, by show 0 < 1000; omega, ?_, ?_, ?_, h.boots, h.gen⟩
    · exact Nat.le_trans (List.length_take_le _ _) (Nat.le_refl _)
    · cases ok
      · exact h.flash
      · intro e he
        rcases Tbl.mem_set he with rfl | he
        · exact Nat.mod_lt _ (by decide)
        · exact h.flash e he
    · cases ok
      · exact h.flashKeys
      · exact Tbl.set_wf h.flashKeys _ _

theorem Milnik.refresh_inv {m : Milnik} (h : m.Inv) : m.refresh.Inv := by
  unfold Milnik.refresh
  split
  · exact h
  · refine ⟨h.energy, h.residue, h.ops, h.energyKeys, h.opsKeys, h.us, h.ram, h.flash, h.flashKeys, h.boots, ?_, ?_⟩
    · exact Nat.mod_lt _ (by decide)
    · have := h.gen.2; show (m.liveGen + 2) % 2 ^ 32 % 2 = 0; omega

theorem Milnik.powerLoss_inv {m : Milnik} (h : m.Inv) : m.powerLoss.Inv :=
  ⟨h.energy, h.residue, h.ops, h.energyKeys, h.opsKeys, h.us, h.ram, h.flash, h.flashKeys, h.boots, h.gen⟩

theorem Milnik.powerUp_inv {m : Milnik} (h : m.Inv) : m.powerUp.Inv := by
  unfold Milnik.powerUp
  split
  · exact h
  · refine ⟨?_, ?_, ?_, rangeMap_wf _ _, rangeMap_wf _ _, by show 0 < 1000; omega, by show 0 ≤ 64; omega, h.flash, h.flashKeys,
      Nat.mod_lt _ (by decide), h.gen⟩
    · intro e he
      obtain ⟨i, -, rfl⟩ := List.mem_map.mp he
      exact recordField_lt _ _ 8
    · intro e he; cases he
    · intro e he
      obtain ⟨i, -, rfl⟩ := List.mem_map.mp he
      exact recordField_lt _ _ 16

end Sys2Proof.Machine
end

