-- ==== Sys2Proof/WellFormed.lean ====
section
/-! DEFINITION. Well-formed commands: operands that the widths and ranges of the spec can express. What a command does with other
operands is its meaning's to say. -/
namespace Sys2Proof

open Sys2Proof.Machine

/-- R14, R134, R141, R142: a die and a logical core; the word that a slot closes. -/
def Machine.Site.wf (t : Site) : Bool :=
  t.die < 8 && t.core < 64 && (match t.last with | some w => 1 ≤ w.parcels && w.parcels ≤ 16 && w.idle < 256 | none => true)

/-- R152: the fields of an FBFILL. -/
def Machine.FillArg.wf (o : FillArg) : Bool :=
  o.slot < 2 && o.fmt < 13 && regOk o.areg && o.peg.all pegOk && o.stride % 16 = 0 && o.stride < 2 ^ 18 && o.start < 1024 && o.count < 2048

/-- R153. -/
def Machine.GthArg.wf (o : GthArg) : Bool := regOk o.areg && o.peg.all pegOk && wordOk o.off

/-- R157: a branch offset of 32 bits. -/
def offOk (x : Int) : Bool := -2 ^ 31 ≤ x && x < 2 ^ 31

/-- R302: the fields of a frame's header. -/
def Machine.Frame.wf (f : Frame) : Bool :=
  f.ty < 64 && f.bank < 4 && f.vc < 2 && f.dstDie < 8 && f.srcDie < 8 && f.dst < 2 ^ 14 && f.src < 2 ^ 14 && f.job < 2 ^ 16

/-- R10, R32: an access of 4 or 8 bytes within BAR0. -/
def Machine.RegWriteTo.wf : RegWriteTo → Bool
  | .bar off size v _ => (size = 4 || size = 8) && off % size = 0 && off < 2 ^ 26 && v < 2 ^ (8 * size)
  | .cfg .. => true
  | .base _ v => v < 2 ^ 64
  | .hdm k _ v => k < 4 && v < 2 ^ 64

/-- R440: a request over the management port or MCTP, with its TAG. -/
def mgtOk (c : Chan) (tag : Nat) : Bool := !(c = .doe) && wordOk tag

/-- R202: a resource of a tracker. -/
def Machine.Res.wf : Res → Bool
  | .bank false b => b < 8192
  | .bank true b => b < 1024
  | .chan false c => c < 128
  | .chan true c => c < 2
  | .tracker => true

/-- The operands of a command are well formed. -/
def Instr.wf : Instr → Bool
  | .pkgPwrok => true
  | .coldReset _ => true
  | .bringUp _ => true
  | .hostPortReset => true
  | .perstRelease speed width => speed < 3 && width < 17
  | .thermTrip => true
  | .clkLost _ => true
  | .vrAlert _ => true
  | .pmbusPoll _ => true
  | .milnikPowerUp => true
  | .milnikPowerLoss => true
  | .controlPeriod n _ => n < 8
  | .ceilingWindow n => n < 8
  | .droop n => n < 8
  | .railUnder n => n < 8
  | .railOver n => n < 8
  | .thermal n => n < 8
  | .gateDown n c => n < 8 && c < 72
  | .admission n => n < 8
  | .ungate n c => n < 8 && c < 72
  | .rowGroupRamp n c => n < 8 && c < 72
  | .run t o => t.wf && o.ok
  | .load t o => t.wf && o.fieldsOk && o.rangeOk
  | .drain t o => t.wf && o.fieldsOk && o.rangeOk
  | .loadDrainBegin n lc => n < 8 && lc < 64
  | .stroke n lc => n < 8 && lc < 64
  | .speculationVerify n lc => n < 8 && lc < 64
  | .runRetire n lc => n < 8 && lc < 64
  | .loadRetire n lc => n < 8 && lc < 64
  | .drainRetire n lc => n < 8 && lc < 64
  | .fbfill t o => t.wf && o.wf
  | .fillPositionWrite n lc _ => n < 8 && lc < 64
  | .fbfillRetire n lc _ => n < 8 && lc < 64
  | .kerfCommitApply n c => n < 8 && c < 72
  | .pwait t q k _ => t.wf && pegOk q && wordOk k
  | .qwait t mask => t.wf && mask < 32
  | .padd t q k => t.wf && pegOk q && wordOk k
  | .pset t q k => t.wf && pegOk q && wordOk k
  | .psig t scope k target => t.wf && scope < 5 && k < 2 ^ 16 && wordOk target
  | .skey t key sa sb => t.wf && keyOk key && regOk sa && regOk sb
  | .loop t src len => t.wf && src.ok && len < 2 ^ 16
  | .brz t a off => t.wf && regOk a && offOk off
  | .brnz t a off => t.wf && regOk a && offOk off
  | .raise t code => t.wf && code < 2 ^ 16
  | .add t d a b => t.wf && scaOk d a b
  | .sub t d a b => t.wf && scaOk d a b
  | .sAnd t d a b => t.wf && scaOk d a b
  | .sOr t d a b => t.wf && scaOk d a b
  | .sXor t d a b => t.wf && scaOk d a b
  | .shl t d a b => t.wf && scaOk d a b
  | .shr t d a b => t.wf && scaOk d a b
  | .sar t d a b => t.wf && scaOk d a b
  | .mul t d a b => t.wf && scaOk d a b
  | .sMin t d a b => t.wf && scaOk d a b
  | .sMax t d a b => t.wf && scaOk d a b
  | .slt t d a b => t.wf && scaOk d a b
  | .seq t d a b => t.wf && scaOk d a b
  | .movi t d _ => t.wf && regOk d
  | .movhi t d a _ => t.wf && regOk d && regOk a
  | .lidx t d level => t.wf && regOk d && level < 32
  | .vld t d a off => t.wf && regOk d && regOk a && off < 2 ^ 19
  | .vst t d a off => t.wf && regOk d && regOk a && off < 2 ^ 19
  | .sld t d a off => t.wf && regOk d && regOk a && off < 2 ^ 19
  | .sst t d a off => t.wf && regOk d && regOk a && off < 2 ^ 19
  | .vldb t d a off => t.wf && regOk d && regOk a && off < 2 ^ 19
  | .fadd t d a b => t.wf && vecOk d a b 0
  | .fsub t d a b => t.wf && vecOk d a b 0
  | .fmul t d a b => t.wf && vecOk d a b 0
  | .ffma t d a b e => t.wf && vecOk d a b e
  | .fmin t d a b => t.wf && vecOk d a b 0
  | .fmax t d a b => t.wf && vecOk d a b 0
  | .fcmplt t d a b => t.wf && vecOk d a b 0
  | .fcmpeq t d a b => t.wf && vecOk d a b 0
  | .sel t d a b e => t.wf && vecOk d a b e
  | .fmovs t d a => t.wf && regOk d && regOk a
  | .cvt t d a src dst key => t.wf && regOk d && regOk a && cvtOk src && cvtOk dst && key.all keyOk
  | .mxenc t d a fmt key => t.wf && regOk d && regOk a && 5 ≤ fmt && fmt ≤ 10 && key.all keyOk
  | .rsum t d a => t.wf && regOk d && regOk a
  | .rmax t d a => t.wf && regOk d && regOk a
  | .exp t d a _ => t.wf && regOk d && regOk a
  | .rcp t d a _ => t.wf && regOk d && regOk a
  | .rsq t d a _ => t.wf && regOk d && regOk a
  | .tld t d _ toff => t.wf && regOk d && toff < 2048
  | .tst t a _ toff => t.wf && regOk a && toff < 2048
  | .gather t o => t.wf && o.wf
  | .stream t o => t.wf && o.wf
  | .copy t o => t.wf && o.wf
  | .prefetch t o => t.wf && o.wf
  | .gatherAccess n lc _ => n < 8 && lc < 64
  | .lineReturn n lc _ _ => n < 8 && lc < 64
  | .gthRetire n lc x => n < 8 && lc < 64 && x < 16
  | .instructionFetch n lc _ _ => n < 8 && lc < 64
  | .programStart n lc _ => n < 8 && lc < 64
  | .programEnd n lc => n < 8 && lc < 64
  | .trackerWake n res => n < 8 && res.wf
  | .memoryAccessComplete n _ _ => n < 8
  | .cxlMemRead hpa _ _ _ => hpa < 2 ^ 52
  | .cxlMemWrite hpa bs _ _ _ => hpa < 2 ^ 52 && bs.length ≤ 64 - hpa % 64
  | .bisnpResponse line _ data _ => line < 2 ^ 48 && data.all (fun l => l.length = 64)
  | .hostSnoop _ _ => true
  | .benchWindowAccess n lc off len wr _ => n < 8 && lc < 64 && off + len ≤ benchSize && wr.all (fun l => l.length = len)
  | .kernel _ => true
  | .statisticsPass _ _ _ _ => true
  | .applyPass _ _ _ _ => true
  | .ringCopy _ _ => true
  | .engineGather _ _ => true
  | .engineStart n => n < 8
  | .fill _ => true
  | .scrub _ _ => true
  | .collectiveStreamStart n _ => n < 8
  | .reduce n ix _ => n < 8 && ix < 16
  | .rankOrderedReduce n ix _ => n < 8 && ix < 16
  | .allGather n ix _ => n < 8 && ix < 16
  | .allReduce n ix _ => n < 8 && ix < 16
  | .epoch _ _ => true
  | .phaseBegin _ => true
  | .phaseEnd _ => true
  | .slowDetection => true
  | .dump _ _ => true
  | .pegsetSet _ => true
  | .pegsetAdd _ => true
  | .nop _ => true
  | .readyFrame port f => port < 9 && f.wf
  | .agree port f _ => port < 9 && f.wf
  | .contrib port f => port < 9 && f.wf
  | .sparse port f => port < 9 && f.wf
  | .applied port f => port < 9 && f.wf
  | .grant port f _ => port < 9 && f.wf
  | .rankData port f _ => port < 9 && f.wf
  | .shard port f => port < 9 && f.wf
  | .shardAck port f => port < 9 && f.wf
  | .halt port f => port < 9 && f.wf
  | .fence port f => port < 9 && f.wf
  | .abort port f => port < 9 && f.wf
  | .fabAbort entry _ => entry < 16
  | .abortKeyExpiry => true
  | .writeFrame port f _ => port < 9 && f.wf
  | .readFrame port f _ => port < 9 && f.wf
  | .readData port f => port < 9 && f.wf
  | .writeAck port f => port < 9 && f.wf
  | .psigFrame port f => port < 9 && f.wf
  | .psigAck port f => port < 9 && f.wf
  | .unreach port f => port < 9 && f.wf
  | .frameForward port f => port < 9 && f.wf
  | .linkFlit port g f => port < 4 && g < 4 && f.raw.length = 256
  | .laneGroupDown port g => port < 4 && g < 4
  | .linkTraining port g => port < 4 && g < 4
  | .trainingTimeout port g => port < 4 && g < 4
  | .linkId port _ => port < 4
  | .retrain port v _ => port < 4 && wordOk v
  | .tsync port _ => port < 4
  | .ftcUnsync => true
  | .grandmasterStart => true
  | .bankSwitch => true
  | .ftcNowRead off _ => latches (off / 4 * 4)
  | .commit k _ => k < 16
  | .registerWrite w => w.wf
  | .hostReset _ => true
  | .packageReset _ _ => true
  | .startStall => true
  | .fwWatchdog _ _ => true
  | .dovetail n => n < 8
  | .hostLink _ _ => true
  | .commandRingDoorbell ring v => ring < 2 ^ 15 && wordOk v
  | .completionRingDoorbell cq v => cq < 2 ^ 12 && wordOk v
  | .commandRingLoad ring _ => ring < 2 ^ 15
  | .commandRingDisable ring _ => ring < 2 ^ 15
  | .completionRingLoad cq _ => cq < 2 ^ 12
  | .completionRingDisable cq _ => cq < 2 ^ 12
  | .fetchTurn => true
  | .arbitrationPoint => true
  | .completionEntry _ => true
  | .interruptTimer cq => cq < 2 ^ 12
  | .rotationTest n c => n < 8 && c < 72
  | .rotationTestEnd n c _ group => n < 8 && c < 72 && group.all (· < 17)
  | .fullTestEnd n c _ group => n < 8 && c < 72 && group.all (· < 17)
  | .rebind n lc => n < 8 && lc < 64
  | .jobWatchdog => true
  | .abortDone job => job < 2 ^ 16
  | .drained => true
  | .memCe n m => n < 8 && m < 4
  | .dtReplay _ => true
  | .eventResend k sq => k < 2 && wordOk sq
  | .journalFlush _ => true
  | .compaction => true
  | .sample _ => true
  | .regRead ch tag off count ty => mgtOk ch tag && 1 ≤ count && count ≤ 256 && off % 4 = 0 && ty < 256 && (ty < 2 || 7 < ty)
  | .regWrite ch tag off ws => mgtOk ch tag && 1 ≤ ws.length && ws.length ≤ 256 && off % 4 = 0
  | .event k sq => k < 2 && wordOk sq
  | .evtRead ch tag _ count => mgtOk ch tag && 1 ≤ count && count ≤ 16
  | .jrnlRead ch tag _ count => mgtOk ch tag && 1 ≤ count && count ≤ 32
  | .firmwareBegin _ tag len => wordOk tag && wordOk len
  | .firmwareData ch tag off bs => wordOk tag && wordOk off && 1 ≤ bs.length && bs.length ≤ (if ch = .doe then 4096 else 1024)
  | .firmwareEnd _ tag _ => wordOk tag
  | .firmwareStatus _ tag => wordOk tag
  | .lockSvn _ tag => wordOk tag
  | .getCert _ tag _ len => wordOk tag && 1 ≤ len && len ≤ 1024
  | .getMeas _ tag nonce mask => wordOk tag && nonce.length = 32 && mask < 16
  | .doeDiscovery _ => true
  | .cdat => true
  | .ideKm _ => true
  | .neighbourDiscovery target => target < 2 ^ 128
  | .icmpv6Echo _ => true
  | .entdaa addr => addr < 128
  | .milnikSample vi => vi.length = 24
  | .countingLine n _ => n < 8
  | .milnikRecordClose _ => true
  | .liveCopyRefresh => true
  | .milnikIdent => true
  | .milnikRecord sq => sq < 2 ^ 64
  | .milnikCert _ len => 1 ≤ len && len ≤ 1024
  | .quote nonce => nonce.length = 48
  | .expFrame port f => port < 9 && f.wf
  | .managementPortLink _ => true

end Sys2Proof
end

