-- ==== Sys2Proof/Tests/Slice0.lean ====
section
/-! SUPPORT. Tests: an ill-formed command for each check of WellFormed; for each statement, a concrete state and operands that meet its
hypotheses, clause by clause (`test_premises_<statement>`); and single steps whose results are worked out from the rules. -/
open Sys2Proof Sys2Proof.Machine

namespace Sys2Proof.Tests

set_option Elab.async false

/-! States. -/

/-- What a step answers meets a test. -/
def goes (o : Host.Outcome State Fault Refusal) (f : State → Bool) : Bool :=
  match o with
  | .next s => f s
  | _ => false

/-- A program error. -/
def stops (o : Host.Outcome State Fault Refusal) : Bool :=
  match o with
  | .fault .programError => true
  | _ => false

/-- A descriptor of the gather unit: 4-byte rows, or a range of no length; everything else 0. -/
def desc (k : GthKind) : List Byte :=
  let at' (o : Nat) : List Byte := (List.replicate o 0#8) ++ [4#8] ++ List.replicate (63 - o) 0#8
  match k with
  | .gather => at' 12
  | .copy => at' 16
  | .prefetch => at' 8
  | .stream => List.replicate 64 0#8

/-- A core that runs a program: 17 in S1, the last aligned bench address of a V register in S2, 5 in peg 3; the first word of the
bench holds 7. -/
def core0 : Core :=
  let c := Core.init 0
  { c with s := [(1, 17#64), (2, 0x2FFF00#64)], pegs := [(3, 5)]
           bench := c.bench.write 0 (toBytes 8 7)
           seq := { c.seq with running := true, image := 0, length := 100, pc := 4, ids := ⟨7, 1, 2⟩ } }

/-- The package released from cold reset: its host port up and enabled, firmware running, two dies with two logical cores bound,
core 0 running a program. -/
def pkg0 : Pkg :=
  let p := Pkg.reset
  let d := { Die.init with bind := [(0, 0), (1, 1)] }
  { p with
    board := { p.board with dies := 2, pwrok := true, rstN := true, perstN := true }
    port := { p.port with speed := 1, width := 8, memSpace := true, busMaster := true, cacheEn := true, memEn := true, msixEn := true }
    fw := { p.fw with running := some ⟨1, 1, []⟩, booted := true }
    mgt := ⟨true, some 8⟩
    dies := [(0, d), (1, d)]
    cores := [(0, core0)] }

def s0 : State := { State.reset with pkg := pkg0 }

/-- The state with another core 0, another die 0, or another package. -/
def withCore (f : Core → Core) : State := { s0 with pkg := { pkg0 with cores := [(0, f core0)] } }
def withDie (f : Die → Die) : State := { s0 with pkg := pkg0.updDie 0 f }
def withPkg (f : Pkg → Pkg) : State := { s0 with pkg := f pkg0 }

/-- A slot of logical core 0 of die 0, alone or the last of its word. -/
def t0 : Site := ⟨0, 0, none⟩
def t1 : Site := ⟨0, 0, some ⟨2, 3, false⟩⟩

/-! Ill-formed commands: one for each check of WellFormed. -/

theorem test_wf_site : ∀ t ∈ [(⟨8, 0, none⟩ : Site), ⟨0, 64, none⟩, ⟨0, 0, some ⟨0, 0, false⟩⟩, ⟨0, 0, some ⟨17, 0, false⟩⟩,
    ⟨0, 0, some ⟨1, 256, false⟩⟩], (Instr.movi t 1 0#32).wf = false := by decide
theorem test_wf_site_ok : (Instr.movi ⟨7, 63, some ⟨16, 255, true⟩⟩ 31 0xFFFFFFFF#32).wf = true := by decide
theorem test_wf_registers : ∀ i ∈ [(.add t0 32 0 (.reg 0) : Instr), .add t0 0 32 (.reg 0), .add t0 0 0 (.reg 32), .movi t0 32 0#32,
    .movhi t0 0 32 0#32, .lidx t0 0 32, .lidx t0 32 0, .vld t0 32 0 0, .sst t0 0 32 0, .vldb t0 0 0 (2 ^ 19), .fadd t0 32 0 0,
    .ffma t0 0 0 0 32, .sel t0 0 0 32 0, .fmovs t0 0 32, .rsum t0 32 0, .exp t0 0 32 true, .tld t0 32 false 0, .tld t0 0 false 2048,
    .tst t0 0 true 2048, .brz t0 32 0, .brnz t0 0 (2 ^ 31), .brz t0 0 (-2 ^ 31 - 1)], i.wf = false := by decide
theorem test_wf_formats : ∀ i ∈ [(.cvt t0 0 0 5 0 none : Instr), .cvt t0 0 0 0 14 none, .cvt t0 0 0 0 0 (some 8), .mxenc t0 0 0 4 none,
    .mxenc t0 0 0 11 none, .mxenc t0 0 0 5 (some 8)], i.wf = false := by decide
theorem test_wf_ctl : ∀ i ∈ [(.pwait t0 64 0 false : Instr), .pwait t0 0 (2 ^ 32) true, .qwait t0 32, .padd t0 64 0, .pset t0 0 (2 ^ 32),
    .psig t0 5 0 0, .psig t0 0 (2 ^ 16) 0, .psig t0 0 0 (2 ^ 32), .skey t0 8 0 0, .skey t0 0 32 0, .skey t0 0 0 32,
    .loop t0 (.imm (2 ^ 32)) 0, .loop t0 (.reg 32) 0, .loop t0 (.imm 0) (2 ^ 16), .raise t0 (2 ^ 16)], i.wf = false := by decide

/-! Premises, chapters 3 to 6. -/

theorem test_premises_slots : s0.pkg.Quiet ∧ s0.pkg.site t0 = some 0 ∧ s0.pkg.site t1 = some 0 := by decide
theorem test_premises_ScaResults : s0.pkg.Quiet ∧ s0.pkg.site t1 = some 0 ∧ 31 < 32 ∧ SOpnd.ok (.reg 31) = true ∧
    SOpnd.ok (.imm 0xFFFFFFFF#32) = true := by decide
theorem test_premises_ScaMoves : s0.pkg.Quiet ∧ s0.pkg.site t0 = some 0 ∧ 0 < 32 ∧ 31 < 32 := by decide
theorem test_premises_LdsEffects : s0.pkg.Quiet ∧ s0.pkg.site t0 = some 0 ∧ 2 ^ 19 - 64 < 2 ^ 19 ∧
    ((core0.rdS 2).toNat + 0) % 64 = 0 ∧ (core0.rdS 2).toNat + 0 + 256 ≤ 0x300000 ∧ core0.benchBad 0x2FFF00 256 = false ∧
    ((core0.rdS 2).toNat + 248) % 8 = 0 ∧ (core0.rdS 2).toNat + 248 + 8 ≤ 0x300000 ∧ core0.benchBad 0x2FFFF8 8 = false ∧
    ((core0.rdS 2).toNat + 252) % 4 = 0 ∧ (core0.rdS 2).toNat + 252 + 4 ≤ 0x300000 ∧ core0.benchBad 0x2FFFFC 4 = false := by decide
theorem test_premises_VecEffects : s0.pkg.Quiet ∧ s0.pkg.site t0 = some 0 ∧ cvtOk 13 = true ∧ cvtOk 0 = true ∧
    (some 7).all (· < 8) = true ∧ 5 ≤ 10 ∧ 10 ≤ 10 := by decide
theorem test_premises_RowEffects : s0.pkg.Quiet ∧ s0.pkg.site t0 = some 0 ∧ 2047 < 2048 ∧ ueIn core0.statUE (2047 * 128) 128 = false := by
  decide
theorem test_premises_CtlEffects : s0.pkg.Quiet ∧ s0.pkg.site t0 = some 0 ∧ 63 < 64 ∧ 2 ^ 32 - 1 < 2 ^ 32 ∧
    core0.qwaitOk 31 = true ∧ LoopSrc.ok (.reg 31) = true ∧ 65535 < 65536 ∧ core0.seq.loops.length < 4 ∧
    core0.loopCount (.imm 0) = 0 := by decide

/-- A RUN of one stroke in int8, a LOAD and a DRAIN of a whole tile of fp32, an FBFILL of one row. -/
def run1 : RunOp := ⟨0, true, 0, 1, false, false, 0, 0, 1, 12, 12, false, 0, some 63⟩
def move1 : MoveOp := ⟨1, false, 0, 0, 0, 128, 512, 0, none, some 63⟩
def drain1 : MoveOp := { move1 with scale := -128, key := some 7 }
def fill1 : FillArg := ⟨true, 1, 12, 0, some 63, 256, 0, 1⟩
def op (w : ArrWhat) : ArrOp := ⟨w, 0, 128, ⟨7, 1, 2⟩, 0, none, none⟩

theorem test_wf_array : ∀ o ∈ [{ run1 with bank := 2 }, { run1 with aSlot := 2 }, { run1 with bSlot := 2 }, { run1 with aStart := 1024 },
    { run1 with count := 1025 }, { run1 with aFmt := 13 }, { run1 with bFmt := 0 }, { run1 with mute := 3 }, { run1 with peg := some 64 }],
    (Instr.run t0 o).wf = false := by decide
theorem test_wf_moves : ∀ o ∈ [{ move1 with bank := 2 }, { move1 with areg := 32 }, { move1 with off := 2 ^ 22 }, { move1 with rows := 0 },
    { move1 with rows := 129 }, { move1 with stride := 2 ^ 16 }, { move1 with key := some 8 }, { move1 with peg := some 64 }],
    (Instr.load t0 o).wf = false ∧ (Instr.drain t0 o).wf = false := by decide
theorem test_wf_fills : ∀ o ∈ [{ fill1 with slot := 2 }, { fill1 with fmt := 13 }, { fill1 with areg := 32 }, { fill1 with peg := some 64 },
    { fill1 with stride := 8 }, { fill1 with stride := 2 ^ 18 }, { fill1 with start := 1024 }, { fill1 with count := 2048 }],
    (Instr.fbfill t0 o).wf = false := by decide
theorem test_wf_gth : ∀ o ∈ [(⟨32, none, 0⟩ : GthArg), ⟨0, some 64, 0⟩, ⟨0, none, 2 ^ 32⟩],
    (Instr.gather t0 o).wf = false ∧ (Instr.stream t0 o).wf = false := by decide
theorem test_wf_places : ∀ i ∈ [(.stroke 8 0 : Instr), .stroke 0 64, .gateDown 0 72, .gateDown 8 0, .kerfCommitApply 0 72, .gthRetire 0 0 16,
    .trackerWake 0 (.bank false 8192), .trackerWake 0 (.bank true 1024), .trackerWake 0 (.chan false 128), .trackerWake 0 (.chan true 2),
    .controlPeriod 8 ⟨0, 0, 0, true, 0, 0, 0, 0⟩, .reduce 0 16 .keep, .memCe 0 4, .rebind 0 64, .rotationTestEnd 0 0 true (some 17),
    .countingLine 8 true], i.wf = false := by decide
theorem test_wf_host : ∀ i ∈ [(.cxlMemRead (2 ^ 52) true .keep : Instr), .cxlMemWrite 60 (List.replicate 5 0#8) true,
    .bisnpResponse 0 true (some [0#8]), .benchWindowAccess 0 0 (benchSize - 3) 4 none, .benchWindowAccess 0 0 0 4 (some [0#8]),
    .perstRelease 3 0, .perstRelease 0 17, .registerWrite (.bar 2 4 0 .bar0), .registerWrite (.bar 0 2 0 .bar0),
    .registerWrite (.bar (2 ^ 26) 4 0 .bar0), .registerWrite (.bar 0 4 (2 ^ 32) .bar0), .registerWrite (.base true (2 ^ 64)), .registerWrite (.hdm 4 .base 0), .commit 16 .bar0, .ftcNowRead 0 .bar0,
    .commandRingDoorbell (2 ^ 15) 0, .commandRingDoorbell 0 (2 ^ 32), .completionRingDoorbell (2 ^ 12) 0, .commandRingLoad (2 ^ 15) .bar0,
    .completionRingLoad (2 ^ 12) .bar0, .interruptTimer (2 ^ 12), .abortDone (2 ^ 16)], i.wf = false := by decide
theorem test_wf_frames : ∀ f ∈ [{ Frame.mk' 1 0 0 0 0 with ty := 64 }, { Frame.mk' 1 0 0 0 0 with bank := 4 }, { Frame.mk' 1 0 0 0 0 with vc := 2 },
    Frame.mk' 1 (2 ^ 14) 0 0 0, Frame.mk' 1 0 8 0 0, Frame.mk' 1 0 0 8 0, Frame.mk' 1 0 0 0 (2 ^ 16)],
    (Instr.writeFrame 0 f .keep).wf = false ∧ (Instr.writeFrame 9 (Frame.mk' 1 0 0 0 0) .keep).wf = false := by decide
theorem test_wf_links : ∀ i ∈ [(.laneGroupDown 4 0 : Instr), .laneGroupDown 0 4, .linkTraining 4 0, .trainingTimeout 0 4,
    .retrain 4 0 .bar0, .retrain 0 (2 ^ 32) .bar0, .linkId 4 ⟨0, 0, 0, 0, 0, 0, 0⟩, .tsync 4 ⟨none, 0, 0, 0, 0, true⟩,
    .fabAbort 16 .bar0], i.wf = false := by decide
theorem test_wf_management : ∀ i ∈ [(.regRead .doe 0 0 1 : Instr), .regRead .udp (2 ^ 32) 0 1, .regRead .udp 0 0 0, .regRead .udp 0 0 257,
    .regRead .udp 0 2 1, .regRead .udp 0 0 1 2, .regRead .udp 0 0 1 256, .regWrite .udp 0 0 [], .evtRead .mctp 0 0 17, .jrnlRead .mctp 0 0 33, .event 2 0, .eventResend 0 (2 ^ 32),
    .firmwareBegin .doe 0 (2 ^ 32), .firmwareData .udp 0 0 [], .firmwareData .udp 0 (2 ^ 32) [0#8], .getCert .doe 0 0 1025,
    .getMeas .doe 0 [] 0, .getMeas .doe 0 (List.replicate 32 0#8) 16, .neighbourDiscovery (2 ^ 128), .entdaa 128, .milnikSample [],
    .milnikRecord (2 ^ 64), .milnikCert 0 1025, .quote []], i.wf = false := by decide

theorem test_premises_QueuedOperations : s0.pkg.Quiet ∧ s0.pkg.site t0 = some 0 ∧ core0.queue.length < 8 ∧ run1.ok = true ∧
    move1.fieldsOk = true ∧ move1.loadOk ((core0.rdS 0).toNat + 0) core0.seq.width = true ∧
    drain1.fieldsOk = true ∧ drain1.drainOk (core0.classAfter 1) ((core0.rdS 0).toNat + 0) core0.seq.width = true ∧
    fill1.areg < 32 ∧ fill1.ok (core0.rdS 0).toNat = true ∧ (core0.fills true).length < 2 := by decide

/-- A descriptor stands at the start of core 0's bench. -/
def described (k : GthKind) : Core := { core0 with bench := { core0.bench with cells := (desc k).zipIdx.map (fun x => (x.2, x.1)) } }
theorem test_premises_GthIssued : ∀ k ∈ [GthKind.gather, .stream, .copy, .prefetch],
    let s := withCore (fun _ => described k)
    let c := s.pkg.core 0
    s.pkg.Quiet ∧ s.pkg.site t0 = some 0 ∧ c.freeThread = some 0 ∧ (c.rdS 0).toNat + 0 = 0 ∧ c.benchBad 0 64 = false ∧
      c.bench.readN 0 64 = desc k ∧ (GDesc.read k (desc k)).ok (desc k) = true ∧ (c.fills (GDesc.read k (desc k)).b).length < 2 := by
  decide +kernel

theorem test_premises_PsigEffects : s0.pkg.site t0 = some 0 ∧ 2 ^ 16 - 1 < 2 ^ 16 ∧
    -- a bound core, an unbound one, a die that is there
    s0.pkg.phys ((1 * 2 ^ 15 + 1 * 2 ^ 9) / 2 ^ 15 % 8) ((1 * 2 ^ 15 + 1 * 2 ^ 9) / 2 ^ 9 % 64) = some 73 ∧
    s0.pkg.phys ((63 * 2 ^ 9) / 2 ^ 15 % 8) ((63 * 2 ^ 9) / 2 ^ 9 % 64) = none ∧
    s0.pkg.present ((1 * 2 ^ 15 + 255) / 2 ^ 15 % 8) = true ∧
    -- the own package, and another one
    2 ^ 15 / 2 ^ 18 % 2 ^ 14 = s0.pkg.coord ∧ (2 ^ 32 - 1) / 2 ^ 18 % 2 ^ 14 ≠ s0.pkg.coord := by decide
theorem test_premises_RaiseTraps : s0.pkg.site t0 = some 0 ∧ s0.pkg.site t1 = some 0 ∧ t0.last = none ∧ t1.last ≠ none ∧
    2 ^ 16 - 1 < 2 ^ 16 := by decide

/-- Core 0 with full queues, every thread taken, and a RUN in progress. -/
def busy (c : Core) : Core :=
  let f : FillOp := ⟨none, 0, 11, 0, 128, 0, 1, none, 0, 0, ⟨0, 0, 0⟩⟩
  { c with queue := List.replicate 8 (op (.run run1)), fillA := [f, f], fillB := [f, f]
           threads := Tbl.tab (fun _ => some ⟨GDesc.read .gather (desc .gather), 0x100, none, ⟨0, 0, 0⟩, 0, 0, none, 1, none, none, [], 0, [], [], []⟩) 0 16 }
theorem test_premises_SlotsHold : let s := withCore busy
    s.pkg.site t0 = some 0 ∧ 1 < 32 ∧ (s.pkg.core 0).qwaitOk 1 = false ∧ 8 ≤ (s.pkg.core 0).queue.length ∧
    run1.ok = true ∧ move1.fieldsOk = true ∧ move1.loadOk ((s.pkg.core 0).benchAddr 0 0) (s.pkg.core 0).seq.width = true ∧
    drain1.drainOk ((s.pkg.core 0).classAfter 1) ((s.pkg.core 0).benchAddr 0 0) (s.pkg.core 0).seq.width = true ∧
    fill1.ok ((s.pkg.core 0).rdS 0).toNat = true ∧ 2 ≤ ((s.pkg.core 0).fills true).length ∧ (s.pkg.core 0).freeThread = none := by decide

theorem test_premises_ProgramErrors : s0.pkg.site t0 = some 0 ∧ scaOk 32 0 (.reg 0) = false ∧ vecOk 0 0 0 32 = false ∧
    vecOk 0 32 0 0 = false ∧ ((core0.rdS 2).toNat + 257 > 0x300000 - 4) ∧ regOk 32 = false ∧ 2048 ≥ 2048 ∧ 64 ≥ 64 ∧ 5 ≤ 5 ∧
    ({ run1 with bank := 2 } : RunOp).ok = false ∧
    (let c := (withCore (fun c => { c with seq := { c.seq with loops := List.replicate 4 ⟨0, 90, 2, 0⟩ } })).pkg.core 0
     4 ≤ c.seq.loops.length ∧ c.loopCount (.imm 1) ≠ 0) := by decide

/-- Two writes to S3 and one to a lane of V1, in order. -/
def pending1 : List RegWrite := [⟨1, 0, 1, .s 3 1#64⟩, ⟨1, 0, 2, .s 3 2#64⟩, ⟨4, 0, 3, .v 1 0 [9#32]⟩]
theorem test_premises_RegistersLand : pending1.Pairwise (fun a b => a.before b = true) ∧
    ∀ k, (core0.rdV k).length = 64 := by
  refine ⟨by decide, fun k => ?_⟩
  simp [Core.rdV, core0, Core.init, Tbl.getD, Tbl.find]
theorem test_premises_WritesInOrder : pending1.Pairwise (fun a b => a.before b = true) := by decide

/-- A loop with one more iteration to run, and the one around it, which ends at the same word. -/
def loops1 : List LoopLevel := [⟨10, 14, 3, 1⟩, ⟨4, 14, 2, 1⟩]
theorem test_premises_SequencerTurns : (∀ l ∈ loops1, l.stop ≠ 4 + 2) ∧ (loops1.head?.map LoopLevel.stop) = some (12 + 2) ∧ 1 + 1 < 3 ∧
    2 ≤ 1 + 1 ∧ 0 ≤ ((12 : Nat) : Int) + (-12) := by decide
theorem test_premises_LoopBodyRuns : s0.pkg.Quiet ∧ s0.pkg.site t0 = some 0 ∧ 31 < 32 ∧ 0 < 1 ∧ (∀ l ∈ loops1, l.stop ≠ 4 + 1) := by decide
theorem test_premises_WordsClose : (⟨2, 255, true⟩ : WordEnd).fin = true ∧ (⟨2, 255, false⟩ : WordEnd).fin = false ∧
    core0.seq.trap = .none := by decide
theorem test_premises_PwaitHoldsAndTakes : s0.pkg.Quiet ∧ s0.pkg.site t0 = some 0 ∧ core0.peg 3 < 6 ∧ 5 ≤ core0.peg 3 ∧ 0 ≤ core0.peg 63 := by
  decide

/-- Core 0 with an operation at the head of its array queue, its slots in a state that makes the block mute or predicted mute. -/
def headed (w : ArrWhat) (c : Core) : Core := { c with queue := [op w] }
def mute8 : Slot := ⟨.empty 0, .empty 0, List.range 8, [0]⟩
/-- A RUN of a block in fp16, with mute prediction at its most eager. -/
def runMute : RunOp := ⟨0, false, 0, 1, false, false, 0, 0, 8, 1, 1, false, 2, none⟩
/-- The fills of the RUN's slots are still to come. -/
def unfilled (c : Core) : Core :=
  { headed (.run runMute) c with
    queue := [{ op (.run runMute) with seq := 1 }], fretA := [(0, mute8)]
    fillA := [⟨none, 0, 1, 0, 256, 0, 8, none, 0, 0, ⟨0, 0, 0⟩⟩] }
theorem test_premises_StrokeEffects : s0.pkg.powered = true ∧ s0.pkg.Quiet ∧ s0.pkg.phys 0 0 = some 0 ∧ s0.pkg.fw.tests.find 0 = none ∧
    core0.pwr = .awake ∧
    -- a stroke
    (let c := headed (.run run1) core0
     0 < run1.count ∧ muteMode run1 0 = 0 ∧ c.sideReady false 0 0 false 0 0 = true ∧ c.sideReady true 1 0 false 0 0 = true ∧ c.spec = none ∧
     run1.keepsRule 128 = true ∧ c.half - c.opaActive < 8192) ∧
    -- a mute block
    (let c := { headed (.run runMute) core0 with fretA := [(0, mute8)] }
     1 ≤ muteMode runMute 3 ∧ blockStart runMute 0 = true ∧ c.sideWritten false 0 0 0 = true ∧ c.sideWritten true 1 0 0 = true ∧
     muteBlock (c.slot false 0) (c.slot true 1) 0 0 = true) ∧
    -- a block predicted mute
    (let c := unfilled core0
     muteMode runMute 3 = 2 ∧ (c.sideWritten false 0 1 0 && c.sideWritten true 1 1 0) = false ∧
     (sideMute (c.slot false 0) (c.sideWritten false 0 1 0) 0 || sideMute (c.slot true 1) (c.sideWritten true 1 1 0) 0) = true) ∧
    -- a speculation that holds, and one that does not
    (let c := { headed (.run runMute) core0 with fretA := [(0, mute8)], spec := some ⟨0, false, 0, 0⟩ }
     c.sideWritten false 0 0 0 = true ∧ c.sideWritten true 1 0 0 = true ∧ muteBlock (c.slot false 0) (c.slot true 1) 0 0 = true) ∧
    (let c := { headed (.run runMute) core0 with spec := some ⟨0, true, 2, 0⟩, ckpt := some core0.bank0 }
     muteBlock (c.slot false 0) (c.slot true 1) 0 0 = false ∧ c.ckpt = some core0.bank0) := by decide
/-- A stroke of a block that is not mute; one, and a mute block, while a speculation is outstanding; a block, and a stroke, that wait. -/
theorem test_premises_StrokeEffects_more : (let c := headed (.run runMute) core0
     0 < runMute.count ∧ 1 ≤ muteMode runMute 3 ∧ 1 ≤ muteMode runMute 1 ∧ blockStart runMute 0 = true ∧ c.sideWritten false 0 0 0 = true ∧
     c.sideWritten true 1 0 0 = true ∧ muteBlock (c.slot false 0) (c.slot true 1) 0 0 = false) ∧
    (let c := { headed (.run run1) core0 with spec := some ⟨0, true, 0, 0⟩ }
     c.spec = some ⟨0, true, 0, 0⟩ ∧ muteMode run1 3 = 0 ∧ c.sideReady false 0 0 false 0 0 = true ∧ c.sideReady true 1 0 false 0 0 = true) ∧
    (let c := { headed (.run runMute) core0 with fretA := [(0, mute8)], spec := some ⟨0, true, 0, 0⟩ }
     c.spec ≠ none ∧ c.sideWritten false 0 0 0 = true ∧ c.sideWritten true 1 0 0 = true ∧ muteBlock (c.slot false 0) (c.slot true 1) 0 0 = true) ∧
    (let c := unfilled core0
     c.spec = none ∧ (c.sideWritten false 0 1 0 && c.sideWritten true 1 1 0) = false ∧ muteMode runMute 1 ≠ 2) ∧
    (let c := { unfilled core0 with queue := [{ op (.run run1) with seq := 1 }] }
     (c.sideReady false 0 1 false 0 0 && c.sideReady true 1 1 false 0 0) = false) := by decide

theorem test_premises_ArrayRetires : s0.pkg.powered = true ∧ s0.pkg.Quiet ∧ s0.pkg.phys 0 0 = some 0 ∧
    (let c := headed (.run { run1 with count := 0 }) core0; c.queue = [op (.run { run1 with count := 0 })] ∧ 0 ≤ 0 ∧ c.spec = none) ∧
    (let c := headed (.load move1 0) core0; (op (.load move1 0)).begun = none ∧ c.moveBad move1 0 128 = false) ∧
    (let c := headed (.drain drain1 0 none) core0; c.queue = [op (.drain drain1 0 none)]) := by decide

/-- Core 0 with one row to write into slot 1 of fretboard B. -/
def filling (done : Nat) (c : Core) : Core := { c with fillB := [⟨none, 1, 12, 0, 256, 0, 1, none, 0, done, ⟨0, 0, 0⟩⟩] }
theorem test_premises_FillEffects : let c := filling 0 core0
    (withCore (filling 0)).pkg.phys 0 0 = some 0 ∧ c.fillB.head?.map FillOp.done = some 0 ∧ 0 < 1 ∧
    (∀ f ∈ c.fillB, c.fillBlocked true f = false ∧ c.benchBad f.addr (rowSize (fmtOf f.fmt)) = false ∧ c.benchBad 256 128 = false) ∧
    (∀ f ∈ (filling 1 core0).fillB, f.count ≤ f.done) := by decide

/-- Core 0 with a thread of the gather unit: 2 rows of 4 bytes from memory to the bench, indexes in the bench; `f` changes it. -/
def thread1 : Thread := ⟨{ GDesc.read .gather (desc .gather) with count := 2 }, 0x100, some 63, ⟨0, 0, 0⟩, 0, 0, none, 0, none, none, [], 0, [], [], []⟩
/-- A COPY's write of a byte, the whole of its segment. -/
def put1 : PutLine := ⟨0, 128, 128, 64, [1#8], true, none⟩
def gathering (th : Thread) (c : Core) : Core := { c with threads := [(3, th)] }
/-- Its first piece of a row, and of an index in memory. -/
def rowPiece (a : Nat) : Piece := ⟨a, 4, .bench 0, 0, a, 4⟩
def idxPiece : Piece := ⟨0, 4, .index, 0, 0, 4⟩
/-- The thread that reads its row at `a` next, with CACHE or without. -/
def reading (a : Nat) (cache : Bool) : Thread := { thread1 with idx := some 0, d := { thread1.d with src := a, cache := cache } }
theorem test_premises_GatherEffects_next : s0.pkg.powered = true ∧ s0.pkg.phys 0 0 = some 0 ∧
    (∀ th ∈ [thread1, reading 0 true, reading (hbmBase 1) false, { thread1 with idx := some 5, d := { thread1.d with limit := 5 } },
      { thread1 with idx := some (2 ^ 32 - 1), d := { thread1.d with sent := true } }, { thread1 with toWrite := [put1] }],
      (gathering th core0).serve = some 3 ∧ (gathering th core0).threads.find 3 = some th) ∧
    thread1.next (benchBase 0 0) = .piece ⟨benchBase 0 0, 4, .index, 0, benchBase 0 0, 4⟩ ∧ s0.pkg.owner (benchBase 0 0) = none ∧
    ({ thread1 with d := { thread1.d with idxMem := true } } : Thread).next 0 = .piece idxPiece ∧
    (reading 64 true).next 0 = .piece (rowPiece 64) ∧ s0.pkg.owner 64 = some 0 ∧ (s0.pkg.die 0).held.contains 64 = false ∧
    s0.pkg.skips 0 thread1 (rowPiece 64) = false ∧ s0.pkg.pieceBad 0 (rowPiece 64) = false ∧
    ({ thread1 with idx := some 5, d := { thread1.d with limit := 5 } } : Thread).next 0 = .range ∧
    ({ thread1 with idx := some (2 ^ 32 - 1), d := { thread1.d with sent := true } } : Thread).next 0 = .zeros ∧
    ({ thread1 with toWrite := [put1] } : Thread).next 0 = .write put1 ∧
    (withPkg (fun p => p.updDie 1 (fun d => { d with faulted := true }))).pkg.pieceBad 0 (rowPiece (hbmBase 1)) = true ∧
    (reading 0 true).usesCache (rowPiece 0) = true ∧ (reading 0 false).usesCache (rowPiece 0) = false := by decide +kernel
/-- A faulted die on the way of a write, and of none; a hit in the data cache. -/
def faulty1 : State := withPkg (fun p => p.updDie 1 (fun d => { d with faulted := true }))
theorem test_premises_GatherEffects_ways : s0.pkg.wayBad 0 put1.addr = false ∧ faulty1.pkg.wayBad 0 (hbmBase 1) = true ∧
    ({ thread1 with idx := some (2 ^ 32 - 1), d := { thread1.d with sent := true } } : Thread).pieceTo = .bench 0 ∧
    ({ core0 with dcache := [(64, List.replicate 64 1#8)] } : Core).dcache.find 64 = some (List.replicate 64 1#8) := by decide +kernel
theorem test_premises_GatherEffects_lines : let r (d : Option (Option (List Byte))) : LineReq := ⟨64, d, [(3, rowPiece 64)], none, ⟨7, 1, 2⟩⟩
    let c (d : Option (Option (List Byte))) : Core := { core0 with reqs := [r d] }
    ({ core0 with dcache := cacheSet 512 4 core0.dcache 64 (List.replicate 64 1#8) } : Core).mergeReq 64 none 3 (rowPiece 64) = none ∧
    ((c none).mergeReq 64 none 3 (rowPiece 64)).isSome = true ∧ s0.pkg.refusal 0 64 (.thread 0 3) = none ∧
    (withDie (fun d => { d with waits := [⟨0, .host, .tracker, false⟩] })).pkg.refusal 0 64 (.thread 0 3) = some .tracker ∧
    (s0.pkg.die 0).bcache.find 64 = none ∧
    (∀ d ∈ [some none, some (some [1#8])], (c d).reqs[0]? = some (r d) ∧ (r d).data = d ∧ (r d).writer = none ∧ (r d).waiters ≠ []) ∧
    ({ r (some none) with waiters := [] } : LineReq).waiters = [] := by decide +kernel
theorem test_premises_GatherEffects_commit : let th := reading 64 false
    let x := rowPiece 64
    (gathering th core0).threads.find 3 = some th ∧ x.dst ≠ .install ∧ x.dst = .bench 0 ∧
    ((th.seg ++ [(x, [1#8, 2#8])]).filter (fun y => th.sameSeg x y.1)).foldl (fun n y => n + y.2.length) 0 < x.segLen ∧
    x.segLen ≤ ((th.seg ++ [(x, [1#8, 2#8, 3#8, 4#8])]).filter (fun y => th.sameSeg x y.1)).foldl (fun n y => n + y.2.length) 0 ∧
    (let th : Thread := { thread1 with k := 2 }
     s0.pkg.Quiet ∧ core0.pwr = .awake ∧ s0.pkg.fw.tests.find 0 = none ∧ (gathering th core0).threads.find 3 = some th ∧
     th.finished = true) := by decide +kernel

/-- Core 0 idle, with a committed runtime map that its array has not taken. -/
def idle0 (c : Core) : Core := { c with seq := Seq.init }
def kerfState (mask : Nat) : State := { withCore idle0 with pkg := (withCore idle0).pkg.setFld (rCORE_KERF_RT.at 0 0 0) fCORE_KERF_RT_MASK mask }
theorem test_premises_KerfMapApplies : ∀ mask ∈ [1, 3],
    let s := kerfState mask
    s.pkg.powered = true ∧ s.pkg.present 0 = true ∧ 0 < 72 ∧ (s.pkg.core 0).kerf ≠ s.pkg.fld (rCORE_KERF_RT.at 0 0 0) fCORE_KERF_RT_MASK ∧
    (s.pkg.core 0).queue = [] ∧ (s.pkg.core 0).spec = none ∧
    kerfShort ((0 ||| s.pkg.fld (rCORE_KERF_RT.at 0 0 0) fCORE_KERF_RT_MASK) % 2 ^ 17) (s.pkg.width 0 / 8) = (mask = 3) := by decide +kernel
theorem test_premises_KerfMapApplies_bound : (kerfState 3).pkg.phys 0 0 = some 0 ∧ ((kerfState 3).pkg.die 0).logical 0 ≠ none ∧
    ((kerfState 3).pkg.die 0).logical 71 = none := by decide +kernel
theorem test_premises_KerfMapApplies_kept : movedGroups 0 0x10000 16 = [] := by decide

/-- A start entry, and core 0 with it at the head of its start queue. -/
def entry0 : StartEntry := ⟨0, false, 0, 0, 1, 0, 0#64, 0#64, false, 9, ⟨7, 1, 2⟩, 128⟩
def starting (c : Core) : Core := { c with seq := Seq.init, startq := [entry0] }
theorem test_premises_ProgramStarts : let s := withCore starting
    s.pkg.powered = true ∧ s.pkg.phys 0 0 = some 0 ∧ (s.pkg.core 0).startq = [entry0] ∧ entry0.upd = false ∧ s.pkg.startable 0 = true := by
  decide
/-- How the header of the program is read: whether its line is admitted, and its bytes. -/
def headerSeen (f : Pkg → Pkg) : Bool × Option (List Byte) :=
  let p := f (withCore starting).pkg
  let a := hbmBase 0 + entry0.image + 8
  let x := (p.meets .keep).askAll (.fetch 0) [(a, 8)] []
  (x.2, (x.1.readAt a 8 0 9 entry0.ids).2.toOption)
theorem test_premises_ProgramStarts_read :
    headerSeen (fun p => { p with mem := { p.mem with cells := (List.range 16).map (fun k => (k, 0#8)) } }) = (true, some (List.replicate 8 0#8)) ∧
    headerSeen (fun p => { p with badLines := [(0, true)] }) = (true, none) ∧
    (headerSeen (fun p => p.updDie 0 (fun d => { d with waits := [⟨0, .host, .tracker, false⟩] }))).1 = false ∧
    Ecc.keep ≠ .parity ∧ (withCore starting).pkg.cmds.find entry0.cmd = none := by decide +kernel

theorem test_premises_ProgramEnds : (withCore (fun c => { c with seq := { c.seq with ended := true } })).pkg.phys 0 0 = some 0 ∧
    (withCore (fun c => { c with seq := { c.seq with ended := true } })).pkg.mayEnd 0 = true ∧
    (withCore (fun c => { c with seq := { c.seq with trap := .raise 65535 } })).pkg.mayEnd 0 = true ∧
    (withCore (fun c => { c with seq := { c.seq with stopping := true } })).pkg.mayEnd 0 = true := by decide

theorem test_premises_InstructionLineArrives : s0.pkg.powered = true ∧ s0.pkg.phys 0 0 = some 0 ∧ 64 % 64 = 0 ∧ core0.seq.running = true ∧
    core0.seq.ended = false ∧ core0.seq.stopping = false ∧ core0.seq.trap = .none ∧ core0.icache.find 64 = none ∧ core0.wordInside = true ∧
    64 ∈ core0.neededLines ∧ 128 ∉ core0.neededLines ∧ 128 ∈ ({ core0.seq with prefetch := [128] } : Seq).prefetch ∧
    s0.pkg.owner 64 = some 0 ∧ Ecc.keep ≠ .parity ∧
    ({ core0 with icache := cacheSet 512 4 core0.icache 64 (List.replicate 64 0#8) } : Core).icache.find 64 ≠ none ∧
    -- a miss that is let in, a refused one, one whose line is bad
    (∀ (x : (Die → Die) × Bool × Bool), x ∈ [(id, true, true), ((fun d => { d with waits := [⟨0, .host, .tracker, false⟩] }), false, true)] →
      let s := withDie x.1
      let y := (s.pkg.meets .keep).askAll (.fetch 0) [(64, 64)] []
      y.2 = x.2.1 ∧ (y.1.readLine 0 64 0 0 core0.seq.ids).2 = x.2.2) ∧
    (let y := ((withPkg (fun p => { p with badLines := [(64, true)] })).pkg.meets .keep).askAll (.fetch 0) [(64, 64)] []
     y.2 = true ∧ (y.1.readLine 0 64 0 0 core0.seq.ids).2 = false) := by decide +kernel

/-- Die 0 with two tracker entries and a waiter. -/
def tracking (d : Die) : Die :=
  { d with trk := [⟨64, .writeback 64, true, false⟩, ⟨128, .thread 0 3, false, true⟩], waits := [⟨64, .host, .tracker, false⟩]
           hostq := [⟨64, 64, none, false⟩] }
theorem test_premises_TrackerEffects : let s := withDie tracking
    s.pkg.powered = true ∧ (s.pkg.die 0).trk[0]? = some ⟨64, .writeback 64, true, false⟩ ∧ (s.pkg.die 0).trk[1]? = some ⟨128, .thread 0 3, false, true⟩ ∧
    Ecc.keep ≠ .parity ∧
    (∀ x ∈ [(Ecc.keep, true), (.mem 128 ⟨9, 4, 4, true⟩, false)],
      ((((s.pkg.complete 0 1).meets x.1).touch 0 128 false).fillLine 0 128 1 0 true core0.seq.ids).2 = x.2) ∧
    (let p := s.pkg.waitsNow 0
     (p.die 0).wokenFor .tracker = none ∧ p.inUse 0 .tracker < p.quota 0 .tracker ∧
     wakeFirst .tracker (p.die 0).waits = ([⟨64, .host, .tracker, true⟩], some .host)) := by decide +kernel
theorem test_premises_TrackerEffects_stopped : let s := withDie tracking
    s.pkg.memStopped 0 64 = false ∧ ({ s.pkg with board := { s.pkg.board with clkGone := [(3, 0)] } } : Pkg).memStopped 0 64 = true ∧
    ((tracking (pkg0.die 0)).trk.map (fun e => decide (e.who = .thread 0 3))) = [false, true] := by decide +kernel
theorem test_premises_TrackerEffects_wake :
    let s := withDie (fun d => { d with waits := [⟨64, .host, .bank false 3, false⟩], hostq := [⟨64, 64, none, false⟩] })
    let p := s.pkg.waitsNow 0
    let stopped : Pkg := { p with board := { p.board with clkGone := [(3, 0)] } }
    p.resStopped 0 (.bank false 3) = false ∧ stopped.resStopped 0 (.bank false 3) = true ∧ stopped.resStopped 0 (.bank true 3) = false ∧
    (p.die 0).wokenFor (.bank false 3) = none ∧ p.inUse 0 (.bank false 3) < p.quota 0 (.bank false 3) ∧
    wakeFirst (.bank false 3) (p.die 0).waits = ([⟨64, .host, .bank false 3, true⟩], some .host) := by decide +kernel
theorem test_premises_TrackerEffects_request : [(⟨128, none, [], none, ⟨7, 1, 2⟩⟩ : LineReq)].findIdx? (fun r => r.line = 128 && r.data.isNone) = some 0 := by
  decide

/-- HDM decoder 0 maps the device's memory to host physical addresses from 2^40 on. -/
def mapped (f : Die → Die) : State := { withDie f with pkg := { (withDie f).pkg with port := { pkg0.port with hdm := [(0, ⟨2 ^ 40, 2 ^ 34, 0, true⟩)] } } }
theorem test_premises_HostMemoryEffects : let s := mapped id
    s.pkg.powered = true ∧ s.pkg.linkUp = true ∧ s.pkg.port.memEn = true ∧ s.pkg.dpaOf 64 = none ∧ s.pkg.dpaOf (2 ^ 40 + 64) = some 64 ∧
    (2 ^ 40 + 64) % 64 = 0 ∧ s.pkg.owner 64 = some 0 ∧ (s.pkg.die 0).hostq = [] ∧ (s.pkg.die 0).held.length < directorySize ∧
    s.pkg.headBad 0 = false ∧ Ecc.keep ≠ .parity ∧
    (∀ (x : (Die → Die) × Bool), x ∈ [(id, true), ((fun d => { d with waits := [⟨0, .fabric 0, .tracker, false⟩] }), false)] →
      let q := ((mapped x.1).pkg.meets .keep).askAll .host [(64, 64)] []
      q.2 = x.2 ∧ (q.1.readLine 0 64 5 0 .zero).2 = true ∧ (((mapped x.1).pkg.meets .keep).askAll .host [] [(64, 8)]).2 = x.2) ∧
    (((s.pkg.meets (.mem 64 ⟨9, 4, 4, true⟩)).askAll .host [(64, 64)] []).1.readLine 0 64 5 0 .zero).2 = false ∧
    (64, true) ∈ (withPkg (fun p => { p with snoops := [(64, true)] })).pkg.snoops := by decide +kernel
theorem test_premises_HostMemoryEffects_hole : let s := { mapped id with pkg := { (mapped id).pkg with port := { pkg0.port with hdm := [(0, ⟨2 ^ 40, 2 ^ 48, 0, true⟩)] } } }
    s.pkg.dpaOf (2 ^ 40 + 2 ^ 47) = some (2 ^ 47) ∧ s.pkg.owner (2 ^ 47) = none ∧ s.pkg.rangeBad (2 ^ 47) 64 = false := by decide +kernel
theorem test_premises_HostMemoryEffects_ways : let s := mapped id
    let p := s.pkg.retried 3
    p.hostDie 64 = some 0 ∧ p.hostDie (hbmBase 7) = none ∧ p.hostDie (hbmBase 0 + 0x3000000000) = some 0 ∧ p.owner (hbmBase 0 + 0x3000000000) = none ∧
    p.hostDie (benchBase 1 0) = some 1 ∧ p.owner (benchBase 1 0) = none ∧ p.rangeBad (benchBase 1 0) 64 = false ∧
    p.headBad 0 = false ∧ p.headBad 1 = false ∧ (faulty1.pkg.retried 0).headBad 1 = true ∧ 65 % 64 ≠ 0 ∧
    (withCore (fun c => { c with benchUE := [0] })).pkg.rangeBad (benchBase 0 0) 64 = true := by decide +kernel
theorem test_premises_HostMemoryEffects_full : directorySize ≤ (List.replicate directorySize 64).length ∧ 128 ∉ (List.replicate directorySize 64) := by
  constructor
  · exact Nat.le_of_eq List.length_replicate.symm
  · intro h; exact absurd (List.eq_of_mem_replicate h) (by decide)
/-- An answer of a snoop whose data the tracker takes, and one that it refuses. -/
theorem test_premises_HostMemoryEffects_answer : ∀ x ∈ [((id : Die → Die), true), ((fun d => { d with waits := [⟨0, .fabric 0, .tracker, false⟩] }), false)],
    (((mapped x.1).pkg.meets .keep).askAll (.answer 64) [] [(64, min 64 [1#8].length)]).2 = x.2 ∧ (mapped x.1).pkg.owner 64 = some 0 := by decide +kernel
theorem test_premises_HostMemoryEffects_waits : ((mapped (fun d => { d with hostq := [⟨0, 64, none, false⟩] })).pkg.die 0).hostq ≠ [] := by decide

theorem test_premises_BenchWindowEffects : s0.pkg.powered = true ∧ s0.pkg.present 0 = true ∧ 63 < 64 ∧ 0x2FFFFF < 0x300000 ∧
    (s0.pkg.die 0).hostq = [] ∧ ((withDie tracking).pkg.die 0).hostq ≠ [] ∧ s0.pkg.phys 0 0 = some 0 ∧ s0.pkg.phys 0 63 = none ∧
    core0.benchBad 0x2FFFF8 8 = false ∧ s0.pkg.headBad 1 = false ∧
    (withPkg (fun p => p.updDie 1 (fun d => { d with faulted := true }))).pkg.headBad 1 = true ∧
    ({ core0 with benchUE := [0x2FFFF8 / 8] } : Core).benchBad 0x2FFFF8 8 = true := by decide

/-! Premises, chapters 8, 9, 11, 12. -/

/-- A command of a type and a stage, with bytes of its descriptor set. -/
def cmd (ty : Nat) (stage : Stage) (bs : List (Nat × Nat)) : Cmd :=
  { d := ((List.range 128).map (fun k => BitVec.ofNat 8 (if k = 0 then ty else ((bs.find? (fun b => b.1 = k)).map Prod.snd).getD 0)))
    ring := 0, prio := 0, seq := 0, arr := 0, stage := stage, fire := some 0, left := [], started := [], fail := none, fin := none, prog := 0
    began := 0, idx := 0, crc := 0#32, tally := [], ues := [], record := [], recAt := none, suspect := 0#32, abortDue := false }
def withCmd (c : Cmd) (f : Pkg → Pkg) : State := withPkg (fun p => f { p with cmds := [(5, c)] })

theorem test_premises_ControlCommandsRun : let ok (c : Cmd) : Bool := (withCmd c id).pkg.powered && (withCmd c id).pkg.cmds.find 5 = some c &&
      c.fin = none && (withCmd c id).pkg.orderOk 5 c && (withCmd c id).pkg.dispatchTurn 5 && !(withCmd c id).pkg.fw.inReset
    ok (cmd 1 .fetched []) = true ∧ (cmd 1 .fetched []).ty = 1 ∧
    ok (cmd 11 .fired []) = true ∧ (cmd 11 .fired []).f 30 1 % 2 = 0 ∧ (cmd 11 .fired [(30, 1)]).f 30 1 % 2 = 1 ∧
    ok (cmd 12 .fired []) = true ∧ ok (cmd 9 .fired []) = true ∧ (cmd 9 .fired [(28, 15)]).f 28 1 / 16 % 2 = 0 ∧
    (cmd 9 .fired [(28, 16)]).f 28 1 / 16 % 2 = 1 ∧ (cmd 9 .fired [(28, 16)]).isShare = false ∧
    (cmd 9 .fired [(28, 48)]).isShare = true := by decide +kernel
/-- A PHASE's record goes into a ledger in DDR5 that bypasses the bench cache, where the tracker lets it. -/
def ledgered (f : Die → Die) : Pkg :=
  let p := ((withCmd (cmd 9 .fired [(28, 16)]) (fun p => p.updDie 0 f)).pkg).setFld aLedgerCtrl fHS_LEDGER_CTRL_SIZE_LOG2 6
  ((p.setFld (rMEM_STATUS.at 0 2 0) fMEM_STATUS_CAPACITY 256).setFld (rCD_BCACHE_CTRL.at 0 0 0) fCD_BCACHE_CTRL_DDR_ALLOC 0).wr
    (rHS_LEDGER_BASE.at 0 0 0 + 4) 0x200#32
theorem test_premises_ControlCommandsRun_ledger : pkg0.ledgerOn = false ∧ (ledgered id).ledgerOn = true ∧
    ∀ x ∈ [((id : Die → Die), true), ((fun d => { d with waits := [⟨0, .host, .tracker, false⟩] }), false)],
      ((ledgered x.1).askAll (.command 5) [] [((ledgered x.1).ledgerAt 0, 64)]).2 = x.2 := by decide +kernel
theorem test_premises_DiePegsSaturate : s0.pkg.dpeg 0 255 < 2 ^ 32 ∧ s0.pkg.dpeg 0 255 + (2 ^ 32 - 1) ≤ 2 ^ 32 - 1 := by decide
theorem test_premises_CommandsEnd : (withCmd (cmd 12 .fired []) id).pkg.cmds.find 5 = some (cmd 12 .fired []) ∧ (cmd 12 .fired []).fin = none ∧
    (cmd 12 .fired []).fail = none ∧ ({ cmd 12 .fired [] with fail := some ⟨2, 0, 0, 0, 0, 9⟩ } : Cmd).fail = some ⟨2, 0, 0, 0, 0, 9⟩ ∧
    endingRank 1 < endingRank 2 := by decide +kernel

/-- An UPDATE on core 0, which runs it, with its record, some of whose bytes are set, and its norm at 0x200; a shard of no element. -/
def update (pass : Nat) (bs : List (Nat × Nat)) (norm : Nat) : State :=
  withCmd { cmd 2 .running [(28, 1), (29, 0), (30, 1), (31, pass), (41, 2), (48, 1)] with
    record := (List.range 256).map (fun k => BitVec.ofNat 8 (((bs.find? (fun b => b.1 = k)).map Prod.snd).getD 0)) } (fun p => { p with
    cores := [(0, { core0 with seq := Seq.init, upd := some (5, 0) })]
    mem := { p.mem with cells := ((List.range 256).map (fun k => (k, 0#8))) ++ (toBytes 4 norm).zipIdx.map (fun x => (0x200 + x.2, x.1)) } })
/-- What the premises of an UPDATE come to: its cores, whether the trackers admit it, and FREEZE. -/
def updSeen (s : State) : Option (List Nat × Bool × Bool) :=
  (s.pkg.cmds.find 5).bind (fun c => (s.pkg.updReady 5 c).map (fun keys => (keys, (s.pkg.updAsk c keys).2, URec.freeze ⟨c.record⟩)))
theorem test_premises_UpdatePassesRun : (∀ pass ∈ [1, 2], updSeen (update pass [] 0) = some ([0], true, false) ∧
    updSeen (update pass [(89, 1)] 0) = some ([0], true, true)) ∧
    updSeen (let s := update 1 [(72, 1), (76, 1)] 0
             { s with pkg := s.pkg.updDie 0 (fun d => { d with waits := [⟨0, .host, .tracker, false⟩] }) }) = some ([0], false, false) := by
  decide +kernel
/-- The norm of a pass 2, if it can be read, and whether its update meets no failed read. -/
def updNorm (s : State) : Option (Option Word × Bool) :=
  (s.pkg.cmds.find 5).map (fun c =>
    let r : URec := ⟨c.record⟩
    let u := (s.pkg.updAsk c [0]).1.fresh.1.updPass c [0] 0 .keep
    ((u.norm c).2, (((u.norm c).1.pass2 r (r.scalars ((u.norm c).2.getD 0#32)) 0).fault.isNone)))
theorem test_premises_UpdatePassesRun_norm : updNorm (update 2 [] 0) = some (some 0#32, true) ∧ (f32 0#32).special = false ∧
    (f32 0x7F800000#32).special = true ∧ updNorm (update 2 [] 0x7F800000) = some (some 0x7F800000#32, true) ∧
    (let s := update 2 [] 0
     (updNorm { s with pkg := { s.pkg with badLines := [(0x200, true)] } }).map Prod.fst = some none) := by decide +kernel

/-- A shard of one element at 0x400, which is uncorrectable. -/
def badShard : State :=
  let s := update 2 [(1, 4), (72, 1), (76, 1), (80, 1)] 0
  { s with pkg := { s.pkg with badLines := [(0x400, true)] } }
theorem test_premises_UpdatePassesRun_fault : updNorm badShard = some (some 0#32, false) := by decide +kernel

/-- An UPDATE at the head of core 0's start queue. -/
def updWaits (rank : Nat) (f : Pkg → Pkg) : State :=
  let s := update 1 [] 0
  { s with pkg := f { s.pkg with cores := [(0, { core0 with seq := Seq.init, startq := [{ entry0 with cmd := 5, upd := true, rank := rank }] })] } }
/-- How its record is read. -/
def recSeen (s : State) : Option (Option Nat) :=
  (s.pkg.cmds.find 5).bind (fun c => match (s.pkg.pull 0 (.command 5) 1 c.tag (c.f 32 8) 256 c.ids .keep).2 with
    | .data bs => some (some bs.length) | .bad .. => some none | .parked => none)
theorem test_premises_UpdatePassesRun_start : (∀ rank ∈ [0, 1], let s := updWaits rank id
      s.pkg.phys 0 0 = some 0 ∧ (s.pkg.core 0).startq = [{ entry0 with cmd := 5, upd := true, rank := rank }] ∧ s.pkg.startable 0 = true ∧
      (s.pkg.cmds.find 5).map Cmd.fail = some none) ∧
    recSeen (updWaits 0 id) = some (some 256) ∧ recSeen (updWaits 0 (fun p => { p with badLines := [(0, true)] })) = some none ∧
    recSeen (updWaits 0 (fun p => p.updDie 0 (fun d => { d with waits := [⟨0, .host, .tracker, false⟩] }))) = none := by decide +kernel
theorem test_premises_UpdatePassesRun_end : ((update 1 [] 0).pkg.core 0).upd = some (5, 0) ∧
    ((update 1 [] 0).pkg.updCmd 5 (fun c => { c with fail := some ⟨2, 0, 0, 0, 0, 0⟩ })).cmds.find 5 ≠ none := by decide +kernel

/-- An engine command (3: COPY, 4: GATHER, 10: DUMP) of one row of 4 bytes that engine 0 of die 0 runs, `prog` bytes done. -/
def engine (ty prog : Nat) (bs : List (Nat × Nat)) : State :=
  let shape := if ty = 4 then [(52, 4), (56, 1), (29, 1)] else [(48, 4), (52, 1)]
  withCmd { cmd ty .running (bs ++ shape) with prog := prog } (fun p => { p.updDie 0 (fun d => { d with engs := [(0, 5)] }) with
    mem := { p.mem with cells := (List.range 16).map (fun k => (k, 1#8)) } })
/-- What the premises of an engine command come to. -/
def engSeen (s : State) : Option (Option Nat × Bool × Nat × Nat × Nat) :=
  (s.pkg.cmds.find 5).map (fun c => (s.pkg.engineOn c 5, c.badSpace, c.xfer.total, c.prog, c.col))
theorem test_premises_EngineCommandsRun_zeros : (engine 4 0 [(29, 9)]).pkg.wayBad 0 0 = false ∧ faulty1.pkg.wayBad 0 (hbmBase 1) = true ∧
    (engine 4 0 []).pkg.outstanding (.engine 0) + (piecesOf 0 4).length ≤ 512 ∧
    ((engine 4 0 []).pkg.askAll (.engine 0) [] (piecesOf 0 4)).2 = true ∧
    (((engine 4 0 []).pkg.updDie 0 (fun d => { d with waits := [⟨0, .host, .tracker, false⟩] })).askAll (.engine 0) [] (piecesOf 0 4)).2 = false := by
  decide +kernel
def engWaits : State := withCmd (cmd 3 .queued []) (fun p => p.updDie 0 (fun d => { d with engq := [5] }))
theorem test_premises_EngineCommandsRun : s0.pkg.powered = true ∧
    (let s := engWaits
     (s.pkg.die 0).engs.find 0 = none ∧ 0 < 8 ∧ s.pkg.nextOf (s.pkg.die 0).engq = some 5 ∧ (s.pkg.cmds.find 5).isSome = true ∧
     (cmd 3 .queued []).prio ≠ 3) := by decide +kernel
theorem test_premises_EngineCommandsRun_moves :
    [engine 3 4 [], engine 3 0 [], engine 4 4 [], engine 4 1 [], engine 4 0 [], engine 10 4 [], engine 10 2 []].map engSeen =
      [(4, 0), (0, 0), (4, 0), (1, 1), (0, 0), (4, 0), (2, 2)].map (fun x : Nat × Nat => some (some 0, false, 4, x.1, x.2)) := by decide +kernel
theorem test_premises_EngineCommandsRun_kinds : (cmd 4 .running [(29, 1)]).f 29 1 % 2 = 1 ∧ (cmd 10 .running []).firedAs 10 = false ∧
    (cmd 10 .fired []).firedAs 10 = true := by decide +kernel
/-- What a pull of a command's engine gives. -/
def pulled (s : State) (f : Die → Die) : Option (Option (List Byte)) :=
  let p := s.pkg.updDie 0 f
  (p.cmds.find 5).bind (fun c => match (p.pull c.engDie (.engine 0) 2 c.tag 0 4 c.ids .keep (piecesOf 64 4) 0).2 with
    | .data b => some (some b) | .bad .. => some none | .parked => none)
theorem test_premises_EngineCommandsRun_pulls : pulled (engine 4 0 []) id = some (some [1#8, 1#8, 1#8, 1#8]) ∧
    pulled (engine 4 0 []) (fun d => { d with waits := [⟨0, .host, .tracker, false⟩] }) = none ∧
    pulled (let s := engine 4 0 []; { s with pkg := { s.pkg with badLines := [(0, true)] } }) id = some none ∧
    ((engine 4 0 [(60, 1)]).pkg.cmds.find 5).map (fun c => (c.f 29 1 / 8 % 2, c.f 60 4)) = some (0, 1) ∧
    ((engine 4 0 [(29, 9)]).pkg.cmds.find 5).map (fun c => (c.f 29 1 / 8 % 2, c.idxLen)) = some (1, 4) := by decide +kernel
theorem test_premises_EngineCommandsRun_segment : let p := (engine 3 0 []).pkg
    p.space 0 0 = .local' 0 ∧ p.wayBad 0 0 = false ∧ p.wayBad 0 64 = false ∧ p.outstanding (.engine 0) + (piecesOf 0 4).length +
      (piecesOf 64 4).length ≤ 512 ∧ (p.askAll (.engine 0) [] (piecesOf 64 4)).2 = true := by decide +kernel
theorem test_premises_EngineCommandsRun_came : (({ (engine 3 0 []).pkg.fab with reads := [⟨5, 9, 2 ^ 48, 4, 0, 0, some [1#8]⟩] } : Fabric).reads.find?
    (fun r => r.cmd = 5 && r.data.isSome)).isSome = true ∧ (engine 3 0 []).pkg.fab.reads = [] := by decide +kernel

/-- A FILL (5) or SCRUB (6) of `n` lines at 0 that waits for die 0's scrub engine, `prog` done. -/
def scrubbing (ty n prog : Nat) (full : Bool) : State :=
  withCmd { cmd ty .queued [(40, 64 * n % 256), (41, 64 * n / 256)] with prog := prog } (fun p => p.updDie 0 (fun d =>
    { d with scrubq := [5], waits := if full then [⟨0, .host, .tracker, false⟩] else [] }))
def scrubSeen (s : State) : Option (Bool × Bool × Bool) :=
  (s.pkg.cmds.find 5).map (fun c =>
    let p := s.pkg.scrubTake 0 5
    let ls := c.nextLines.map (fun l => (l, 64))
    (c.fin.isNone && p.scrubOn 0 5, (if c.ty = 6 then ((p.meets .keep).askAll (.scrub 0) ls [] .stored).2 else (p.askAll (.scrub 0) [] ls .read .fill).2),
     c.prog < c.f 40 8 / 64))
theorem test_premises_ScrubEngineRuns : s0.pkg.owner 0 = some 0 ∧
    (∀ ty ∈ [5, 6], scrubSeen (scrubbing ty 17 0 true) = some (true, false, true) ∧ scrubSeen (scrubbing ty 17 0 false) = some (true, true, true) ∧
      scrubSeen (scrubbing ty 1 0 false) = some (true, true, true)) ∧
    scrubSeen (scrubbing 6 1 1 false) = some (true, true, false) ∧ (scrubbing 6 1 1 false).pkg.awaits 5 = false ∧
    s0.pkg.space 0 0 = .local' 0 ∧ s0.pkg.space 0 32 = .local' 32 ∧ (∀ full ∈ [true, false],
      ((((scrubbing 6 1 1 full).pkg.scrubTake 0 5).meets .keep).askAll (.scrub 0) [] (piecesOf 32 128)).2 = !full) := by decide +kernel

theorem test_premises_ScrubEngineRuns_host : (match s0.pkg.space 1 0x1000 with | .host _ => true | _ => false) = true ∧ s0.pkg.hostMem = true ∧
    ({ s0.pkg with port := { s0.pkg.port with cacheEn := false } } : Pkg).hostMem = false := by decide +kernel
/-- A collective of die 0 that waits for a stream; its group of the two dies' members is in memory (the table at 0). -/
def member (n : Nat) : Nat := memberEntry pkg0.coord n
def groupMem : List Byte := toBytes 8 2 ++ toBytes 8 0x80 ++ List.replicate 112 0#8 ++ toBytes 4 (member 0) ++ toBytes 4 (member 1)
def collWaits : State :=
  withCmd (cmd 7 .queued []) (fun p => { p.updDie 0 (fun d => { d with collq := [5] }) with
    mem := { p.mem with cells := groupMem.zipIdx.map (fun x => (x.2, x.1)) } })
/-- How a collective's group is read: its members; whether a refusal makes it wait. -/
def groupSeen (f : Pkg → Pkg) (coord : Nat) : Option (List Nat × Option Nat) ⊕ Bool :=
  let p := f collWaits.pkg
  match (p.groupOf 0 (streamReq 0 0) (cmd 7 .queued []) (p.rd64 aGroupBase % 2 ^ 48) (cmd 7 .queued []).collGroup .keep).2 with
  | .ok ms => .inl (some (ms, ms.findIdx? (fun m => m % 2 ^ 17 = memberEntry coord 0)))
  | .error b => .inr b
theorem test_premises_CollectivesRun_start : let s := collWaits
    s.pkg.powered = true ∧ s.pkg.nextColl 0 = some 5 ∧ (s.pkg.die 0).streams = [] ∧ 0 < 16 ∧ (cmd 7 .queued []).prio ≠ 3 ∧
    ((Stream.start 5 0 [] []).members.isEmpty && !(Stream.start 5 0 [] []).parked) = true ∧ (cmd 7 .queued []).collOp ≠ 3 ∧
    groupSeen id 0 = .inl (some ([member 0, member 1], some 0)) ∧ groupSeen id 9 = .inl (some ([member 0, member 1], none)) ∧
    groupSeen (fun p => { p with badLines := [(0, true)] }) 0 = .inr false ∧
    groupSeen (fun p => p.updDie 0 (fun d => { d with waits := [⟨0, .host, .tracker, false⟩] })) 0 = .inr true ∧
    [(⟨0, 0, 0, 0, 0, some (1, 2)⟩ : ReadyRec)].findSome? ReadyRec.halted = some (1, 2) ∧
    ([member 0, member 1].zipIdx.any (fun m => m.2 ≠ 0 && s.pkg.memberBad 0 (cmd 7 .queued []) m.1)) = false ∧
    ([member 0, member 1].zipIdx.any (fun m => m.2 ≠ 0 && (s.pkg.updDie 1 (fun d => { d with faulted := true })).memberBad 0
      (cmd 7 .queued []) m.1)) = true := by decide +kernel

/-- A stream of die 0, rank 0 of two, changed by `f`, of a collective with some bytes set. -/
def stream0 (f : Stream → Stream) : Stream := f (Stream.start 5 0 [member 0, member 1] [])
/-- What the premises of a stream come to: whether codes or a contribution are next, a grant, a shard to send, and what is complete. -/
def streamSeen (bs : List (Nat × Nat)) (f : Stream → Stream) : List Bool :=
  let c := cmd 7 .running bs
  let t := stream0 f
  let p := (withCmd c (fun p => p.updDie 0 (fun d => { d with streams := [(0, t)] }))).pkg
  [p.streamCmd 0 0 = some (t, c) && !t.parked, (t.nextCodes c).isSome, t.nextContrib.isSome, (p.grantNext 0 0 t c).isSome, (p.gatherStep 0 0 t c .keep).isSome,
   t.reduced c, t.gathered c]
theorem test_premises_CollectivesRun_reduce : streamSeen [(40, 1)] id = [true, true, false, true, false, false, true] ∧
    streamSeen [] (fun t => { t with agreed := [(0, 5)] }) = [true, false, true, true, false, true, true] ∧
    streamSeen [] id = [true, false, false, true, false, true, true] ∧ (cmd 7 .running []).ranked = false := by decide +kernel
theorem test_premises_CollectivesRun_ranked : (cmd 7 .running [(28, 4)]).ranked = true ∧
    streamSeen [(28, 4)] id = [true, false, false, true, false, true, true] ∧
    streamSeen [(28, 4)] (fun t => { t with granted := 2 }) = [true, false, false, false, false, true, true] ∧
    (stream0 (fun t => { t with grants := [1], ready := [1] })).nextRank = some 1 ∧ (stream0 id).nextRank = none ∧
    (let t := stream0 (fun t => { t with commits := 2, ackd := [0, 1] }); t.commits = t.n ∧ t.ackd.length = t.n) ∧
    (let t := stream0 id; t.commits < t.n) := by decide +kernel
theorem test_premises_CollectivesRun_gather : (cmd 7 .running [(28, 1)]).collOp = 1 ∧
    streamSeen [(28, 1), (64, 4)] (fun t => { t with ready := [1] }) = [true, false, false, true, true, true, false] ∧
    streamSeen [(28, 1)] id = [true, false, false, true, false, true, true] := by decide +kernel
theorem test_premises_CollectivesRun_allReduce : (cmd 7 .running [(28, 2)]).collOp = 2 ∧
    streamSeen [(28, 2), (40, 1)] id = [true, true, false, true, false, false, false] ∧
    streamSeen [(28, 2)] (fun t => { t with agreed := [(0, 5)] }) = [true, false, true, true, false, true, true] ∧
    streamSeen [(28, 2)] id = [true, false, false, true, false, true, true] ∧
    streamSeen [(28, 2), (40, 1)]
      (fun t => { t with ready := [1], sentExp := [0], agreed := [(0, 5)], sentC := [0], own := [(0, ⟨[], some 5, [0, 1]⟩)], ackd := [0] }) =
      [true, false, false, true, true, true, false] := by decide +kernel

/-- An EPOCH in progress. -/
def epoch1 (new : Nat) (f : Fw → Fw) : State := withCmd (cmd 8 .running [(28, new)]) (fun p => { p with
  fw := f { p.fw with epochCmd := some 5 }
  mem := { p.mem with cells := groupMem.zipIdx.map (fun x => (x.2, x.1)) } })
theorem test_premises_EpochAndSlowness : (epoch1 0 id).pkg.epochNow = some (5, cmd 8 .running [(28, 0)]) ∧
    (cmd 8 .running [(28, 0)]).f 28 2 = s0.pkg.fld aEpoch fHS_EPOCH_CUR ∧ (cmd 8 .running [(28, 1)]).f 28 2 ≠ s0.pkg.fld aEpoch fHS_EPOCH_CUR ∧
    (epoch1 1 (fun f => { f with epochSent := true })).pkg.fencesIn 1 = true ∧
    (epoch1 1 (fun f => { f with epochSent := true, epochNeed := [3] })).pkg.fencesIn 1 = false ∧
    (epoch1 1 id).pkg.olderRunning (cmd 8 .running [(28, 1)]) = false ∧
    ({ pkg0 with cmds := [(1, cmd 7 .running [])] } : Pkg).olderRunning { cmd 8 .running [] with fire := some 1 } = true ∧
    (cmd 8 .running [(28, 1)]).ty = 8 ∧ (cmd 8 .running [(28, 1)]).fin = none := by decide +kernel
/-- How an EPOCH's group is read: its number of members; whether a refusal makes it wait. -/
def epochSeen (f : Pkg → Pkg) : Nat ⊕ Bool :=
  let p := f (epoch1 1 id).pkg
  match (p.groupOf 0 (.command 5) (cmd 8 .running [(28, 1)]) (p.rd64 aGroupBase % 2 ^ 48) 0 .keep).2 with
  | .ok ms => .inl ms.length
  | .error b => .inr b
theorem test_premises_EpochAndSlowness_group : epochSeen id = .inl 2 ∧ epochSeen (fun p => { p with badLines := [(0, true)] }) = .inr false ∧
    epochSeen (fun p => p.updDie 0 (fun d => { d with waits := [⟨0, .host, .tracker, false⟩] })) = .inr true ∧
    epochSeen (fun p => { p with mem := p.mem.write 0 (toBytes 4 0) }) = .inl 0 ∧
    (let p := (epoch1 1 id).pkg
     ({ p with fw := { p.fw with epochSent := true, epochNeed := [] } } : Pkg).fencesIn 1 = true) := by decide +kernel

def suspectOf (phases : Nat) : Word := putFlds 0#32 [(fHS_SUSPECT_PHASES, phases)]
/-- A share of `n` ranks has completed; its records are 64 bytes of 0 each. -/
def shared (n phases : Nat) : Pkg :=
  { pkg0 with
    fw := { pkg0.fw with shares := [⟨List.replicate 64 0#8, some 0, n, 0, suspectOf phases⟩] }
    mem := { pkg0.mem with cells := (List.range 192).map (fun k => (k, 0#8)) } }
/-- What firmware reads of it: whether the tracker lets it, and how many records it compares. -/
def sharesSeen (p : Pkg) : List (Bool × Nat) := p.fw.shares.map (fun s =>
  let at' := (List.range s.n).map (fun i => s.dst + 64 * i)
  let q := p.askAll .firmware (at'.map (fun a => (a, 64))) []
  (q.2, (s.compared (Pkg.readRecords at' q.1).2).length))
theorem test_premises_EpochAndSlowness_shares : (shared 3 1).served = true ∧ sharesSeen (shared 2 1) = [(true, 2)] ∧ sharesSeen (shared 3 1) = [(true, 3)] ∧
    (sharesSeen ((shared 3 1).updDie 0 (fun d => { d with waits := [⟨0, .host, .tracker, false⟩] }))).map Prod.fst = [false] ∧
    bits (suspectOf 1) fHS_SUSPECT_PHASES.lo fHS_SUSPECT_PHASES.w / 2 ^ 0 % 2 = 1 ∧
    bits (suspectOf 0) fHS_SUSPECT_PHASES.lo fHS_SUSPECT_PHASES.w / 2 ^ 0 % 2 = 0 := by decide +kernel

/-! Premises, chapters 10 to 13. -/

/-- Port 0 with lane group 0 up and its neighbour known; a torus of 4 × 4 whose default routes are filled. -/
def linked (f : Pkg → Pkg) : State :=
  let q : Port := { Port.init with groups := [(0, { Group.init with up := true })], nbrOk := true, nbr := 1 }
  withPkg (fun p => f { p with fab := { p.fab with ports := [(0, q)], fill := (0, 4, 4) } })
/-- A frame of a type to a package. -/
def frame (ty dst hops : Nat) : Frame := { Frame.mk' ty dst 0 0 7 with hops := hops, src := 1 }
/-- Where a frame goes next: `none`: it is not delivered. -/
def hopSeen (s : State) (f : Frame) (i : Nat) : Option (Option (Nat × Nat)) :=
  match (s.pkg.countRx i 0 f).nextHop f (some i) with | .ok x => some x | .error _ => none
theorem test_premises_FramesArrive : let s := linked id
    s.pkg.powered = true ∧ s.pkg.fw.inReset = false ∧ (frame 1 0 9).ty = 1 ∧ s.pkg.jobAborted 7 = false ∧
    (linked (fun p => (p.setFld (aJob 3) fFAB_JOB_JOB 7).setFld (aJob 3) fFAB_JOB_STATE 2)).pkg.jobAborted 7 = true ∧
    s.pkg.open' 1 = false ∧ s.pkg.open' 0 = true ∧ hopSeen s (frame 1 0 9) 0 = some none ∧ hopSeen s (frame 1 1 9) 0 = some (some (0, 0)) ∧
    hopSeen s (frame 1 3 9) 0 = none ∧ routed 0x1F = true ∧ s.pkg.coord = 0 ∧
    (let q := linked (fun p => { p with fab := { p.fab with inbox := [(4, frame 2 0 9), (0, frame 2 0 9)] } })
     tcOf 1 = 2 ∧ (4, frame 2 0 9) ∈ q.pkg.fab.inbox ∧ tcOf 2 = 2 ∧ (frame 2 0 9).dstDie = (frame 1 0 9).dstDie ∧
     q.pkg.behind (frame 1 0 9) = true ∧ s.pkg.behind (frame 1 0 9) = false ∧ (0, frame 2 0 9) ∈ q.pkg.fab.inbox ∧
     sameVc (frame 2 0 9) (frame 1 0 9) = true) ∧
    (linked (fun p => p.updFw (fun f => { f with inReset := true }))).pkg.fw.inReset = true := by decide +kernel

theorem test_premises_FramesRoute : let p := (linked (fun p => { p with fab := { p.fab with routes := [(5, 7), (6, 4)] } })).pkg
    p.route 0 0 % 8 = 4 ∧ 0 = p.coord ∧ p.route 0 6 % 8 = 4 ∧ 6 ≠ p.coord ∧ 5 ≤ p.route 0 5 % 8 ∧ p.route 0 1 % 8 = 0 ∧ p.open' 0 = true ∧
    p.route 0 3 % 8 = 1 ∧ p.open' 1 = false := by decide +kernel

/-- A collective in progress, and frames of its triple. -/
def running (bs : List (Nat × Nat)) (f : Stream → Stream) : Pkg :=
  (withCmd (cmd 7 .running bs) (fun p => p.updDie 0 (fun d => { d with streams := [(0, stream0 f)] }))).pkg
def okBytes (r : Except Nat (List Byte)) : Option (List Byte) := match r with | .ok bs => some bs | .error _ => none
theorem test_premises_CollectiveFramesAct : let p := running [(28, 4)] (fun t => { t with slots := [(1, 0)] })
    p.findStream 0 0 0 0 = some (0, stream0 (fun t => { t with slots := [(1, 0)] }), cmd 7 .running [(28, 4)]) ∧
    (stream0 id).rankOf { frame 0x13 0 9 with src := p.coord, srcDie := 1 } = some 1 ∧ (cmd 7 .running [(28, 4)]).ranked = true ∧
    okBytes (unsegs 0 []) = some [] ∧ okBytes (unsegs 0 [0#8]) = none ∧ (p.collAsk 0 0 (blockPieces 0) []).2 = true ∧
    ((p.updDie 0 (fun d => { d with waits := [⟨0, .host, .tracker, false⟩] })).collAsk 0 0 (blockPieces 0) []).2 = false ∧
    (p.collAsk 0 0 [] (piecesOf 0 4)).2 = true ∧ p.hungTriple 0 0 0 0 = false ∧
    (pkg0.updDie 0 (fun d => { d with hung := [(0, 0, 0)] })).hungTriple 0 0 0 0 = true ∧ p.streamCmd 0 0 =
      some (stream0 (fun t => { t with slots := [(1, 0)] }), cmd 7 .running [(28, 4)]) ∧ (stream0 (fun t => { t with slots := [(1, 0)] })).slots.find 1 = some 0 ∧
    pkg0.findStream 0 0 0 0 = none ∧ (pkg0.die 0).ready.length < 4096 ∧ pkg0.epochNow = none := by decide +kernel
theorem test_premises_CollectiveFramesAct_full : 4096 ≤ (List.replicate 4096 (⟨0, 0, 0, 0, 0, none⟩ : ReadyRec)).length := Nat.le_of_eq List.length_replicate.symm

/-- A SHARD for the member of die 0; damaged, or refused by the tracker. -/
def shard1 (data : List Byte) : Frame := { frame 0x18 0 9 with src := 0, srcDie := 1, payload := data }
def shardAsk (f : Die → Die) (bs : List Byte) : Bool :=
  let p := (running [(28, 1), (64, 4)] id).updDie 0 f
  ((p.shardFor (shard1 [])).foldl (fun (q : Pkg × Bool) x =>
    if q.2 then q.1.collAsk x.1 x.2.1 [] (p.shardWrites x.1 x.2.2.2.1 x.2.2.1.n x.2.2.2.2 0 bs.length) else q) (p, true)).2
theorem test_premises_CollectiveFramesAct_shards : let p := running [(28, 1), (64, 4)] id
    (p.shardFor (shard1 [])).map (fun x => (x.1, x.2.1, x.2.2.2.2)) = [(0, 0, 1)] ∧
    okBytes (unsegs 0 (segment [1#8, 2#8, 3#8, 4#8])) = some [1#8, 2#8, 3#8, 4#8] ∧ okBytes (unsegs 0 [0#8]) = none ∧
    shardAsk id [1#8, 2#8, 3#8, 4#8] = true ∧ shardAsk (fun d => { d with waits := [⟨0, .host, .tracker, false⟩] }) [1#8, 2#8, 3#8, 4#8] = false ∧
    p.pathBad 0 0 = false ∧ p.shardBad 0 (cmd 7 .running [(28, 1), (64, 4)]) = false ∧
    (p.updDie 1 (fun d => { d with faulted := true })).shardBad 0 (cmd 7 .running [(28, 1), (29, 2), (64, 4)]) = true := by decide +kernel
theorem test_premises_CollectiveFramesAct_codes : let p := running [] (fun t => { t with agreed := [(0, 5)] })
    (stream0 id).sentC = [] ∧ p.streamCmd 0 0 = some (stream0 (fun t => { t with agreed := [(0, 5)] }), cmd 7 .running []) ∧
    ((stream0 (fun t => { t with ready := [1] })).ready.contains 1) = true ∧ (stream0 id).sentR.contains 1 = false ∧
    p.epochNow = none := by decide +kernel

/-- Frames of copies and pegs, and what they answer. -/
def copying : Pkg := (engine 3 0 []).pkg
def copyFab (p : Pkg) : Pkg := { p with fab := { p.fab with
  reads := [⟨5, 9, 2 ^ 48, 4, 0, 0, none⟩], writes := [⟨5, 9, 0, 2 ^ 48, 4⟩], psigs := [⟨0, some 0, 1, 0, 2 ^ 15, 9⟩] } }
/-- Whether the tracker lets a READ's lines in, and its data. -/
def readSeen (p : Pkg) (a : Nat) : Bool × Option (List Byte) :=
  let r := (p.meets .keep).askAll (.fabric 0) (piecesOf a 4) []
  (r.2, match (r.1.pullNow 0 6 0 a 4 ⟨0, 0, 0⟩ .keep).2 with | .data bs => some bs | _ => none)
theorem test_premises_CopyFramesAct : readSeen copying 0 = (true, some [1#8, 1#8, 1#8, 1#8]) ∧
    readSeen { copying with badLines := [(0, true)] } 0 = (true, none) ∧
    readSeen (copying.updDie 0 (fun d => { d with waits := [⟨0, .host, .tracker, false⟩] })) 0 = (false, some [1#8, 1#8, 1#8, 1#8]) ∧
    ((copying.meets .keep).askAll (.fabric 0) [] (piecesOf 0 4)).2 = true ∧
    ((copyFab copying).fab.reads.find? (fun x => x.tag = 9 && ofPackage 1 x.src && x.data.isNone)).isSome = true ∧
    ((copyFab copying).fab.writes.find? (fun x => x.tag = 9 && ofPackage 1 x.dst)).isSome = true ∧ (copyFab copying).cmds.find 5 ≠ none ∧
    (payloadAt 0 0 (segment [1#8, 2#8])).map (fun y => y.2.2) = [true] ∧
    (payloadAt 0 0 ((segment [1#8, 2#8]).drop 1)).map (fun y => y.2.2) = [false] ∧
    (copyFab copying).spaceBad 0 (.local' 0) = false ∧ ((copyFab copying).updDie 1 (fun d => { d with faulted := true })).spaceBad 0
      (.local' (hbmBase 1)) = true ∧ ((copyFab copying).askAll (.engine 0) [] (((copyFab copying).space 0 0).writes 4)).2 = true ∧
    (copyFab copying).awaits 5 = true ∧ ({ copyFab copying with fab := { (copyFab copying).fab with reads := [], writes := [] } } : Pkg).awaits 5 = false := by
  decide +kernel
/-- Data that has come: whether its destination lets it in. -/
def came (f : Die → Die) : Bool :=
  let p := copying.updDie 0 f
  (p.askAll (.engine 0) [] ((p.space 0 0).writes 1)).2
theorem test_premises_CopyFramesAct_came : came id = true ∧ came (fun d => { d with waits := [⟨0, .host, .tracker, false⟩] }) = false ∧
    (copying.cmds.find 5).map (fun c => (c.engDie, c.xfer.dstSp)) = some (0, 0) ∧ copying.spaceBad 0 (.local' 0) = false ∧
    (copying.updDie 1 (fun d => { d with faulted := true })).spaceBad 0 (.local' (hbmBase 1)) = true ∧
    ((withCmd (cmd 6 .queued []) id).pkg.cmds.find 5).map Cmd.ty = some 6 ∧ (copying.cmds.find 5).map Cmd.ty = some 3 := by decide +kernel
theorem test_premises_CopyFramesAct_pegs : copying.phys (0 / 2 ^ 15 % 8) (1 * 2 ^ 9 / 2 ^ 9 % 64) = some 1 ∧ copying.present 1 = true ∧
    copying.phys 0 63 = none ∧
    ((copyFab copying).fab.psigs.find? (fun o => o.is 0 1 (coreSeq (some 0)) (o.target) 9)).isSome = true ∧
    (Frame.ofHeader (frame 1 1 9).header).ty = 1 := by decide +kernel

theorem test_premises_AbortsFlood : let s := linked id
    let f : Frame := { frame 0x20 0 9 with aux := 1, seq := 3 }
    s.pkg.powered = true ∧ f.ty = 0x20 ∧ f.hops ≠ 0 ∧ 0 < 4 ∧ s.pkg.open' 0 = true ∧ s.pkg.open' 1 = false ∧
    ((s.pkg.countRx 0 0 f).fab.keys.any (fun k => k.1 = f.job && k.2.1 = f.aux % 2 ^ 14 && k.2.2.1 = f.seq)) = false ∧
    (({ (s.pkg.countRx 0 0 f).fab with keys := [(7, 1, 3, 0)] } : Fabric).keys.any
      (fun k => k.1 = f.job && k.2.1 = f.aux % 2 ^ 14 && k.2.2.1 = f.seq)) = true ∧
    s.pkg.fab.keys = [] := by decide +kernel

/-- A flit whose link header is `head` and whose first byte of frame data is `b`, the rest zeros, and whose CRC holds. -/
def flit (head b : Nat) : Flit :=
  let bs := toBytes 6 head ++ [BitVec.ofNat 8 b] ++ List.replicate 241 0#8
  ⟨bs ++ toBytes 8 (crc64 bs).toNat, true⟩
set_option maxRecDepth 20000 in
theorem test_premises_LinksAct : let s := linked id
    let x := (s.pkg.tport 0).group 0
    s.pkg.powered = true ∧ x.up = true ∧ (flit 0 0).good = true ∧ (flit 0 0).idle = true ∧ (flit 0 0xFF).idle = true ∧ (flit 0 1).idle = false ∧
    (flit 0 1).good = true ∧ (flit 0 1).seq = x.rxSeq ∧ (flit (2 ^ 11) 1).seq ≠ x.rxSeq ∧ ({ flit 0 1 with fecOk := false } : Flit).good = false ∧
    x.replaying = false ∧ ({ x with replaying := true } : Group).replaying = true ∧ (s.pkg.tport 1).group 0 = Group.init ∧ Group.init.up = false := by
  decide +kernel
theorem test_premises_LinksAct_train : let p := (linked (fun p => p.updGroup 1 0 (fun g => { g with trainSince := some 0, idSeen := true, tsSeen := true }))).pkg
    let x := (p.tport 1).group 0
    x.trainSince = some 0 ∧ p.mayTrain 1 0 = true ∧ x.up = false ∧ p.ftc.now ≤ 0 + 100000000 ∧ x.idSeen = true ∧ x.tsSeen = true ∧
    p.lit 1 0 = true ∧ (p.tport 1).groups.any (fun g => g.2.up || g.2.trainSince.isSome) = true ∧
    ({ x with rtx := [⟨5, [], []⟩] } : Group).rtx.any (fun t => t.seq = 5) = true := by decide +kernel
theorem test_premises_LinksAct_sends : (linked id).pkg.txPart 0 0 = TxPart.none ∧ (frame 2 1 9).bytes.length < 242 ∧ (linked id).pkg.portUp 0 = true := by
  decide +kernel
theorem test_premises_LinksAct_losses : ((0 : Nat) :: ([] : List Nat).filter (fun t => 0 < t + 1000000000)).length < 3 ∧
    3 ≤ ((0 : Nat) :: [0, 0].filter (fun t => 0 < t + 1000000000)).length ∧ 8 ≤ 7 + 1 := by decide
theorem test_premises_LinksAct_neighbour : let p := (linked (fun p => (p.setFld aDim fFAB_DIM_SX 4).setFld aDim fFAB_DIM_SY 4)).pkg
    dimOf (p.fld aDim fFAB_DIM_SX) = 4 ∧ (p.px + 1) % 4 = 1 ∧ p.py = 0 := by decide +kernel

/-- A follower on port 0, ACQUIRING after 63 good exchanges, or in another state. -/
def follower (f : Ftc → Ftc) : State := linked (fun p => { p.updPort 0 (fun q => { q with tx := [0] }) with ftc := f { p.ftc with parent := 0, st := .acquiring, good := 63 } })
def tsync (off : Int) : Tsync := ⟨some (0, off), 0, 0, 1, 3, true⟩
theorem test_premises_TimeSteers : let s := follower id
    s.pkg.powered = true ∧ s.pkg.open' 0 = true ∧ s.pkg.open' 1 = false ∧ s.pkg.isGM = false ∧ s.pkg.ftc.parent = 0 ∧ s.pkg.ftc.st = .acquiring ∧
    (tsync 64).echo = some (0, 64) ∧ (s.pkg.tport 0).tx.contains 0 = true ∧ (s.pkg.tport 0).tx.contains 7 = false ∧ (tsync 64).depth ≠ 255 ∧
    64 ≤ s.pkg.ftc.good + 1 ∧ (follower (fun t => { t with good := 0 })).pkg.ftc.good + 1 < 64 ∧
    (follower (fun t => { t with st := .locked })).pkg.ftc.st = .locked := by decide +kernel
theorem test_premises_TimeSteers_parent : let s := follower (fun t => { t with parent := 7, st := .free })
    s.pkg.ftc.parent = 7 ∧ s.pkg.bestPort = none ∧
    ((s.pkg.updPort 0 (fun q => { q with adv := some (1, 3) })).bestPort.map (fun x => x.2.2)) = some 0 := by decide +kernel
/-- A clock in HOLDOVER runs on as it was steered; the best offset of a grandmaster. -/
theorem test_premises_TimeSteers_holds : (follower id).pkg.ftcLost = false ∧ (follower (fun t => { t with everLocked := true })).pkg.ftc.everLocked = true ∧
    (∀ r ∈ [(1 : Int), -1], let f : Ftc := { pkg0.ftc with st := .holdover, rate := r, now := 5000 }
      f.slewed.2 ≠ 1 ∧ f.st = .holdover) ∧ pkg0.ftc.best = 0 ∧ (tsync 64).depth ≠ 255 := by decide +kernel
theorem test_premises_TimeSteers_slews : ∀ k ∈ [(1 : Int), -1], let f : Ftc := { pkg0.ftc with slew := k, now := 5000 }
    f.slewed.2 ≠ 1 := by decide +kernel
theorem test_premises_TimeSteers_clock : (follower (fun t => { t with st := .holdover })).pkg.served = true ∧
    (let s := linked (fun p => { p.setFld (rFTC_CTRL.at 0 0 0) fFTC_CTRL_GM 1 with ftc := { p.ftc with firstUp := some 0 } })
     s.pkg.ftc.firstUp = some 0 ∧ s.pkg.isGM = true ∧ s.pkg.ftc.serving = false ∧ s.pkg.ftc.parent = 7) ∧
    (pkg0.setFld (rFAB_RT_STATUS.at 0 0 0) fFAB_RT_STATUS_PEND 1).fld (rFAB_RT_STATUS.at 0 0 0) fFAB_RT_STATUS_PEND = 1 ∧
    0x300000 % 8 = 0 ∧ latches 0x300000 = true ∧ latches 0x300004 = true ∧ (pkg0.linkUp && pkg0.port.memSpace) = true := by decide +kernel

theorem test_premises_RegisterWritesArrive : pkg0.powered = true ∧ 15 < 16 ∧ 3 < 4 ∧ pkg0.linkUp = true ∧ pkg0.mayReach .bar0 = true ∧
    ((65536 ≤ pkg0.fw.jbuf.length) || !pkg0.fw.jheld.isEmpty) = false ∧
    (!({ pkg0.fw with jheld := [⟨0x204, 4, 1, .bar0, none⟩] } : Fw).jheld.isEmpty) = true ∧
    ({ pkg0 with port := { pkg0.port with memSpace := false } } : Pkg).mayReach .bar0 = false ∧ pkg0.port.memSpace = true ∧
    (pkg0.hdmAt 3).committed = false ∧ (let p := { pkg0 with port := { pkg0.port with hdm := [(0, ⟨0, 0, 0, true⟩)] } }
      ∀ j, j < 1 → (p.hdmAt j).committed = true) ∧ 0xFFF % 2 = 1 ∧ 0xFFE % 2 = 0 := by decide +kernel
theorem test_premises_RegisterWritesArrive_hdm : (pkg0.hdmAt 0).committed = false ∧ 2 ^ 9 / 2 ^ 9 % 2 = 1 ∧ (2 ^ 9 - 1) / 2 ^ 9 % 2 = 0 ∧
    hdmSlot 0x204 = none ∧ (∃ j, j < 1 ∧ (pkg0.hdmAt j).committed = false) ∧ (∀ j, j < 0 → (pkg0.hdmAt j).committed = true) ∧
    ({ pkg0.fw with jwait := [⟨0, 0, 3, 3, 8, true, 0, 0⟩] } : Fw).jwait.isEmpty = false ∧
    ({ pkg0 with port := { pkg0.port with hdm := [(0, ⟨0, 0, 0, true⟩)] } } : Pkg).hdmAt 0 = ⟨0, 0, 0, true⟩ :=
  ⟨by decide, by decide, by decide, by decide, ⟨0, by decide, by decide⟩, fun _ h => absurd h (Nat.not_lt_zero _), by decide, by decide⟩
/-- A shadow word of block 5, and one of the bank switch's block. -/
theorem test_premises_TriggersAct : 5 < 6 ∧ 15 < 16 ∧ pkg0.present (8 - 8) = true ∧
    ([(rCORE_KERF_RT.at 0 0 0, 1#32)].any (fun e => e.1 = rFAB_RT_SWITCH.at 0 0 0 || e.1 = rFAB_RT_AT.at 0 0 0 || e.1 = rFAB_RT_AT.at 0 0 0 + 4)) = false ∧
    ([(rFAB_RT_SWITCH.at 0 0 0, 1#32)].any (fun e => e.1 = rFAB_RT_SWITCH.at 0 0 0)) = true ∧ pkg0.fw.inReset = false ∧
    pkg0.fw.resetReq = none ∧ 2 ^ 15 - 1 < 2 ^ 15 ∧ 2 ^ 12 - 1 < 2 ^ 12 := by decide +kernel

/-- Ring 1 with one command, a NOP of a job, in host memory; fetching on. -/
def ring1 : Ring := ⟨true, 0, 4, 0, 2, 0, 1⟩
def fetching (job : Nat) (f : Pkg → Pkg) : Pkg :=
  let p := pkg0.setFld (rRING_CTRL.at 0 0 0) fRING_CTRL_FETCH 1
  f { p with rings := [(1, ring1)], cqs := [(2, ⟨true, 0x1000, 6, 3, 2, 5, 0, 0, 1, 0⟩)]
             host := { p.host with cells := (List.range 64).map (fun k => (k, BitVec.ofNat 8 (if k = 0 then 12 else if k = 2 then job else 0))) } }
theorem test_premises_RingsAct : (fetching 0 id).powered = true ∧ (fetching 0 id).port.memSpace = true ∧ 32767 < 32768 ∧ 4095 < 4096 ∧
    ((fetching 0 id).ring 1).en = true ∧ ((fetching 0 id).ring 0).en = false ∧ (fetching 0 id).fw.inReset = false ∧
    (fetching 0 id).hostMem = true ∧ (fetching 0 id).fld (rRING_CTRL.at 0 0 0) fRING_CTRL_FETCH = 1 ∧
    (fetching 0 id).fetchRing = some (1, ring1) ∧ (fetching 0 (fun p => { p with rings := [] })).fetchRing = none ∧
    knownType 12 = true ∧ knownType 13 = false := by decide +kernel
theorem test_premises_RingsAct_job : ((fetching 7 id).hostRead 2 1) = [7#8] ∧
    ((fetching 7 (fun p => (p.setFld (aJob 0) fFAB_JOB_JOB 7).setFld (aJob 0) fFAB_JOB_STATE 2)).jobAborted 7) = true := by decide +kernel
theorem test_premises_RingsAct_entry : let c (st : Nat) : Cmd := { cmd 12 .done [] with ring := 1, fin := some ⟨st, 0, 0, 0, 0, 0⟩ }
    (fetching 0 id).entryRoom (c 0) = true ∧ (fetching 0 (fun p => { p with cqs := [] })).entryRoom (c 0) = false ∧
    (3 : Nat) ≠ 0 ∧ ((fetching 0 id).cq 2).intCount ≤ ((fetching 0 id).cq 2).uncovered + 1 ∧
    0 + 1 < ((fetching 0 id).cq 2).intCount ∧ ((fetching 0 id).cq 2).intTime ≠ 0 ∧ ((fetching 0 id).cq 2).uncovered ≠ 0 ∧
    ((fetching 0 id).cq 9).uncovered = 0 ∧ (fetching 0 id).linkUp = true := by decide +kernel

/-- A KERNEL that waits for peg 3 of die 0 to have 2 and 3, of two WAITs; the peg has `n`. -/
def waitsFor (n : Nat) : Pkg × Cmd :=
  let c := { cmd 1 .firing [(28, 1), (30, 1), (12, 2), (14, 0x30), (15, 0x80), (16, 3), (18, 0x30), (19, 0x80)] with fire := none }
  ((withCmd c (fun p => p.setDpeg 0 3 n)).pkg, c)
theorem test_premises_RingsAct_fires : (∀ x ∈ [(4, false), (5, true)], let p := (waitsFor x.1).1
      let c := (waitsFor x.1).2
      ((∀ w ∈ c.waits, p.present w.1 = true ∧ ((c.waits.filter (fun v => v.1 = w.1 && v.2.1 = w.2.1)).map (fun v => v.2.2)).sum ≤ p.dpeg w.1 w.2.1) ∧
        p.mayFire c [] = true) ↔ x.2 = true) ∧ (waitsFor 0).2.ty = 1 ∧ (waitsFor 0).2.waits = [(0, 3, 2), (0, 3, 3)] ∧ 8 % 8 = 0 ∧ 8 % 1000 ≠ 0 := by decide +kernel
theorem test_premises_RingsAct_places : let p := (waitsFor 5).1
    let c := (waitsFor 5).2
    p.cmds.find 5 = some c ∧ p.coreSet c = [0] ∧ 0 ∈ [0] ∧ p.roomFor c = true ∧ (∀ x ∈ p.coreSet c, x ∉ ([] : List Nat)) ∧
    (p.phys 0 0).isSome = true ∧ (p.setCore 0 { core0 with startq := List.replicate 4 entry0 }).roomFor c = false := by decide +kernel

theorem test_premises_PackageResetsRun : pkg0.powered = true ∧ pkg0.served = true ∧
    (withPkg (fun p => { p with fw := { p.fw with resetReq := some 0x71, readies := [0, 0] } })).pkg.fw.resetReq = some 0x71 ∧ 0x71 ≠ 0x77 ∧
    2 ≤ ([0, 0].filter (fun t => 0 < t + 3600 * ticksPerSecond)).length ∧ ([0].filter (fun t => 0 < t + 3600 * ticksPerSecond)).length < 2 ∧
    pkg0.fw.running.isSome = true ∧ pkg0.present 1 = true ∧ pkg0.linkUp = true ∧ Pkg.reset.linkUp = false := by decide +kernel

/-- Core 0 of die 0 is due for its test; core 5 is a spare; `f` changes the package. -/
def testing (f : Pkg → Pkg) : Pkg :=
  f { pkg0.setFld (rCD_KAT_CTRL.at 0 0 0) fCD_KAT_CTRL_PERIOD 10 with
    cores := [], fw := { pkg0.fw with due := [(0, ⟨100, 0, 1⟩)] } }
theorem test_premises_TestsAndRebindRun : (testing id).powered = true ∧ (testing id).served = true ∧ (testing id).testTurn 0 0 = true ∧
    (testing id).dueAt 0 0 = some 100 ∧ (((testing id).until 100).core 0).pwr = .awake ∧
    ((testing (fun p => p.setCore 0 { Core.init 0 with pwr := .gated })).core 0).pwr ≠ .awake ∧ (testing id).testTurn 0 1 = false := by decide +kernel
theorem test_premises_TestsAndRebindRun_end : let p := testing (fun p => p.updFw (fun f => { f with tests := [(0, ⟨false, 0, core0⟩)] }))
    (p.fw.tests.find 0).isSome = true ∧ (p.die 0).logical 0 = some 0 ∧ (p.die 0).logical 71 = none ∧
    (p.fence 0 0).nextSpare 0 = some 2 ∧
    ((p.updDie 0 (fun d => { d with fused := (List.range 70).map (· + 2) })).fence 0 0).nextSpare 0 = none := by decide +kernel
theorem test_premises_TestsAndRebindRun_full : let p := testing (fun p => p.updFw (fun f => { f with fullTests := [(0, ⟨0, true⟩), (1, ⟨0, false⟩)] }))
    p.fw.fullTests.find 0 = some ⟨0, true⟩ ∧ p.fw.fullTests.find 1 = some ⟨0, false⟩ ∧ p.short 0 (p.core 0).kerf = false ∧
    (p.updDie 0 (fun d => { d with kerfFuse := [(0, 3)] })).short 0 0 = true := by decide +kernel
theorem test_premises_TestsAndRebindRun_rebind : let p := testing (fun p => p.updDie 0 (fun d => { d with fenced := [0] }))
    p.present 0 = true ∧ 0 < 64 ∧ p.dueRebind 0 0 = true ∧ ((List.range 0).any (fun x => p.dueRebind 0 x)) = false ∧
    (p.die 0).bind.find 0 = some 0 ∧ p.nextSpare 0 = some 2 ∧
    (p.updDie 0 (fun d => { d with fused := (List.range 70).map (· + 2) })).nextSpare 0 = none ∧
    (let q := p.updDie 0 (fun d => { d with bind := [(1, 1)] })
     (q.die 0).bind.find 0 = none ∧ q.dueRebind 0 0 = true ∧ q.nextSpare 0 = some 2) := by decide +kernel

/-! Premises, chapters 2, 14, 15, 16. -/

/-- Firmware runs, and has something to do. -/
def fw1 (f : Fw → Fw) : Pkg := pkg0.updFw f
def fw2 (f : Fw → Fw) : Pkg := { fw1 f with cmds := [(5, cmd 12 .fired [(2, 7)])] }
def entryJ : JEntry := ⟨0, 0, 1, 0, 4, true, 0x200, 1⟩
theorem test_premises_FirmwareActs : (fw1 id).powered = true ∧ (fw1 id).served = true ∧ (fw1 id).fw.inReset = false ∧
    (fw1 (fun f => { f with inReset := true })).fw.inReset = true ∧ (fw1 id).fld (rHS_WDOG.at 0 0 0) fHS_WDOG_LIMIT ≠ 0 ∧
    (pkg0.setFld (rHS_WDOG.at 0 0 0) fHS_WDOG_LIMIT 0).fld (rHS_WDOG.at 0 0 0) fHS_WDOG_LIMIT = 0 ∧
    (fw1 (fun f => { f with abortPend := [7] })).fw.abortPend.contains 7 = true ∧
    (fw1 id).cmds.any (fun e => e.2.job = 7) = false ∧ (fw2 id).cmds.any (fun e => e.2.job = 7) = true ∧
    (fw1 (fun f => { f with draining := true })).fw.draining = true ∧ (fw1 id).present 1 = true ∧ 3 < 4 ∧ 0 < 1 := by decide +kernel
theorem test_premises_FirmwareActs_memory : let now (p : Pkg) := p.fld (rMEM_ECC_CORR.at 0 0 0) fMEM_ECC_CORR_COUNT
    now pkg0 ≤ pkg0.fw.ceSeen.getD 0 0 ∧ pkg0.fw.ceSeen.getD 0 0 < now (pkg0.setFld (rMEM_ECC_CORR.at 0 0 0) fMEM_ECC_CORR_COUNT 1) := by
  decide +kernel
/-- Management over IP is enabled, and one record is sent and not acknowledged. -/
def netOn (f : Pkg → Pkg) : State := withPkg (fun p => f ((p.setFld (rMGT_NET_CTRL.at 0 0 0) fMGT_NET_CTRL_EN 1).updFw
  (fun f => { f with unacked := [(0, 3, 1)] })))
theorem test_premises_FirmwareActs_journal : (netOn id).pkg.fld (rMGT_NET_CTRL.at 0 0 0) fMGT_NET_CTRL_EN = 1 ∧
    (netOn id).pkg.fw.unacked.any (fun u => u.1 = 0 && u.2.1 = 3 && u.2.2 ≠ 0) = true ∧
    (fw1 (fun f => { f with jbuf := [entryJ] })).fw.jbuf = [entryJ] ∧ (fw1 id).fw.compacting = false ∧
    (fw1 id).areaNow.bytes + 32 ≤ areaBytes ∧ (fw1 id).areaNow.bytes + 0x100000 ≤ areaBytes ∧
    (fw1 (fun f => { f with compacting := true })).fw.compacting = true := by decide +kernel
def longArea (n : Nat) : Area := { Area.based 1 0 [] with entries := List.replicate n entryJ.bytes }
theorem longArea_bytes (n : Nat) : (longArea n).bytes = 64 + 32 * n := by
  simp only [longArea, Area.based, Area.bytes, List.length_replicate, List.length_nil]
theorem test_premises_FirmwareActs_full : areaBytes < (longArea 229375).bytes + 0x100000 := by rw [longArea_bytes]; decide
theorem test_premises_FirmwareActs_compaction : let p (m : Bool) := fw1 (fun f => { f with
      compacting := true, area1 := if m then (Area.based 1 0 []).marked 5 else Area.based 1 0 [] })
    (p false).fw.compacting = true ∧ (p false).areaOther.marker = [] ∧ (p true).areaOther.marker ≠ [] := by decide +kernel
def sampled (iv : Nat) : Pkg := (pkg0.setFld aSmpCtrl fOBS_SMP_CTRL_INTERVAL iv).setFld aSmpCtrl fOBS_SMP_CTRL_SIZE_LOG2 20
theorem test_premises_FirmwareActs_sample : pkg0.sampleTick = none ∧ (sampled 10).sampleTick = some 10000 ∧ (sampled 10).oldTick = none ∧
    (∀ x ∈ [(sampled 10, false), ((sampled 0).updFw (fun f => { f with smpOld := some (700, 0) }), true)],
      let t := x.1.sampleTick.getD 0
      let q := (x.1.until t).updFw (fun f => { f with smpOld := none })
      x.1.sampleTick.isSome = true ∧ (q.fld aSmpCtrl fOBS_SMP_CTRL_INTERVAL == 0) = x.2 ∧ q.fld aSmpCtrl fOBS_SMP_CTRL_SIZE_LOG2 ≠ 0) := by
  decide +kernel

/-- An event record with a sequence number. -/
theorem test_premises_ManagementAnswers : let p := (netOn (fun p => p.updFw (fun f =>
      { f with events := [{ Event.blank 0x71 with seq := 0 }], area0 := { f.area0 with entries := [entryJ.bytes] } }))).pkg
    p.powered = true ∧ Chan.udp ≠ .doe ∧ p.inTurn .udp = true ∧ (netOn id).turn .udp = true ∧ p.hears .udp = true ∧ p.hears .mctp = true ∧ 256 < 257 ∧ 0 < 256 ∧
    ((List.range 1).filterMap (fun i => p.fw.record (0 + i))).length = 1 ∧ ((List.range 1).filterMap (fun i => p.fw.record (9 + i))).length ≠ 1 ∧
    ((List.range 1).filterMap (fun i => p.areaNow.good.find? (fun e => e.seq = (0 + i) % 2 ^ 32))).length = 1 ∧
    ((List.range 1).filterMap (fun i => p.areaNow.good.find? (fun e => e.seq = (9 + i) % 2 ^ 32))).length ≠ 1 ∧
    p.fw.unacked.any (fun u => u.1 = 0 && u.2.1 = 3 && u.2.2 ≠ 0) = true ∧ p.served = true := by decide +kernel
theorem test_premises_ManagementAnswers_address : (1 : Nat) + (netOn id).pkg.netAddr ≠ (netOn id).pkg.netAddr := by decide +kernel

/-- An image with an empty body: MAGIC, FORMAT 1, VERSION 1, the rest 0. -/
def image1 : List Byte := (toBytes 4 0x4D495746 ++ toBytes 4 1 ++ toBytes 4 1) ++ List.replicate 500 0#8
def sending (bs : List Byte) (c : Chan) : Pkg := fw1 (fun f => { f with transfer := some ⟨c, bs.length, bs.zipIdx.map (fun x => (x.2, x.1))⟩ })
theorem test_premises_FirmwareProtocolAnswers : pkg0.powered = true ∧ s0.turn .doe = true ∧ pkg0.fwHears .doe = true ∧
    pkg0.fw.transfer = none ∧ pkg0.fw.transfer.any (fun t => !(t.chan = .doe)) = false ∧
    (sending [1#8] .mctp).fw.transfer.any (fun t => !(t.chan = .doe)) = true ∧ 2 ^ 24 < 2 ^ 24 + 1 ∧
    ((sending [1#8, 2#8] .doe).fw.transfer.map (fun t => (t.chan, t.length))) = some (.doe, 2) ∧ 0 + [1#8, 2#8].length ≤ 2 ∧
    2 < 1 + [1#8, 2#8].length ∧ imageStatus 0 0 [1#8, 2#8] ≠ 0 ∧ pkg0.fw.waiting = false ∧ pkg0.fw.bootRam = false ∧
    pkg0.fw.running = some ⟨1, 1, []⟩ ∧ (fw1 (fun f => { f with waiting := true })).fw.waiting = true ∧ pkg0.hears .doe = true ∧
    pkg0.served = true ∧ pkg0.linkUp = true ∧ 4 < 5 := by decide +kernel
/-- An image that is accepted, where verification answers so and the digests agree (log 11 leaves both open). -/
theorem test_premises_FirmwareProtocolAnswers_accepted (hv : ∀ k d g, Config.ecdsaVerify k d g = true)
    (hs : ∀ b, Config.sha384 b = List.replicate 48 0#8) (hk : Config.keyHash 0 = List.replicate 48 0#8) : imageStatus 0 0 image1 = 0 := by
  have hl : image1.length = 512 := by decide +kernel
  have hp : imgPart image1 24 48 = List.replicate 48 0#8 := by decide +kernel
  have h4 : imgField image1 16 4 = 0 := by decide +kernel
  have h0 : imgField image1 0 4 = 0x4D495746 := by decide +kernel
  have h1 : imgField image1 4 4 = 1 := by decide +kernel
  have hn : (keySlot 0 image1).isNone = false := by
    unfold keySlot
    rw [Option.isNone_eq_false_iff, List.find?_isSome]
    exact ⟨0, by decide, by simp only [hs, hk]; decide⟩
  unfold imageStatus
  simp only [hl, h4, h0, h1, hn, hs, hv, hp]
  decide

/-- What the board measures of a die. -/
def tele (power tj : Nat) : Telemetry := ⟨power, 500000, tj, true, 1000, 1000, 100, 90⟩
theorem test_premises_PowerEventsAct : pkg0.powered = true ∧ pkg0.served = true ∧ pkg0.present 0 = true ∧ pkg0.fw.inReset = false ∧
    (pkg0.setVrFail 0 false).fixedMode 0 = false ∧
    ((pkg0.setFld (rCD_VCTRL.at 0 0 0) fCD_VCTRL_MODE 1).setVrFail 0 false).fixedMode 0 = true ∧
    (let c := idle0 core0; c.idle = true ∧ c.pwr = .awake) ∧ 71 < 72 ∧
    (pkg0.setFld (rCD_GOV_CTRL.at 0 0 0) fCD_GOV_CTRL_IDLE_GATE 1).fld (rCD_GOV_CTRL.at 0 0 0) fCD_GOV_CTRL_IDLE_GATE ≠ 0 ∧
    pkg0.fw.tests.find 0 = none := by decide +kernel
theorem test_premises_PowerEventsAct_governor : ((pkg0.updDie 0 (fun d => { d with gov := [⟨0, true, 0⟩] })).die 0).gov = [⟨0, true, 0⟩] ∧
    ((pkg0.setCore 0 { core0 with pwr := .gateQueued }).core 0).pwr = .gateQueued ∧ core0.pwr ≠ .gateQueued ∧
    ((pkg0.setCore 0 { core0 with pwr := .ungating 5 }).core 0).pwr = .ungating 5 ∧
    ((pkg0.setCore 0 { core0 with pwr := .ramp }).core 0).pwr = .ramp ∧ (∀ r ∈ [(⟨0, true, 0⟩ : GovReq)], r.point < (8 + 7) / 8) ∧
    (pkg0.die 0).oldGate.getD 1 ≠ 0 := by decide

/-- A request that is still the first when its admission is due, and one that a KERNEL withdraws before. -/
def withdrawn (ready : Bool) : Pkg :=
  let p := (withCmd { cmd 1 (if ready then .firing else .fetched) [(28, 1), (30, 1)] with fire := none }
    (fun p => p.updDie 0 (fun d => { d with gov := [⟨0, false, 0⟩], govNext := 100 }))).pkg
  let p := p.setCore 0 { idle0 core0 with pwr := .gateQueued }
  if ready then p else { p with cmds := [] }
theorem test_premises_PowerEventsAct_withdrawn : ((withdrawn true).core 0).pwr = .gateQueued ∧ ((withdrawn true).die 0).gov.head? = some ⟨0, false, 0⟩ ∧
    ((((withdrawn true).until 100).die 0).gov.head? ≠ some ⟨0, false, 0⟩) ∧
    ((((withdrawn false).until 100).die 0).gov.head? = some ⟨0, false, 0⟩) := by decide +kernel
theorem test_premises_BoardEventsAct : (State.reset.pkg.board.rstN = false ∧ State.reset.pkg.board.perstN = false ∧ State.reset.pkg.powered = false) ∧
    ({ Pkg.reset with board := { Pkg.reset.board with pwrok := true } } : Pkg).board.pwrok = true ∧
    (pkg0.board.pwrok = true ∧ pkg0.board.rstN = true ∧ (fw1 (fun f => { f with booted := false })).fw.booted = false ∧
      pkg0.fw.running.isSome = true ∧ pkg0.powered = true ∧ pkg0.served = true) ∧
    ({ pkg0 with board := { pkg0.board with perstN := false } } : Pkg).powered = true := by decide +kernel
/-- PKG_RST_N is released with FW_WAIT, and without an image, so that the boot ROM waits; with an image that is accepted it does not. -/
theorem test_premises_BoardEventsAct_ftc : Pkg.reset.rd64 (rFTC_INIT.at 0 0 0) = 0 ∧
    (Pkg.reset.setFld (rFTC_CTRL.at 0 0 0) fFTC_CTRL_GM 1).isGM = true ∧ pkg0.board.pwrok = true ∧ Pkg.reset.board.pwrok = false := by decide +kernel
theorem test_premises_BoardEventsAct_boot : let p := { Pkg.reset with board := { Pkg.reset.board with pwrok := true, rstN := true } }
    (p.bootRom).fw.waiting = true := by decide +kernel

theorem test_premises_MeterActs : State.reset.mtr.powered = true ∧ pkg0.present 1 = true ∧ State.reset.mtr.railPresent 7 = true ∧
    State.reset.mtr.railPresent 24 = false ∧ ({ State.reset.mtr with powered := false } : Milnik).powered = false ∧
    ({ State.reset.mtr with ram := [(3, [])] } : Milnik).ram.find? (fun e => e.1 = 3) = some (3, []) ∧
    State.reset.mtr.ram.find? (fun e => e.1 = 3) = none ∧ ({ State.reset.mtr with flash := [(3, [])] } : Milnik).flash.find (3 % 131072) = some [] ∧
    State.reset.mtr.flash.find (3 % 131072) = none := by decide +kernel

/-! Premises of what holds of every step. -/

/-- A sample closes a record that is due, and takes no other. -/
theorem test_premises_MeterActs_due : let m : Milnik := { State.reset.mtr with mtime := 60000, spanMs := 60000 }
    60000 * ((m.mtime - m.spanMs) / 60000 + 1) ≤ m.mtime ∧ ¬ 60000 * ((State.reset.mtr.mtime - State.reset.mtr.spanMs) / 60000 + 1) ≤ State.reset.mtr.mtime := by
  decide
theorem test_premises_EmptyQueueActs : s0.pending = [] ∧ s0.pkg.snoops = [] ∧ s0.pkg.fw.jheld = [] ∧
    ({ s0 with waiting := [.nop 5] } : State).waiting = [.nop 5] ∧ s0.waiting = [] ∧
    (withPkg (fun p => { p with fab := { p.fab with inbox := [(0, frame 1 0 9)] } })).pkg.nextFrame = some (0, 0, frame 1 0 9) ∧
    s0.pkg.takeable [] (4, frame 1 0 9) = true ∧ s0.pkg.nextFrame = none ∧ State.reset.pkg.powered = false ∧ s0.pkg.powered = true := by decide
/-- A core that has its next line turns; one that runs nothing does not. -/
def turns (c : Core) : Bool := match Pkg.coresNext { pkg0 with cores := [(0, c)] } [0] with | .go _ _ => true | _ => false
theorem test_premises_EmptyQueueActs_cores : turns (idle0 core0) = false ∧
    turns { core0 with icache := [(64, List.replicate 64 0#8)] } = true := by decide +kernel

/-- The state of cold reset meets the invariant, and a step of it answers a next state. -/
theorem test_premises_InvariantKept : State.reset.Inv ∧ step State.reset = .next State.reset :=
  ⟨⟨⟨by decide, by decide, by decide, by decide, by decide, by decide, by decide, by decide, by decide, by decide, by decide⟩, by decide⟩, rfl⟩
theorem test_premises_MeterIsolated : ofMilnik .milnikPowerLoss = true ∧ ofMilnik (.nop 5) = false ∧ State.reset.pending = [] ∧
    goes (exec (.nop 5) State.reset) (fun s => s.mtr = State.reset.mtr) = true ∧
    goes (exec .milnikPowerLoss State.reset) (fun s => s.mtr.powered = false) = true ∧
    pkg0.present 0 = Pkg.reset.present 0 ∧ (pkg0.die 0).line = (Pkg.reset.die 0).line := by decide +kernel

/-! Tab words, bit by bit from the encodings of R142 to R153. -/

theorem test_word_header : let h := 0b00000000_10000001_000000_1_1_10100101#32
    hdrIdle h = 129 ∧ hdrEnd h = true ∧ hdrIdx h = true ∧ hdrMask h = 0xA5 ∧ headerParcels h = 1 + 1 + 2 + 1 + 3 + 2 := by decide
theorem test_word_ids : idsOf 7 0x00030004#32 = ⟨7, 3, 4⟩ := by decide
theorem test_word_ctl :
    ctlOf 0b00001_1_00000_00111_0000000000001010#32 0#32 = .loop (.reg 7) 10 ∧
    ctlOf 0b00001_0_00000_00000_0000000000001010#32 9#32 = .loop (.imm 9) 10 ∧
    ctlOf 0b00010_1_00000000000000000000_101011#32 5#32 = .pwait 43 5 true ∧
    ctlOf 0b00011_0_00000000000000000000_000001#32 5#32 = .padd 1 5 ∧
    ctlOf 0b00100_0_00000000000000000000_000010#32 6#32 = .pset 2 6 ∧
    ctlOf 0b00101_100_00000000_0000000000000011#32 0x48001#32 = .psig 4 3 0x48001 ∧
    ctlOf 0b00110_000000_00011_0000000000000000#32 0xFFFFFFF6#32 = .brz 3 (-10) ∧
    ctlOf 0b00111_000000_00011_0000000000000000#32 4#32 = .brnz 3 4 ∧
    ctlOf 0b01000_110_000_00101_00110_00000000000#32 0#32 = .skey 6 5 6 ∧
    ctlOf 0b01001_0000000000000000000000_10001#32 0#32 = .qwait 17 ∧
    ctlOf 0b01010_00000000000_1000000000000001#32 0#32 = .raise 0x8001 ∧ ctlOf 0b01011_000000000000000000000000000#32 0#32 = .unlisted := by
  decide
theorem test_word_sca : scaOf 0b000010_10101_01010_11111_0_0000000000#32 0#32 = ⟨2, 21, 10, .reg 31, 0#32⟩ ∧
    scaOf 0b001111_00001_00010_00000_1_0000000000#32 0x80000000#32 = ⟨15, 1, 2, .imm 0x80000000#32, 0x80000000#32⟩ := by decide
theorem test_word_lds : ldsOf 0b011_10101_01010_1000000000000000001#32 = ⟨3, 21, 10, 0x40001⟩ := by decide
theorem test_word_vec : vecOf 0b000100_10101_01010_11111_00001_1_101_00#32 = ⟨4, 21, 10, 31, 1, some 5⟩ := by decide
theorem test_word_row : rowOf 0b0100_10101_01010_1_000000_10000000001#32 = ⟨4, 21, 10, true, 0x401⟩ := by decide
theorem test_word_run : arrOf 0b00_1_1_110001_1_0_10_1100_1011_0000000000#32 0b1_0_0000000011_0_1_0000000100_00000000#32
    0b00000001010_000000000000000000000#32 = .run ⟨1, true, 1, 0, false, true, 3, 4, 10, 12, 11, false, 2, some 49⟩ := by decide
theorem test_word_drain : arrOf 0b10_0_0_000000_1_1101_00011_000000000000#32 0b0000000000000000000010_0001111_000#32
    0b0000001000000000_11111111_110_1_0000#32 = .drain ⟨0, true, 13, 3, 2, 16, 512, -1, some 6, none⟩ := by decide
theorem test_word_fill : fillOf 0b1_1_0001_00010_1_111110_00000000010000#32 0b0000000101_00000000011_00000000000#32 =
    ⟨true, 1, 1, 2, some 62, 256, 5, 3⟩ := by decide
theorem test_word_gth : gthOf 0b0011_00101_1_000111_0000000000000000#32 0x140#32 = (3, ⟨5, some 7, 0x140⟩) := by decide

/-! Single steps; the expected values are worked out by hand from the rules. -/

/-- The register writes that a slot leaves pending on core 0. -/
def lands (i : Instr) (f : Core → Core) (ws : List RegWrite) : Bool := goes (exec i (withCore f)) (fun s => (s.pkg.core 0).pend = ws)
theorem test_add_wraps : lands (.add t0 3 1 (.imm 0xFFFFFFEF#32)) id [⟨1, 0, 1, .s 3 0#64⟩] = true := by decide
theorem test_sub_borrows : lands (.sub t0 3 0 (.reg 1)) id [⟨1, 0, 1, .s 3 (-17)⟩] = true := by decide
theorem test_shl_takes_six_bits : lands (.shl t0 3 1 (.imm 65#32)) id [⟨1, 0, 1, .s 3 34#64⟩] = true := by decide
theorem test_shr_fills_with_zero : lands (.shr t0 3 4 (.imm 63#32)) (fun c => { c with s := [(4, -1)] }) [⟨1, 0, 1, .s 3 1#64⟩] = true := by decide
theorem test_sar_fills_with_sign : lands (.sar t0 3 4 (.imm 63#32)) (fun c => { c with s := [(4, -2)] }) [⟨1, 0, 1, .s 3 (-1)⟩] = true := by decide
theorem test_mul_low_and_late : lands (.mul t0 3 4 (.reg 4)) (fun c => { c with s := [(4, 0x100000001#64)] })
    [⟨3, 0, 1, .s 3 0x200000001#64⟩] = true := by decide
theorem test_min_signed : lands (.sMin t0 3 1 (.imm 0x80000000#32)) id [⟨1, 0, 1, .s 3 0xFFFFFFFF80000000#64⟩] = true := by decide
theorem test_slt_signed : lands (.slt t0 3 1 (.imm 0xFFFFFFFF#32)) id [⟨1, 0, 1, .s 3 0#64⟩] = true := by decide
theorem test_seq : lands (.seq t0 3 1 (.imm 17#32)) id [⟨1, 0, 1, .s 3 1#64⟩] = true := by decide
theorem test_movhi_keeps_low : lands (.movhi t0 3 1 0x12345678#32) id [⟨1, 0, 1, .s 3 0x1234567800000011#64⟩] = true := by decide
theorem test_sld : lands (.sld t0 3 0 0) id [⟨4, 0, 2, .s 3 7#64⟩] = true := by decide
theorem test_sld_unaligned : stops (exec (.sld t0 3 0 4) s0) = true := by decide
theorem test_vst_beyond : stops (exec (.vst t0 0 2 64) s0) = true := by decide
/-- 1.0 in every lane of V1, 2.0 in V2, a NaN in V3. -/
def lanes (c : Core) : Core :=
  { c with v := [(1, List.replicate 64 0x3F800000#32), (2, List.replicate 64 0x40000000#32), (3, List.replicate 64 0x7FC00000#32)] }
theorem test_fadd : lands (.fadd t0 4 1 2) lanes [⟨4, 0, 3, .v 4 0 (List.replicate 64 0x40400000#32)⟩] = true := by decide +kernel
theorem test_ffma : lands (.ffma t0 4 2 2 1) lanes [⟨4, 0, 3, .v 4 0 (List.replicate 64 0x40A00000#32)⟩] = true := by decide +kernel
theorem test_fcmplt_nan : lands (.fcmplt t0 4 1 3) lanes [⟨2, 0, 3, .v 4 0 (List.replicate 64 0#32)⟩] = true := by decide +kernel
theorem test_fcmpeq_zeros : lands (.fcmpeq t0 4 0 5) (fun c => { lanes c with v := [(5, List.replicate 64 0x80000000#32)] })
    [⟨2, 0, 3, .v 4 0 (List.replicate 64 0x3F800000#32)⟩] = true := by decide +kernel
theorem test_rsum : lands (.rsum t0 4 1) lanes [⟨12, 0, 3, .v 4 0 (List.replicate 64 0x42800000#32)⟩] = true := by decide +kernel
theorem test_rcp_half : lands (.rcp t0 4 2 true) lanes [⟨8, 0, 4, .v 4 32 (List.replicate 32 0x3F000000#32)⟩] = true := by decide +kernel
theorem test_exp_zero : lands (.exp t0 4 0 false) lanes [⟨10, 0, 4, .v 4 0 (List.replicate 32 0x3F800000#32)⟩] = true := by decide +kernel
theorem test_padd_saturates : goes (exec (.padd t0 3 0xFFFFFFFF) s0) (fun s => (s.pkg.core 0).peg 3 = 0xFFFFFFFF && (s.pkg.core 0).pegSat = some 3) =
    true := by decide
theorem test_pwait_takes : goes (exec (.pwait t0 3 5 false) s0) (fun s => (s.pkg.core 0).peg 3 = 0) = true := by decide
theorem test_pwait_holds : goes (exec (.pwait t0 3 6 false) s0) (fun s => (s.pkg.core 0).peg 3 = 5 && (s.pkg.core 0).seq.hold = 1) = true := by decide
theorem test_word_closes : goes (exec (.padd t1 9 0) s0) (fun s => (s.pkg.core 0).beat = 4 && (s.pkg.core 0).seq.pc = 6) = true := by decide
theorem test_psig_other_die : goes (exec (.psig t0 2 7 (2 ^ 15 + 9)) s0) (fun s => s.pkg.dpeg 1 9 = 7) = true := by decide +kernel
theorem test_unbound_core : goes (exec (.padd ⟨0, 63, none⟩ 9 1) s0) (fun s => s = s0) = true := by decide +kernel

theorem test_nop_completes : goes (exec (.nop 5) (withCmd (cmd 12 .fired []) id)) (fun s => ((s.pkg.cmds.find 5).bind (fun c => c.fin)).map
    (fun e => e.status) = some 0) = true := by decide +kernel
theorem test_nop_nocq : goes (exec (.nop 5) (withCmd (cmd 12 .fired [(1, 2)]) id)) (fun s => s.pkg.cmds = []) = true := by decide +kernel
theorem test_pegset : goes (exec (.pegsetSet 5) (withCmd (cmd 11 .fired [(28, 1), (29, 200), (32, 6)]) id)) (fun s => s.pkg.dpeg 1 200 = 6) = true := by
  decide +kernel
theorem test_doorbell : goes (exec (.commandRingDoorbell 1 3) { s0 with pkg := fetching 0 id }) (fun s => (s.pkg.ring 1).tail = 3) = true := by decide +kernel
theorem test_fetch_moves_head : goes (exec .fetchTurn { s0 with pkg := fetching 0 id }) (fun s => (s.pkg.ring 1).head = 1 && s.pkg.cmds.length = 1) = true := by
  decide +kernel
theorem test_write_journaled : goes (exec (.registerWrite (.bar 0x538 4 0 .bar0)) s0) (fun s => s.pkg.fw.jbuf.map (fun e => (e.kind, e.off, e.value)) =
    [(1, 0x538, 0)] && s.pkg.fw.resetReq = none) = true := by decide +kernel
theorem test_host_reset : goes (exec (.hostReset .bar0) s0) (fun s => s.pkg.fw.resetReq = some 0x77) = true := by decide +kernel
theorem test_frame_not_ours : goes (exec (.writeFrame 0 (frame 1 1 1) .keep) (linked id)) (fun s =>
    s.pkg.fld (rFAB_UNREACH.at 0 0 0) fFAB_UNREACH_COUNT = 1) = true := by decide +kernel
/-- θ of 2 ns is 128 of the stamps' 1/32 ns, halved (R321, R322). -/
theorem test_tsync_locks : goes (exec (.tsync 0 (tsync 128)) (follower id)) (fun s => s.pkg.ftc.st = .locked) = true ∧
    goes (exec (.tsync 0 (tsync 129)) (follower id)) (fun s => s.pkg.ftc.st = .acquiring) = true := by decide +kernel
theorem test_abort_expires : goes (exec .abortKeyExpiry (withPkg (fun p => { p with fab := { p.fab with keys := [(7, 1, 3, 5)] } }))) (fun s =>
    s.pkg.fab.keys = [] && s.pkg.ftc.now = 10000005) = true := by decide +kernel
/-- A request of a TYPE that R441 does not list is answered BAD_TYPE. -/
theorem test_bad_type : goes (exec (.regRead .mctp 9 0 1 8) s0) (fun s => s.pkg.outbox.head?.map (fun o => match o with
    | .response .mctp bs => bs.take 4 | _ => []) = some [8#8, 1#8, 1#8, 0#8]) = true := by decide +kernel
theorem test_therm_trip_off : goes (exec .thermTrip s0) (fun s => s.pkg.board.thermTrip) = true := by decide
theorem test_unpowered : exec .fetchTurn State.reset = .next State.reset := rfl

/-- The worked exchange of chapter 9: P0 and P2 each select among equal magnitudes (R276). -/
theorem test_thinned_ties : thinned 2 ([0x3F000000#32, 0xBEC00000#32, 0x3EC00000#32, 0x3D800000#32].map f32) = [0, 1] ∧
    (thinned 2 ([0xBE800000#32, 0x3F000000#32, 0x40100000#32, 0x3F000000#32].map f32)) = [2, 1] := by decide +kernel
/-- Its codes and integers (R125, R126): the agreed code is 128 and H is 2. -/
theorem test_exchange_integers : localCode ([0x3F000000#32, 0xBEC00000#32, 0x3EC00000#32, 0x3D800000#32].map f32) = 126 ∧
    localCode ([0x3E000000#32, 0xBE000000#32, 0#32, 0xBF800000#32].map f32) = 127 ∧ clog2 4 = 2 ∧
    quantize 128 2 .rne (f32 0x3F000000#32) = 2199023255552 ∧ quantize 128 2 .rne (f32 0xBF800000#32) = -4398046511104 := by decide +kernel

/-- One sample of 1 V and 1 A on rail 0 is 1 µJ (R459). -/
theorem test_meter_sample : goes (exec (.milnikSample ((1000, 1000) :: List.replicate 23 (0, 0))) State.reset) (fun s =>
    s.mtr.energy.getD 0 0 = 1 && s.mtr.us = 1) = true := by decide +kernel
theorem test_meter_power_up : goes (exec .milnikPowerUp { State.reset with mtr := { Milnik.reset with powered := false } }) (fun s =>
    s.mtr.boots = 1 && s.mtr.gap) = true := by decide +kernel
/-- R462: 512 bytes, PREV, and a signature: 656. R453, R387: 32 and 64 bytes. -/
theorem test_meter_record_size (m : Milnik) (k : Nat) : (milnikSigned (m.head k 0 0 ++ toBytes 48 0)).length = 656 := by
  simp only [milnikSigned, Milnik.head, Config.milnikSign, List.length_append, toBytes_length]
  rw [flatMap_length _ _ 8 (fun _ => toBytes_length _ _), flatMap_length _ _ 16 (fun _ => toBytes_length _ _), List.length_range, List.length_range]
theorem test_journal_entry_size (e : JEntry) : e.bytes.length = 32 := rfl
theorem test_event_size (e : Event) : e.bytes.length = 64 := by
  unfold Event.bytes
  repeat rw [List.length_append]
  repeat rw [toBytes_length]
theorem test_reset_memory : State.reset.pkg.mem.wf ∧ State.reset.pkg.host.wf := by decide
theorem test_no_words (nbits w : Nat) : decodeTableWord nbits w = none := rfl
theorem test_step_takes_front : step { s0 with pending := [.thermTrip, .droop 0] } = exec .thermTrip { s0 with pending := [.droop 0] } := rfl

end Sys2Proof.Tests
end

section
/-! PROOFS. Register writes land (R137): the writes due are those at the front of the pending ones, and each register holds what the last of
them to it has. -/
namespace Sys2Proof.Machine

/-- R137: the order of pending writes, in words. -/
theorem RegWrite.before_iff (a b : RegWrite) : a.before b = true ↔
    a.land < b.land ∨ (a.land = b.land ∧ (a.issue < b.issue ∨ (a.issue = b.issue ∧ a.slot ≤ b.slot))) := by
  simp only [RegWrite.before, Bool.or_eq_true, Bool.and_eq_true, decide_eq_true_eq]

theorem RegWrite.land_le_of_before {a b : RegWrite} (h : a.before b = true) : a.land ≤ b.land := by
  rw [RegWrite.before_iff] at h
  omega

/-- Writes that take effect one after another. -/
def Core.landAll (ws : List RegWrite) (c : Core) : Core := ws.foldl (fun c w => c.land w.dest) c

@[simp] theorem Core.landAll_nil (c : Core) : Core.landAll [] c = c := rfl
@[simp] theorem Core.landAll_cons (w : RegWrite) (ws : List RegWrite) (c : Core) :
    Core.landAll (w :: ws) c = Core.landAll ws (c.land w.dest) := rfl

/-- R137: of writes in order, exactly those due by beat `b` take effect, and the rest stay pending. -/
theorem Core.landDue_eq_landAll (b : Nat) (ws : List RegWrite) (c : Core) (h : ws.Pairwise (fun a b => a.before b = true)) :
    Core.landDue b ws c =
      { Core.landAll (ws.filter (fun w => w.land ≤ b)) c with pend := ws.filter (fun w => !(w.land ≤ b)) } := by
  induction ws generalizing c with
  | nil => rfl
  | cons w ws ih =>
    obtain ⟨hw, hws⟩ := List.pairwise_cons.mp h
    by_cases hdue : w.land ≤ b
    · simp [Core.landDue, hdue, ih _ hws]
    · have later : ∀ x ∈ ws, ¬ x.land ≤ b := fun x hx => by
        have := RegWrite.land_le_of_before (hw x hx)
        omega
      have none_due : ws.filter (fun w => w.land ≤ b) = [] := by simpa using later
      have all_stay : ws.filter (fun w => !(w.land ≤ b)) = ws := by simpa using later
      simp [Core.landDue, hdue, none_due, all_stay]

/-- R137: what is read after writes have landed is what the last of them that writes it has, or what was read before; `keep` is what the
reading may rest on, where landing keeps it. -/
theorem Core.read_landAll {α : Type} (read : Core → α) (keep : Core → Prop) (value : RegWrite → Option α)
    (hkeep : ∀ c w, keep c → keep (c.land (RegWrite.dest w)))
    (hland : ∀ c w, keep c → read (c.land (RegWrite.dest w)) = (value w).getD (read c))
    (ws : List RegWrite) (c : Core) (hc : keep c) :
    read (Core.landAll ws c) = ((ws.filterMap value).getLast?).getD (read c) := by
  induction ws generalizing c with
  | nil => rfl
  | cons w ws ih =>
    rw [Core.landAll_cons, ih _ (hkeep c w hc), hland c w hc]
    cases hv : value w with
    | none => rw [List.filterMap_cons_none hv, Option.getD_none]
    | some v => rw [List.filterMap_cons_some hv, List.getLast?_cons, Option.getD_some, Option.getD_some]

/-- R135: the core when `n` beats have passed on its clocks, and no write has landed yet. -/
def Core.pass (c : Core) (n : Nat) : Core :=
  { c with beat := c.beat + n, half := c.half + 2 * n, windowBeats := c.windowBeats + n, cids := c.seq.ids }

/-- R135, R137: what `n` beats do where the pending writes stand in order. -/
theorem Core.advance_eq_landAll (c : Core) (n : Nat) (h : c.pend.Pairwise (fun a b => a.before b = true)) :
    c.advance n = ({ Core.landAll (c.pend.filter (fun w => w.land ≤ c.beat + n)) (c.pass n) with
      pend := c.pend.filter (fun w => !(w.land ≤ c.beat + n)) } : Core).count 19 n := by
  rw [← Core.landDue_eq_landAll _ _ _ h]
  rfl

theorem Core.advance_beat (c : Core) (n : Nat) : (c.advance n).beat = c.beat + n := by
  obtain ⟨_, _, _, _, _, h⟩ := c.advance_frame n
  rw [h]

/-- R134. -/
theorem Core.rdS_zero (c : Core) : c.rdS 0 = 0#64 := rfl

/-- Settles O13: the due writes are the front of the pending ones, and each kind of register is read by the rule of one landing write. -/
theorem registersLand : Obligations.RegistersLand := by
  refine ⟨RegWrite.before_iff, fun c n hord => ?_⟩
  have hadv := c.advance_eq_landAll n hord
  refine ⟨fun r l hlanes hl => ?_, fun r => ?_, fun r => ?_, by rw [hadv]; rfl, c.advance_beat n⟩
  · rw [hadv]
    exact Core.read_landAll (fun c => c.lane r l) (fun c => ∀ k, (c.rdV k).length = 64) _
      (fun c w => c.land_lanes w.dest) (fun c w h => c.land_lane w.dest r l h hl) _ (c.pass n) hlanes
  · rw [hadv]
    by_cases hr : r = 0
    · rw [if_pos hr, hr]
      exact Core.rdS_zero _
    · rw [if_neg hr]
      refine Core.read_landAll (fun c => c.rdS r) (fun _ => True) _ (fun _ _ _ => trivial) (fun c w _ => ?_) _ (c.pass n) trivial
      rw [Core.land_rdS]
      cases w.dest with
      | s k v => by_cases hk : k = r <;> simp [hk, hr]
      | v k lo vs => rfl
      | sk k v => rfl
  · rw [hadv]
    refine Core.read_landAll (fun c => c.rdSK r) (fun _ => True) _ (fun _ _ _ => trivial) (fun c w _ => ?_) _ (c.pass n) trivial
    rw [Core.land_rdSK]
    cases w.dest with
    | s k v => rfl
    | v k lo vs => rfl
    | sk k v => by_cases hk : k = r <;> simp [hk]

end Sys2Proof.Machine
end

section
/-! PROOFS. Loops (R154 to R156): the index of a level, and the run of a body. -/
namespace Sys2Proof.Machine

/-- R155: a body with an iteration to go is entered again, under the next index. -/
theorem nextPc_again (l : LoopLevel) (ls : List LoopLevel) (pc n : Nat) (hstop : l.stop = pc + n) (h : l.index + 1 < l.count) :
    nextPc (l :: ls) pc n none = ({ l with index := l.index + 1 } :: ls, l.start) := by
  simp only [nextPc, loopBack, hstop, h, if_true]

/-- R155: a body that has run its last iteration is left, and the bodies around it are asked. -/
theorem nextPc_leave (l : LoopLevel) (ls : List LoopLevel) (pc n : Nat) (hstop : l.stop = pc + n) (h : l.count ≤ l.index + 1) :
    nextPc (l :: ls) pc n none = nextPc ls pc n none := by
  simp only [nextPc, loopBack, hstop, Nat.not_lt.mpr h, if_true, if_false]

/-- R154: where no body ends, the next parcel follows. -/
theorem nextPc_straight (ls : List LoopLevel) (pc n : Nat) (h : ∀ l ∈ ls, l.stop ≠ pc + n) : nextPc ls pc n none = (ls, pc + n) :=
  loopBack_none ls (pc + n) h

/-- R156: a body of one word, from its first iteration: its `k`-th execution is under the index `k`. -/
theorem repeat_nextPc_index (ls : List LoopLevel) (pc n count k : Nat) (hk : k < count) :
    Nat.repeat (fun x : List LoopLevel × Nat => nextPc x.1 x.2 n none) k (⟨pc, pc + n, count, 0⟩ :: ls, pc) =
      (⟨pc, pc + n, count, k⟩ :: ls, pc) := by
  induction k with
  | zero => rfl
  | succ k ih =>
    rw [Nat.repeat, ih (by omega)]
    exact nextPc_again ⟨pc, pc + n, count, k⟩ ls pc n rfl hk

/-- R156: after its last iteration the word behind the body comes next. -/
theorem repeat_nextPc_leaves (ls : List LoopLevel) (pc n count : Nat) (hcount : 0 < count) (hstop : ∀ l ∈ ls, l.stop ≠ pc + n) :
    Nat.repeat (fun x : List LoopLevel × Nat => nextPc x.1 x.2 n none) count (⟨pc, pc + n, count, 0⟩ :: ls, pc) = (ls, pc + n) := by
  obtain ⟨k, rfl⟩ : ∃ k, count = k + 1 := ⟨count - 1, by omega⟩
  rw [Nat.repeat, repeat_nextPc_index ls pc n (k + 1) k (by omega)]
  calc nextPc (⟨pc, pc + n, k + 1, k⟩ :: ls) pc n none
      = nextPc ls pc n none := nextPc_leave ⟨pc, pc + n, k + 1, k⟩ ls pc n rfl (Nat.le_refl _)
    _ = (ls, pc + n) := nextPc_straight ls pc n hstop

/-- The meaning of LIDX. -/
theorem exec_lidx (s : State) (t : Site) (d level : Nat) : exec (.lidx t d level) s =
    s.slot (.lidx t d level) t (fun c => slotIf (regOk d && level < 32) (c.sca 1 d (c.lidx level))) := rfl

/-- R144: an operation whose operands are in range issues. -/
theorem slotIf_go {ok : Bool} (h : ok = true) (c : Core) : slotIf ok c = .go c := if_pos h

/-- R147, R156: LIDX reads its level's index in the issue beat, for S[D] in the next one. -/
theorem lidx_issues {s : State} {t : Site} {key d level i : Nat} (hq : s.pkg.Quiet) (hs : s.pkg.site t = some key) (hd : d < 32)
    (hl : level < 32) (hi : (s.pkg.core key).lidx level = BitVec.ofNat 64 i) :
    Issues (.lidx t d level) s t key ((s.pkg.core key).sca 1 d (BitVec.ofNat 64 i)) := by
  have hok : (regOk d && decide (level < 32)) = true := by simp only [regOk, hd, hl, decide_true, Bool.and_self]
  have hgo := slotIf_go hok ((s.pkg.core key).sca 1 d ((s.pkg.core key).lidx level))
  exact hi ▸ State.slot_issues hq hs ⟨_, exec_lidx s t d level, hgo⟩ rfl rfl rfl

/-- Settles O16: LIDX by whether its level is active, and the body by its iterations. -/
theorem loopBodyRuns : Obligations.LoopBodyRuns := by
  refine ⟨fun s t key d level hq hs hd hl => lidx_issues hq hs hd hl ?_, fun ls pc n count _ hcount hstop =>
    ⟨repeat_nextPc_index ls pc n count, repeat_nextPc_leaves ls pc n count hcount hstop⟩⟩
  unfold Core.lidx
  cases (s.pkg.core key).seq.loops[level % 4]? with
  | none => rfl
  | some l => rfl

end Sys2Proof.Machine
end

section
/-! PROOFS. PWAIT (R161): what its slot comes to. -/
namespace Sys2Proof.Machine

/-- The meaning of PWAIT. -/
theorem exec_pwait (s : State) (t : Site) (q n : Nat) (keep : Bool) : exec (.pwait t q n keep) s =
    s.slot (.pwait t q n keep) t (fun c => c.slotPwait q n keep) := rfl

/-- R161: with operands in range, the peg decides. -/
theorem Core.slotPwait_eq (c : Core) {q n : Nat} (hq : q < 64) (hn : n < 2 ^ 32) (keep : Bool) :
    c.slotPwait q n keep = if n ≤ c.peg q then .go (c.pwaitTake q n keep) else .held 0 := by
  have hok : (!(pegOk q && wordOk n)) = false := by simp only [pegOk, wordOk, hq, hn, decide_true, Bool.and_self, Bool.not_true]
  simp only [Core.slotPwait, Core.pwaitOk, hok, Bool.false_eq_true, if_false, decide_eq_true_eq]

/-- Settles O18: by whether the peg has N, and then by KEEP. -/
theorem pwaitHoldsAndTakes : Obligations.PwaitHoldsAndTakes := by
  intro s t key q n hs hq hn
  have hslot := (s.pkg.core key).slotPwait_eq hq hn
  refine ⟨fun hless keep => ?_, fun hquiet hhas => ?_⟩
  · have held := (hslot keep).trans (if_neg (Nat.not_le.mpr hless))
    exact State.slot_held hs ⟨_, exec_pwait s t q n keep, held⟩
  · have goes := fun keep => (hslot keep).trans (if_pos hhas)
    exact ⟨State.slot_issues hquiet hs ⟨_, exec_pwait s t q n true, goes true⟩ rfl rfl rfl,
      State.slot_issues hquiet hs ⟨_, exec_pwait s t q n false, goes false⟩ rfl rfl rfl⟩

end Sys2Proof.Machine
end

section
/-! PROOFS. The ways in which commands act: a table of them, held to `exec` once. What a way keeps, every command of it keeps. -/
namespace Sys2Proof.Machine

/-- The ways in which commands act on the state. -/
inductive Way where
  | board | coldReset (on : Bool) | power | firmware | request (ch : Chan) | slot (t : Site) | psig (t : Site) (scope n target : Nat)
  | meter (f : Milnik → Milnik) | line (n : Nat) (framing : Bool) | answer

/-- The way of an event of the block. -/
def eventWay : Instr → Way
  | .coldReset on => .coldReset on
  | .pkgPwrok | .bringUp _ | .hostPortReset | .perstRelease .. | .thermTrip | .clkLost _ | .vrAlert _ => .board
  | .pmbusPoll _ | .slowDetection | .rotationTest .. | .rotationTestEnd .. | .fullTestEnd .. | .rebind .. | .jobWatchdog | .abortDone _
  | .drained | .memCe .. | .dtReplay _ | .eventResend .. | .journalFlush _ | .compaction | .ftcUnsync | .packageReset .. | .startStall
  | .controlPeriod .. => .firmware
  | .milnikPowerUp => .meter Milnik.powerUp
  | .milnikPowerLoss => .meter Milnik.powerLoss
  | .milnikSample vi => .meter (fun m => m.sample vi)
  | .milnikRecordClose ok => .meter (fun m => m.close ok)
  | .liveCopyRefresh => .meter Milnik.refresh
  | .countingLine n framing => .line n framing
  | .milnikIdent | .milnikRecord _ | .milnikCert .. | .quote _ => .answer
  | _ => .power

/-- The way of a command: an operation of a tab word acts by its slot, a request in its turn. -/
def wayOf (c : Instr) : Way :=
  match c with
  | .psig t scope n target => .psig t scope n target
  | c =>
    match siteOf c, requestChan c with
    | some t, _ => .slot t
    | none, some ch => .request ch
    | none, none => eventWay c

/-- What it means for a command to act in a way. -/
def Way.Acts (c : Instr) (s : State) : Way → Prop
  | .board => ∃ f, exec c s = s.always c f
  | .coldReset on => ∃ f, exec c s = ({ s with waiting := [] } : State).always (.coldReset on) f
  | .power => ∃ f, exec c s = s.inPower c f
  | .firmware => ∃ f, exec c s = s.byFirmware c f
  | .request ch => ∃ f, exec c s = s.request c ch f
  | .slot t => ∃ f, exec c s = s.slot c t f
  | .psig t scope n target => exec c s = s.psig c t scope n target
  | .meter f => exec c s = s.meter f
  | .line n framing => exec c s = s.countingLine n framing
  | .answer => ∃ f, exec c s = s.answer f

/-- Every command acts in its way. -/
theorem exec_acts (c : Instr) (s : State) : (wayOf c).Acts c s := by
  cases c <;> simp only [wayOf, siteOf, requestChan, eventWay, Way.Acts, exec]
  case psig | milnikPowerUp | milnikPowerLoss | milnikSample | milnikRecordClose | liveCopyRefresh | countingLine => rfl
  all_goals exact ⟨_, rfl⟩

/-! Milnik and the invariant (R361, R459 to R467). -/

theorem foldl_inv {α β : Type} {P : β → Prop} {f : β → α → β} (hf : ∀ b a, P b → P (f b a)) (l : List α) {b : β} (hb : P b) :
    P (l.foldl f b) := by
  induction l generalizing b with
  | nil => exact hb
  | cons a l ih => exact ih (hf b a hb)

/-- R459: a sample of one rail keeps the widths of its energy and residue. -/
theorem Milnik.sampleRail_inv {m : Milnik} (h : m.Inv) (r : Nat) (vi : Nat × Nat) : (m.sampleRail r vi).Inv := by
  unfold Milnik.sampleRail
  split
  · dsimp only
    refine { h with energy := fun e he => ?_, residue := fun e he => ?_, energyKeys := ?_ }
    · rcases Tbl.mem_set he with rfl | he
      · exact Nat.mod_lt _ (by decide)
      · exact h.energy e he
    · rcases Tbl.mem_set he with rfl | he
      · exact Nat.mod_lt _ (by decide)
      · exact h.residue e he
    · exact Tbl.set_wf h.energyKeys r _
  · exact h

/-- R460: a microsecond of samples. -/
theorem Milnik.sampleAll_inv {m : Milnik} (h : m.Inv) (vi : List (Nat × Nat)) : (m.sampleAll vi).Inv := by
  have rails := foldl_inv (P := Milnik.Inv) (f := fun m (x : (Nat × Nat) × Nat) => if x.2 < 24 then m.sampleRail x.2 x.1 else m)
    (fun m x hm => by
      split
      · exact Milnik.sampleRail_inv hm x.2 x.1
      · exact hm) vi.zipIdx h
  unfold Milnik.sampleAll
  generalize List.foldl _ m vi.zipIdx = u at rails ⊢
  dsimp only
  split
  · exact { rails with us := Nat.zero_lt_succ _ }
  · have before := rails.us
    exact { rails with us := by dsimp only; omega }

theorem Milnik.sample_inv {m : Milnik} (h : m.Inv) (vi : List (Nat × Nat)) : (m.sample vi).Inv := by
  unfold Milnik.sample
  split
  · exact h
  · split
    · exact Milnik.sampleAll_inv (Milnik.close_inv h true) vi
    · exact Milnik.sampleAll_inv h vi

/-- R461, R462: a die's counts are added within 128 bits. -/
theorem Milnik.countLine_inv {m : Milnik} (h : m.Inv) (n : Nat) (counts : Tbl Nat) (framing : Bool) : (m.countLine n counts framing).Inv := by
  have sums := foldl_inv (P := fun t : Tbl Nat => (∀ e ∈ t, e.2 < 2 ^ 128) ∧ t.wf)
    (f := fun t (e : Nat × Nat) => t.upd e.1 0 (fun x => (x + e.2) % 2 ^ 128))
    (fun t e ht => ⟨fun y hy => by
      rcases Tbl.mem_set hy with rfl | hy
      · exact Nat.mod_lt _ (by decide)
      · exact ht.1 y hy, Tbl.upd_wf ht.2 _ _ _⟩) counts ⟨h.ops, h.opsKeys⟩
  unfold Milnik.countLine
  split
  · exact h
  · split
    · exact { h with }
    · exact { h with ops := sums.1, opsKeys := sums.2 }

/-- Milnik's events keep its invariant. -/
theorem wayOf_meter_inv {c : Instr} {f : Milnik → Milnik} (hc : wayOf c = .meter f) {m : Milnik} (h : m.Inv) : (f m).Inv := by
  cases c <;> simp only [wayOf, siteOf, requestChan, eventWay, Way.meter.injEq, reduceCtorEq] at hc
  all_goals subst hc
  case milnikPowerUp => exact Milnik.powerUp_inv h
  case milnikPowerLoss => exact Milnik.powerLoss_inv h
  case milnikSample vi => exact Milnik.sample_inv h vi
  case milnikRecordClose ok => exact Milnik.close_inv h ok
  case liveCopyRefresh => exact Milnik.refresh_inv h

/-- R467: the commands that `ofMilnik` names are those of a meter event or a counting line. -/
theorem ofMilnik_iff (c : Instr) : ofMilnik c = true ↔ (∃ f, wayOf c = .meter f) ∨ ∃ n framing, wayOf c = .line n framing := by
  cases c <;> simp [wayOf, siteOf, requestChan, eventWay, ofMilnik]

theorem wayOf_line {c : Instr} {n : Nat} {framing : Bool} (h : wayOf c = .line n framing) : c = .countingLine n framing := by
  cases c <;> simp only [wayOf, siteOf, requestChan, eventWay, Way.line.injEq, reduceCtorEq] at h
  obtain ⟨rfl, rfl⟩ := h
  rfl

/-- The outcome is a next state, with the same Milnik. -/
def SameMeter (s : State) (o : Host.Outcome State Fault Refusal) : Prop := ∃ u, o = .next u ∧ u.mtr = s.mtr

theorem put_sameMeter (s : State) (c : Instr) (p : Pkg) : SameMeter s (s.put c p) := by
  refine ⟨_, State.put_afterwards s c p, ?_⟩
  unfold State.afterwards
  split <;> rfl

theorem inPower_sameMeter (s : State) (c : Instr) (f : Pkg → Pkg) : SameMeter s (s.inPower c f) := by
  unfold State.inPower
  split
  · exact put_sameMeter s c _
  · exact ⟨s, rfl, rfl⟩

theorem byFirmware_sameMeter (s : State) (c : Instr) (f : Pkg → Pkg) : SameMeter s (s.byFirmware c f) := by
  unfold State.byFirmware
  split
  · exact put_sameMeter s c _
  · exact ⟨s, rfl, rfl⟩

theorem request_sameMeter (s : State) (c : Instr) (ch : Chan) (f : Pkg → Pkg) : SameMeter s (s.request c ch f) := by
  unfold State.request
  split
  · exact ⟨_, rfl, rfl⟩
  · exact inPower_sameMeter s c f

theorem answer_sameMeter (s : State) (f : Milnik → List Byte) : SameMeter s (s.answer f) := by
  unfold State.answer
  split
  · exact ⟨_, rfl, rfl⟩
  · exact ⟨s, rfl, rfl⟩

theorem slot_sameMeter (s : State) (c : Instr) (t : Site) (f : Core → SlotOut) :
    SameMeter s (s.slot c t f) ∨ s.slot c t f = .fault .programError := by
  unfold State.slot
  split
  · exact .inl ⟨s, rfl, rfl⟩
  · split
    · exact .inl (put_sameMeter s c _)
    · exact .inl ⟨_, rfl, rfl⟩
    · exact .inr rfl

theorem psig_sameMeter (s : State) (c : Instr) (t : Site) (scope n target : Nat) :
    SameMeter s (s.psig c t scope n target) ∨ s.psig c t scope n target = .fault .programError := by
  unfold State.psig
  split
  · exact .inl ⟨s, rfl, rfl⟩
  · split
    · exact .inl (put_sameMeter s c _)
    · exact .inr rfl

/-- Commands of a slot, and no others, may be program errors. -/
def Way.ofSlot : Way → Bool
  | .slot _ | .psig .. => true
  | _ => false

theorem siteOf_isSome (c : Instr) : (siteOf c).isSome = (wayOf c).ofSlot := by
  cases c <;> rfl

/-- R467: every command but Milnik's own events keeps Milnik, or is a program error of its slot. -/
theorem exec_sameMeter {c : Instr} (hc : ofMilnik c = false) (s : State) :
    SameMeter s (exec c s) ∨ ((siteOf c).isSome = true ∧ exec c s = .fault .programError) := by
  have hm := mt (ofMilnik_iff c).mpr (ne_true_of_eq_false hc)
  have acts := exec_acts c s
  rw [siteOf_isSome]
  generalize wayOf c = w at hm acts
  cases w with
  | board => obtain ⟨f, he⟩ := acts; exact .inl (he ▸ put_sameMeter s c _)
  | coldReset on => obtain ⟨f, he⟩ := acts; exact .inl (he ▸ put_sameMeter { s with waiting := [] } _ _)
  | power => obtain ⟨f, he⟩ := acts; exact .inl (he ▸ inPower_sameMeter s c f)
  | firmware => obtain ⟨f, he⟩ := acts; exact .inl (he ▸ byFirmware_sameMeter s c f)
  | request ch => obtain ⟨f, he⟩ := acts; exact .inl (he ▸ request_sameMeter s c ch f)
  | slot t => obtain ⟨f, he⟩ := acts; exact (he ▸ slot_sameMeter s c t f).imp_right (fun h => ⟨rfl, h⟩)
  | psig t scope n target => exact (Eq.symm acts ▸ psig_sameMeter s c t scope n target).imp_right (fun h => ⟨rfl, h⟩)
  | meter f => exact absurd (.inl ⟨f, rfl⟩) hm
  | line n framing => exact absurd (.inr ⟨n, framing, rfl⟩) hm
  | answer => obtain ⟨f, he⟩ := acts; exact .inl (he ▸ answer_sameMeter s f)

/-! Steps on an empty queue (log 1). -/

/-- What waits and may go on: nothing while a snoop is unanswered or a write is held. -/
def State.mayGoOn (s : State) : List Instr := if s.pkg.snoops.isEmpty && s.pkg.fw.jheld.isEmpty then s.waiting else []

theorem State.idle_waiting {s : State} {c : Instr} {cs : List Instr} (h : s.mayGoOn = c :: cs) :
    s.idle = .next { s with waiting := [], pending := c :: cs } := by
  unfold State.mayGoOn at h
  unfold State.idle
  rw [h]

theorem State.idle_frame {s : State} {k : Nat} {x : Nat × Frame} (h : s.mayGoOn = []) (hf : s.pkg.nextFrame = some (k, x)) :
    s.idle = .next { s with pkg := { s.pkg with fab := { s.pkg.fab with inbox := listDel s.pkg.fab.inbox k } },
                            pending := [frameCommand (if x.1 < 4 then 5 + x.1 else x.1) x.2] } := by
  unfold State.mayGoOn at h
  unfold State.idle
  rw [h, hf]

theorem State.idle_off {s : State} (h : s.mayGoOn = []) (hf : s.pkg.nextFrame = none) (hp : s.pkg.powered = false) : s.idle = .next s := by
  unfold State.mayGoOn at h
  unfold State.idle
  rw [h, hf, hp]
  rfl

theorem State.idle_cores {s : State} (h : s.mayGoOn = []) (hf : s.pkg.nextFrame = none) (hp : s.pkg.powered = true) :
    s.idle = match s.pkg.coresNext (s.pkg.cores.map Prod.fst) with
      | .go p cs => .next { s with pkg := p, pending := cs }
      | .stop => .fault .programError
      | .none => .next { s with pkg := s.pkg.tick } := by
  unfold State.mayGoOn at h
  unfold State.idle
  rw [h, hf, hp]
  rfl

/-- What a step on an empty queue answers. -/
theorem State.idle_keep {s : State} (h : s.pkg.touched = none) : Keep s s.idle := by
  cases hg : s.mayGoOn with
  | cons c cs => rw [State.idle_waiting hg]; intro s' he; cases he; exact ⟨rfl, h⟩
  | nil =>
    cases hf : s.pkg.nextFrame with
    | some x => rw [State.idle_frame hg hf]; intro s' he; cases he; exact ⟨rfl, h⟩
    | none =>
      cases hp : s.pkg.powered with
      | false => rw [State.idle_off hg hf hp]; exact keep_same h
      | true =>
        rw [State.idle_cores hg hf hp]
        cases hc : s.pkg.coresNext (s.pkg.cores.map Prod.fst) with
        | none => exact keep_pkg ((Pkg.tick_touched _).trans h)
        | stop => intro s' he; cases he
        | go p cs => intro s' he; cases he; exact ⟨rfl, Pkg.coresNext_touched h hc⟩

theorem State.idle_mtr {s s' : State} (he : s.idle = .next s') : s'.mtr = s.mtr := by
  cases hg : s.mayGoOn with
  | cons c cs => rw [State.idle_waiting hg] at he; cases he; rfl
  | nil =>
    cases hf : s.pkg.nextFrame with
    | some x => rw [State.idle_frame hg hf] at he; cases he; rfl
    | none =>
      cases hp : s.pkg.powered with
      | false => rw [State.idle_off hg hf hp] at he; cases he; rfl
      | true =>
        rw [State.idle_cores hg hf hp] at he
        cases hc : s.pkg.coresNext (s.pkg.cores.map Prod.fst) <;> rw [hc] at he <;> cases he <;> rfl

/-! The invariant. -/

/-- A command that is no event of Milnik keeps Milnik and leaves no line waited for. -/
theorem exec_keep {c : Instr} (hc : ofMilnik c = false) {s : State} (h : s.pkg.touched = none) : Keep s (exec c s) := by
  have hm := mt (ofMilnik_iff c).mpr (ne_true_of_eq_false hc)
  have acts := exec_acts c s
  generalize wayOf c = w at hm acts
  cases w with
  | board => obtain ⟨f, he⟩ := acts; exact he ▸ keep_always h c f
  | coldReset on => obtain ⟨f, he⟩ := acts; exact he ▸ keep_always (s := { s with waiting := [] }) h _ f
  | power => obtain ⟨f, he⟩ := acts; exact he ▸ keep_inPower h c f
  | firmware => obtain ⟨f, he⟩ := acts; exact he ▸ keep_byFirmware h c f
  | request ch => obtain ⟨f, he⟩ := acts; exact he ▸ keep_request h c ch f
  | slot t => obtain ⟨f, he⟩ := acts; exact he ▸ keep_slot h c t f
  | psig t scope n target => exact Eq.symm acts ▸ keep_psig h c t scope n target
  | meter f => exact absurd (.inl ⟨f, rfl⟩) hm
  | line n framing => exact absurd (.inr ⟨n, framing, rfl⟩) hm
  | answer => obtain ⟨f, he⟩ := acts; exact he ▸ keep_answer h f

/-- A counting line changes Milnik by its counts, and the die's line. -/
theorem State.countingLine_eq (s : State) (n : Nat) (framing : Bool) : s.countingLine n framing = .next
    (if s.pkg.present n then
      { s with mtr := s.mtr.countLine n (s.pkg.die n).line framing, pkg := s.pkg.updDie n (fun d => { d with line := [] }) }
    else s) := by
  unfold State.countingLine
  split <;> rfl

/-- An event of Milnik keeps the invariant. -/
theorem exec_milnik_inv {c : Instr} (hc : ofMilnik c = true) {s s' : State} (h : s.Inv) (he : exec c s = .next s') : s'.Inv := by
  have acts := exec_acts c s
  rcases (ofMilnik_iff c).mp hc with ⟨f, hw⟩ | ⟨n, framing, hw⟩
  · rw [hw] at acts
    cases he.symm.trans acts
    exact ⟨wayOf_meter_inv hw h.1, h.2⟩
  · rw [hw] at acts
    cases (he.symm.trans acts).trans (s.countingLine_eq n framing)
    split
    · exact ⟨Milnik.countLine_inv h.1 _ _ _, h.2⟩
    · exact h

/-- Settles O59: an event of Milnik by the rules of its operations, every other command and a step on an empty queue by what they keep. -/
theorem invariantKept : Obligations.InvariantKept := by
  intro s s' h he
  have kept : ∀ {s : State} {o}, s.Inv → Keep s o → o = .next s' → s'.Inv := fun h k ho =>
    ⟨(k _ ho).1 ▸ h.1, (k _ ho).2⟩
  unfold step at he
  split at he
  · rename_i c cs _
    cases hc : ofMilnik c with
    | true => exact exec_milnik_inv (s := { s with pending := cs }) hc h he
    | false => exact kept (s := { s with pending := cs }) h (exec_keep hc h.2) he
  · exact kept h (State.idle_keep h.2) he

/-- What an event of Milnik does to it is a function of Milnik, and of a die's counting line. -/
theorem exec_milnik_mtr {c : Instr} (hc : ofMilnik c = true) (s : State) (p : Pkg)
    (hline : ∀ n f, c = .countingLine n f → p.present n = s.pkg.present n ∧ (p.die n).line = (s.pkg.die n).line) :
    ∃ t u, exec c s = .next t ∧ exec c { s with pkg := p } = .next u ∧ u.mtr = t.mtr := by
  have acts := exec_acts c
  rcases (ofMilnik_iff c).mp hc with ⟨f, hw⟩ | ⟨n, framing, hw⟩
  · rw [hw] at acts
    exact ⟨_, _, acts s, acts { s with pkg := p }, rfl⟩
  · rw [hw] at acts
    refine ⟨_, _, (acts s).trans (s.countingLine_eq n framing), (acts _).trans (State.countingLine_eq _ n framing), ?_⟩
    obtain ⟨hpres, hdie⟩ := hline n framing (wayOf_line hw)
    rw [hpres, hdie]
    split <;> rfl

/-- Settles O60: by the ways in which commands act; of a step on an empty queue by its cases. -/
theorem meterIsolated : Obligations.MeterIsolated := by
  refine ⟨fun c s s' hc he => ?_, fun s s' hp he => ?_, fun c s t p hc hline he => ?_⟩
  · rcases exec_sameMeter hc s with ⟨u, hu, hm⟩ | ⟨-, hf⟩
    · cases he.symm.trans hu
      exact hm
    · cases he.symm.trans hf
  · rw [step, hp] at he
    exact State.idle_mtr he
  · obtain ⟨t', u, ht, hu, hm⟩ := exec_milnik_mtr hc s p hline
    cases he.symm.trans ht
    exact ⟨u, hu, hm⟩

end Sys2Proof.Machine
end

section
/-! PROOFS. Die pegs (R160), the front of the queue, a step on an empty queue (log 1), and what reset leaves. -/
namespace Sys2Proof.Machine

/-- R160: a peg holds the lesser of the sum and 2^32 - 1. -/
theorem pegSum_eq (v k : Nat) : pegSum v k = min (v + k) (2 ^ 32 - 1) := by
  unfold pegSum
  omega

theorem Pkg.dpeg_updDie (p : Pkg) (n m q : Nat) (f : Die → Die) :
    (p.updDie n f).dpeg m q = if n = m then (f (p.die n)).pegs.getD q 0 else p.dpeg m q := by
  simp only [Pkg.dpeg, Pkg.die_updDie]
  split <;> rfl

/-- R160: of a die's pegs, one sets a value and the others stay. -/
theorem Pkg.dpeg_setPeg (p : Pkg) (n m q r v : Nat) (f : Die → Die) (hf : (f (p.die n)).pegs = (p.die n).pegs.set q v) :
    (p.updDie n f).dpeg m r = if n = m ∧ q = r then v else p.dpeg m r := by
  rw [Pkg.dpeg_updDie, hf, Tbl.getD_set]
  by_cases hn : n = m
  · subst hn
    by_cases hq : q = r <;> simp [hq, Pkg.dpeg]
  · simp [hn]

/-- Settles O31: both operations set one peg of the die, the one by `pegSum`. -/
theorem diePegsSaturate : Obligations.DiePegsSaturate := by
  intro p n q k _
  have added := fun m r => p.dpeg_setPeg n m q r (pegSum (p.dpeg n q) k) (fun d => d.addPeg q k) rfl
  have written := fun m r => p.dpeg_setPeg n m q r (k % 2 ^ 32) (fun d => { d with pegs := d.pegs.set q (k % 2 ^ 32) }) rfl
  refine ⟨?_, ?_, fun hk => ?_, fun m r hmr => ?_⟩
  · exact ((added n q).trans (if_pos ⟨rfl, rfl⟩)).trans (pegSum_eq _ _)
  · rw [Pkg.addDpeg, Pkg.die_updDie, if_pos rfl]
    show (if 0xFFFFFFFF < p.dpeg n q + k then _ else _) = _
    by_cases hs : p.dpeg n q + k ≤ 2 ^ 32 - 1
    · exact (if_neg (by omega)).trans (if_pos hs).symm
    · exact (if_pos (by omega)).trans (if_neg hs).symm
  · exact ((written n q).trans (if_pos ⟨rfl, rfl⟩)).trans (Nat.mod_eq_of_lt hk)
  · have other : ¬ (n = m ∧ q = r) := fun h => hmr.elim (fun hm => hm h.1.symm) (fun hr => hr h.2.symm)
    exact ⟨(added m r).trans (if_neg other), (written m r).trans (if_neg other)⟩

/-- Settles O56: `step` on a queue with a front. -/
theorem stepRunsFront : Obligations.StepRunsFront := fun _ _ => rfl

theorem listDel_eq_eraseIdx {α : Type} (l : List α) (k : Nat) : listDel l k = l.eraseIdx k := by
  induction l generalizing k with
  | nil => rfl
  | cons x xs ih =>
    cases k with
    | zero => rfl
    | succ k => rw [listDel, ih, List.eraseIdx_cons_succ]

/-- R302: the frame that is taken stands in an input buffer at its place. -/
theorem Pkg.nextFrame_at {p : Pkg} {k : Nat} {x : Nat × Frame} (h : p.nextFrame = some (k, x)) : p.fab.inbox[k]? = some x := by
  obtain ⟨⟨y, i⟩, hy, he⟩ := Option.map_eq_some_iff.mp h
  cases he
  exact List.mem_zipIdx_iff_getElem?.mp (List.mem_of_find?_eq_some hy)

/-- R302: the oldest frame, where it may be taken. -/
theorem Pkg.nextFrame_first {p : Pkg} {x : Nat × Frame} {xs : List (Nat × Frame)} (hb : p.fab.inbox = x :: xs)
    (ht : p.takeable [] x = true) : p.nextFrame = some (0, x) := by
  unfold Pkg.nextFrame
  rw [hb, List.zipIdx_cons, List.find?_cons_of_pos (by exact ht)]
  rfl

/-- R322: each tick counts one. -/
theorem iterate_count_now (n : Nat) (p : Pkg) : (iterate Pkg.count n p).ftc.now = p.ftc.now + n := by
  induction n generalizing p with
  | zero => rfl
  | succ n ih =>
    rw [iterate, ih]
    show p.ftc.now + 1 + n = p.ftc.now + (n + 1)
    omega

theorem Ftc.slewed_now (t : Ftc) : t.slewed.1.now = t.now := by
  unfold Ftc.slewed
  split <;> rfl

theorem Pkg.tick_now (p : Pkg) : p.tick.ftc.now = p.ftc.now + p.ftc.slewed.2 :=
  (iterate_count_now _ _).trans (congrArg (· + p.ftc.slewed.2) p.ftc.slewed_now)

theorem Ftc.slewed_steady {t : Ftc} (h : t.slewing = 0) : t.slewed.2 = 1 := by
  simp [Ftc.slewed, h]

theorem State.mayGoOn_nil {s : State} (h : s.waiting = [] ∨ s.pkg.snoops ≠ [] ∨ s.pkg.fw.jheld ≠ []) : s.mayGoOn = [] := by
  unfold State.mayGoOn
  split
  · rename_i hw
    simp only [Bool.and_eq_true, List.isEmpty_iff] at hw
    obtain ⟨hsnoop, hheld⟩ := hw
    rcases h with h | h | h
    · exact h
    · exact absurd hsnoop h
    · exact absurd hheld h
  · rfl

/-- Settles O57: by the cases of `State.idle`. -/
theorem emptyQueueActs : Obligations.EmptyQueueActs := by
  intro s hpend
  have hstep : step s = s.idle := by rw [step, hpend]
  rw [hstep]
  refine ⟨fun hsnoop hheld c cs hw => ?_, fun hgo => ?_⟩
  · exact State.idle_waiting (by rw [State.mayGoOn, hsnoop, hheld, hw]; rfl)
  · have none := State.mayGoOn_nil hgo
    refine ⟨fun k x hf => ⟨Pkg.nextFrame_at hf, ?_⟩, fun x xs => Pkg.nextFrame_first, fun hf => ⟨State.idle_off none hf, fun hp =>
      ⟨fun p cs hc => ?_, fun hc => ?_, s.pkg.tick_now, Ftc.slewed_steady⟩⟩⟩
    · rw [State.idle_frame none hf, listDel_eq_eraseIdx]
    · rw [State.idle_cores none hf hp, hc]
    · rw [State.idle_cores none hf hp, hc]

/-- Milnik as manufactured meets its invariant (R459 to R464). -/
theorem Milnik.reset_inv : Milnik.reset.Inv where
  energy := fun _ h => nomatch h
  residue := fun _ h => nomatch h
  ops := fun _ h => nomatch h
  energyKeys := .nil
  opsKeys := .nil
  us := by decide
  ram := by decide
  flash := fun _ h => nomatch h
  flashKeys := .nil
  boots := by decide
  gen := by decide

/-- Settles O58: the fields of `State.reset`; no core and no ring is listed. -/
theorem resetLeaves : Obligations.ResetLeaves :=
  ⟨⟨Milnik.reset_inv, rfl⟩, rfl, rfl, by decide, rfl, rfl, rfl, fun _ => ⟨rfl, rfl⟩, by decide, fun _ => rfl, rfl, rfl⟩

end Sys2Proof.Machine
end

section
/-! PROOFS. What the operations of a tab word do where they issue (R144 to R157, R160): each through the outcome of its slot. -/
namespace Sys2Proof.Machine

section
variable {s : State} {i : Instr} {t : Site} {key : Nat}

/-- An operation that only its operands can make a program error, and that raises nothing, issues. -/
theorem State.slotIf_issues {ok : Core → Bool} {g : Core → Core} {q : Core} (hq : s.pkg.Quiet) (hs : s.pkg.site t = some key)
    (he : exec i s = s.slot i t (fun c => slotIf (ok c) (g c))) (hok : ok (s.pkg.core key) = true) (hg : g (s.pkg.core key) = q)
    (hue : q.ue = (s.pkg.core key).ue) (htrap : q.seq.trap = (s.pkg.core key).seq.trap) (hab : q.aborted = (s.pkg.core key).aborted) :
    Issues i s t key q := by
  subst hg
  exact State.slot_issues hq hs ⟨_, he, slotIf_go hok _⟩ hue htrap hab

/-- R136: an operation that schedules one result. -/
theorem State.schedules {ok : Core → Bool} {slot lat : Nat} {dest : Core → Dest} (hq : s.pkg.Quiet) (hs : s.pkg.site t = some key)
    (he : exec i s = s.slot i t (fun c => slotIf (ok c) (c.schedule slot lat (dest c)))) (hok : ok (s.pkg.core key) = true) :
    Issues i s t key ((s.pkg.core key).schedule slot lat (dest (s.pkg.core key))) :=
  State.slotIf_issues hq hs he hok rfl rfl rfl rfl

/-- R147: an SCA operation on S[A] and the second operand. -/
theorem sca_issues {d a lat : Nat} {b : SOpnd} (f : Dword → Dword → Dword) (hq : s.pkg.Quiet) (hs : s.pkg.site t = some key)
    (hok : scaOk d a b = true)
    (he : exec i s = s.slot i t (fun c => slotIf (scaOk d a b) (c.sca lat d (f (c.rdS a) (c.opnd b))))) :
    Issues i s t key ((s.pkg.core key).sca lat d (f ((s.pkg.core key).rdS a) ((s.pkg.core key).opnd b))) :=
  State.schedules (ok := fun _ => scaOk d a b) hq hs he hok

/-- R149, R420: a VEC operation, with what else it counts. -/
theorem vec_issues {ok : Bool} {d lat : Nat} (f : Core → List Word) (hq : s.pkg.Quiet) (hs : s.pkg.site t = some key) (hok : ok = true)
    (he : exec i s = s.slot i t (fun c => slotIf ok (c.vec lat d (f c)))) :
    Issues i s t key ((s.pkg.core key).vec lat d (f (s.pkg.core key))) :=
  State.slotIf_issues (ok := fun _ => ok) hq hs he hok rfl rfl rfl rfl

end

/-- Settles O1: every operation by its function of the two operands. -/
theorem scaResults : Obligations.ScaResults := by
  intro s t key d a b hq hs hd ha hb
  have hok : scaOk d a b = true := by simp only [scaOk, regOk, hd, ha, hb, decide_true, Bool.and_self]
  exact ⟨sca_issues scaAdd hq hs hok rfl, sca_issues scaSub hq hs hok rfl, sca_issues scaAnd hq hs hok rfl, sca_issues scaOr hq hs hok rfl,
    sca_issues scaXor hq hs hok rfl, sca_issues scaShl hq hs hok rfl, sca_issues scaShr hq hs hok rfl, sca_issues scaSar hq hs hok rfl,
    sca_issues scaMul hq hs hok rfl, sca_issues scaMin hq hs hok rfl, sca_issues scaMax hq hs hok rfl, sca_issues scaSlt hq hs hok rfl,
    sca_issues scaSeq hq hs hok rfl⟩

/-- Settles O2. -/
theorem scaMoves : Obligations.ScaMoves := by
  intro s t key d a v hq hs hd ha
  have hd' : regOk d = true := decide_eq_true hd
  have ha' : regOk a = true := decide_eq_true ha
  exact ⟨State.schedules (ok := fun _ => regOk d) (dest := fun _ => .s d (v.signExtend 64)) hq hs rfl hd',
    State.schedules (ok := fun _ => regOk d && regOk a) (dest := fun c => .s d (scaMovhi (c.rdS a) v)) hq hs rfl (by simp only [hd', ha', Bool.and_self])⟩

/-! LDS (R148). -/

theorem toBytes_eight_length (x : Nat) : (toBytes 8 x).length = 8 := toBytes_length 8 x

/-- R177: a read without an uncorrectable word raises nothing. -/
theorem Core.noteUE_of_good (c : Core) {bad : Bool} (h : bad = false) : c.noteUE bad = c := by
  subst h
  rfl

/-- R148: an aligned range within the bench. -/
theorem Core.ldsOk_of_range {c : Core} {size r a off : Nat} (hr : r < 32) (ha : a < 32) (hoff : off < 2 ^ 19)
    (halign : c.benchAddr a off % min size 64 = 0) (hrange : c.benchAddr a off + size ≤ 0x300000) : c.ldsOk size r a off = true := by
  simp only [Core.ldsOk, regOk, benchSize, hr, ha, hoff, halign, hrange, decide_true, Bool.and_self]

/-- Settles O3: each operation on its range; a load whose words are good raises nothing. -/
theorem ldsEffects : Obligations.LdsEffects := by
  intro s t key r a off hq hs hr ha hoff
  have ok := fun size => (s.pkg.core key).ldsOk_of_range (size := size) hr ha hoff
  refine ⟨fun halign hrange => ⟨fun hgood => ?_, ?_⟩, fun halign hrange => ⟨fun hgood => ?_, ?_⟩, fun halign hrange hgood => ?_⟩
  · exact State.slotIf_issues (ok := fun c => c.ldsOk 256 r a off) (g := fun c => c.vld r a off) hq hs rfl (ok 256 halign hrange)
      (congrArg (fun c => Core.schedule c _ _ _) (Core.noteUE_of_good _ hgood)) rfl rfl rfl
  · exact State.slotIf_issues (ok := fun c => c.ldsOk 256 r a off) (g := fun c => c.vst r a off) hq hs rfl (ok 256 halign hrange)
      rfl rfl rfl rfl
  · exact State.slotIf_issues (ok := fun c => c.ldsOk 8 r a off) (g := fun c => c.sld r a off) hq hs rfl (ok 8 halign hrange)
      (congrArg (fun c => Core.schedule c _ _ _) (Core.noteUE_of_good _ hgood)) rfl rfl rfl
  · exact State.slotIf_issues (ok := fun c => c.ldsOk 8 r a off) (g := fun c => c.sst r a off) hq hs rfl (ok 8 halign hrange)
      (by rw [Core.sst, Core.benchWr, toBytes_eight_length]; rfl) rfl rfl rfl
  · exact State.slotIf_issues (ok := fun c => c.ldsOk 4 r a off) (g := fun c => c.vldb r a off) hq hs rfl (ok 4 halign hrange)
      (congrArg (fun c => Core.schedule c _ _ _) (Core.noteUE_of_good _ hgood)) rfl rfl rfl

/-! VEC (R149) and ROW (R150). -/

/-- Settles O4: every operation by the lanes it computes. -/
theorem vecEffects : Obligations.VecEffects := by
  intro s t key d a b e hq hs hd ha hb he
  have ok4 : vecOk d a b e = true := by simp only [vecOk, regOk, hd, ha, hb, he, decide_true, Bool.and_self]
  have ok3 : vecOk d a b 0 = true := by simp only [vecOk, regOk, hd, ha, hb, decide_true, Bool.and_self, Nat.zero_lt_succ]
  have ok2 : vecOk d a 0 0 = true := by simp only [vecOk, regOk, hd, ha, decide_true, Bool.and_self, Nat.zero_lt_succ]
  refine ⟨vec_issues (fun c => c.lanes2 fadd a b) hq hs ok3 rfl, vec_issues (fun c => c.lanes2 fsub a b) hq hs ok3 rfl,
    vec_issues (fun c => c.lanes2 fmul a b) hq hs ok3 rfl, ?_, vec_issues (fun c => c.lanes2 fmin a b) hq hs ok3 rfl,
    vec_issues (fun c => c.lanes2 fmax a b) hq hs ok3 rfl, vec_issues (fun c => c.lanes2 fcmplt a b) hq hs ok3 rfl,
    vec_issues (fun c => c.lanes2 fcmpeq a b) hq hs ok3 rfl, vec_issues (fun c => c.lanesSel a b e) hq hs ok4 rfl,
    vec_issues (fun c => List.replicate 64 ((c.rdS a).truncate 32)) hq hs ok2 rfl, vec_issues (fun c => c.reduceLanes fadd a) hq hs ok2 rfl,
    vec_issues (fun c => c.reduceLanes fmax a) hq hs ok2 rfl, fun src dst rnd hsrc hdst hrnd => ?_, fun fmt rnd hlo hhi hrnd => ?_⟩
  · exact State.slotIf_issues (ok := fun _ => vecOk d a b e) (g := fun c => (c.vec 4 d (c.lanesFma a b e)).countAs c.seq.ids 17 64) hq hs rfl ok4
      rfl rfl rfl rfl
  · have hkey : rnd.all keyOk = true := hrnd
    exact vec_issues (fun c => c.cvtLanes a src dst rnd) hq hs (by rw [ok2, hsrc, hdst, hkey]; rfl) rfl
  · have hkey : rnd.all keyOk = true := hrnd
    exact vec_issues (fun c => c.mxLanes a fmt rnd) hq hs (by rw [ok2, hkey, decide_eq_true hlo, decide_eq_true hhi]; rfl) rfl

/-- R150: a ROW function of half a register. -/
theorem row_issues {s : State} {i : Instr} {t : Site} {key lat d a : Nat} {hi : Bool} (f : Word → Word) (hq : s.pkg.Quiet)
    (hs : s.pkg.site t = some key) (hok : (regOk d && regOk a) = true)
    (he : exec i s = s.slot i t (fun c => slotIf (regOk d && regOk a) (c.rowFn lat f d a hi))) :
    Issues i s t key ((s.pkg.core key).rowFn lat f d a hi) :=
  State.slotIf_issues (ok := fun _ => regOk d && regOk a) hq hs he hok rfl rfl rfl rfl

/-- Settles O5. -/
theorem rowEffects : Obligations.RowEffects := by
  intro s t key d a toff hi hq hs hd ha htoff
  have hok : (regOk d && regOk a) = true := by simp only [regOk, hd, ha, decide_true, Bool.and_self]
  refine ⟨row_issues fexp hq hs hok rfl, row_issues frcp hq hs hok rfl, row_issues frsq hq hs hok rfl, fun hgood => ?_, ?_⟩
  · exact State.slotIf_issues (ok := fun _ => regOk d && toff < 2048) (g := fun c => c.tld d hi toff) hq hs rfl
      (by simp only [regOk, hd, htoff, decide_true, Bool.and_self])
      (congrArg (fun c => Core.schedule c _ _ _) (Core.noteUE_of_good _ hgood)) rfl rfl rfl
  · exact State.slotIf_issues (ok := fun _ => regOk a && toff < 2048) (g := fun c => c.tst a hi toff) hq hs rfl
      (by simp only [regOk, ha, htoff, decide_true, Bool.and_self]) rfl rfl rfl rfl

/-! CTL (R145, R146, R154 to R160). -/

/-- R157: a branch, by whether it is taken. -/
theorem branch_issues {s : State} {i : Instr} {t : Site} {key a : Nat} {off : Int} (taken : Dword → Bool) (hq : s.pkg.Quiet)
    (hs : s.pkg.site t = some key) (ha : a < 32)
    (he : exec i s = s.slot i t (fun c => slotIf (regOk a) (c.branchIf (taken (c.rdS a)) off))) :
    Issues i s t key ((s.pkg.core key).branchIf (taken ((s.pkg.core key).rdS a)) off) := by
  refine State.slotIf_issues (ok := fun _ => regOk a) hq hs he (decide_eq_true ha) rfl ?_ ?_ ?_
  all_goals
    unfold Core.branchIf
    split <;> rfl

/-- R146: QWAIT whose conditions hold. -/
theorem Core.slotQwait_go {c : Core} {mask : Nat} (hm : mask < 32) (hok : c.qwaitOk mask = true) : c.slotQwait mask = .go (c.qwaitTake mask) := by
  rw [Core.slotQwait, if_neg (by omega), if_pos hok]

theorem Core.qwaitTake_eq (c : Core) (mask : Nat) : c.qwaitTake mask = (if mask % 2 = 1 then c.settle else c).unhold := by
  unfold Core.qwaitTake
  split <;> rfl

/-- Settles O6. -/
theorem ctlEffects : Obligations.CtlEffects := by
  intro s t key q n mask sk a b len off src hq hs hpeg hn ha hb
  have pegs : (pegOk q && wordOk n) = true := by simp only [pegOk, wordOk, hpeg, hn, decide_true, Bool.and_self]
  refine ⟨fun hm hok => ?_, ?_, ?_, fun hsk => ?_, fun hsrc hlen hlevels => ?_, ?_, ?_⟩
  · refine State.slot_issues hq hs ⟨fun c => c.slotQwait mask, rfl, (Core.slotQwait_go hm hok).trans (congrArg _ (Core.qwaitTake_eq _ _))⟩ ?_ ?_ ?_
    all_goals
      split <;> rfl
  · exact State.slotIf_issues (ok := fun _ => pegOk q && wordOk n) (g := fun c => c.addPeg q n) hq hs rfl pegs rfl rfl rfl rfl
  · exact State.slotIf_issues (ok := fun _ => pegOk q && wordOk n) (g := fun c => c.setPeg q n) hq hs rfl pegs
      (by rw [Core.setPeg, Nat.mod_eq_of_lt hn]) rfl rfl rfl
  · exact State.slotIf_issues (ok := fun _ => keyOk sk && regOk a && regOk b) (g := fun c => c.skey sk a b) hq hs rfl
      (by simp only [keyOk, regOk, hsk, ha, hb, decide_true, Bool.and_self]) rfl rfl rfl rfl
  · refine State.slotIf_issues (ok := fun c => src.ok && len < 65536 && c.loopOk src len) (g := fun c => c.loopOp src len) hq hs rfl ?_
      rfl rfl rfl rfl
    have hloop : (s.pkg.core key).loopOk src len = true := by
      simpa only [Core.loopOk, Bool.or_eq_true, decide_eq_true_eq, or_assoc] using hlevels
    simp only [hsrc, hloop, hlen, decide_true, Bool.and_self]
  · have := branch_issues (i := .brz t a off) (off := off) (fun x => decide (x = 0#64)) hq hs ha rfl
    simpa only [Core.branchIf, decide_eq_true_eq] using this
  · have := branch_issues (i := .brnz t a off) (off := off) (fun x => !decide (x = 0#64)) hq hs ha rfl
    simpa only [Core.branchIf, Bool.not_eq_true', decide_eq_false_iff_not, ite_not] using this

end Sys2Proof.Machine
end

section
/-! PROOFS. Operations that enter a queue or take a thread, signals, RAISE, and what holds a word or stops the program (R69, R80, R144, R146,
R151 to R153, R162, R172, R173). -/
namespace Sys2Proof.Machine

/-! The outcome of each slot. -/

/-- R80: an array operation in range enters the queue where there is room. -/
theorem Core.slotArr_go {c : Core} {ok : Bool} (hok : ok = true) (w : ArrWhat) (hroom : c.queue.length < 8) :
    c.slotArr ok w = .go (c.enqueue w) := by
  rw [Core.slotArr, hok, if_neg (by simp), if_neg (by omega)]

theorem Core.slotArr_held {c : Core} {ok : Bool} (hok : ok = true) (w : ArrWhat) (hfull : 8 ≤ c.queue.length) :
    c.slotArr ok w = .held 2 := by
  rw [Core.slotArr, hok, if_neg (by simp), if_pos hfull]

/-- R69: an FBFILL in range enters its queue where there is room. -/
theorem Core.slotFill_go {c : Core} {o : FillArg} (ha : o.areg < 32) (hok : o.ok (c.rdS o.areg).toNat = true)
    (hroom : (c.fills o.b).length < 2) : c.slotFill o =
      .go (c.enqueueFill o.b ⟨none, o.slot, o.fmt, (c.rdS o.areg).toNat, o.stride, o.start, o.count, o.peg, 0, 0, c.seq.ids⟩) := by
  have hreg : regOk o.areg = true := decide_eq_true ha
  simp only [Core.slotFill, hreg, hok, Bool.and_self, Bool.not_true, Bool.false_eq_true, if_false]
  rw [if_neg (by omega)]

theorem Core.slotFill_held {c : Core} {o : FillArg} (ha : o.areg < 32) (hok : o.ok (c.rdS o.areg).toNat = true)
    (hfull : 2 ≤ (c.fills o.b).length) : c.slotFill o = .held 3 := by
  have hreg : regOk o.areg = true := decide_eq_true ha
  simp only [Core.slotFill, hreg, hok, Bool.and_self, Bool.not_true, Bool.false_eq_true, if_false, if_pos hfull]

/-- The thread that a GTH operation takes, as it begins. -/
def Core.newThread (c : Core) (kind : GthKind) (o : GthArg) : Thread :=
  let at' := c.benchAddr o.areg o.off
  { d := GDesc.read kind (c.bench.readN at' 64), desc := at', peg := o.peg, ids := c.seq.ids, k := 0, off := 0, idx := none, out := 0
    parked := none, retry := none, buf := [], written := 0, seg := [], toWrite := [], puts := [] }

section
variable {c : Core} {o : GthArg} {kind : GthKind} {x : Nat}

/-- R153, R191: with a free thread, and a descriptor that can be read and is in range, a GTH operation issues. -/
theorem Core.slotGth_go (own : Nat) (ha : o.areg < 32) (hoff : o.off < 2 ^ 32) (hpeg : o.peg.all (· < 64) = true)
    (hfree : c.freeThread = some x) (halign : c.benchAddr o.areg o.off % 64 = 0) (hrange : c.benchAddr o.areg o.off + 64 ≤ 0x300000)
    (hgood : c.benchBad (c.benchAddr o.areg o.off) 64 = false)
    (hdesc : (c.newThread kind o).d.ok (c.bench.readN (c.benchAddr o.areg o.off) 64) = true)
    (hroom : kind = .stream → (c.fills (c.newThread kind o).d.b).length < 2) :
    let g := (c.newThread kind o).d
    let taken : Core := { c with threads := c.threads.set x (c.newThread kind o) }
    c.slotGth kind o own = .go (if kind = .stream then
      taken.enqueueFill g.b ⟨some x, g.slot, g.fmt, 0, 0, g.start, g.count, none, 0, 0, c.seq.ids⟩ else taken) := by
  have hargs : (regOk o.areg && wordOk o.off) = true := by simp only [regOk, wordOk, ha, hoff, decide_true, Bool.and_self]
  have hpeg64 : o.peg.getD 0 < 64 := by
    cases hp : o.peg with
    | none => exact Nat.zero_lt_succ _
    | some q => rw [hp] at hpeg; exact of_decide_eq_true hpeg
  have hin : (decide (c.benchAddr o.areg o.off % 64 ≠ 0) || decide (0x300000 < c.benchAddr o.areg o.off + 64)
      || decide (64 ≤ o.peg.getD 0)) = false := by
    simp only [halign, ne_eq, not_true_eq_false, decide_false, Nat.not_lt.mpr hrange, Nat.not_le.mpr hpeg64, Bool.or_self]
  have hok : (GDesc.read kind (c.benchRd (c.benchAddr o.areg o.off) 64)).ok (c.benchRd (c.benchAddr o.areg o.off) 64) = true := hdesc
  simp only [Core.slotGth, hargs, Core.gthIssue, hfree, hin, hgood, hok, Bool.not_true, Bool.false_eq_true, if_false]
  cases kind with
  | stream =>
    have hfew : ¬ 2 ≤ (c.fills (GDesc.read .stream (c.benchRd (c.benchAddr o.areg o.off) 64)).b).length := Nat.not_le.mpr (hroom rfl)
    simp only [if_neg hfew]
    rfl
  | gather | copy | prefetch => rfl

/-- R186: without a free thread it holds its word. -/
theorem Core.slotGth_held (own : Nat) (ha : o.areg < 32) (hoff : o.off < 2 ^ 32) (hfree : c.freeThread = none) :
    c.slotGth kind o own = .held 4 := by
  have hargs : (regOk o.areg && wordOk o.off) = true := by simp only [regOk, wordOk, ha, hoff, decide_true, Bool.and_self]
  simp only [Core.slotGth, hargs, Core.gthIssue, hfree, Bool.not_true, Bool.false_eq_true, if_false]

end

/-! Queues and threads. -/

theorem Core.enqueueFill_raises (c : Core) (b : Bool) (f : FillOp) :
    (c.enqueueFill b f).ue = c.ue ∧ (c.enqueueFill b f).seq = c.seq ∧ (c.enqueueFill b f).aborted = c.aborted :=
  c.setFills_raises b _

/-- Settles O7. -/
theorem queuedOperations : Obligations.QueuedOperations := by
  intro s t key hq hs
  refine ⟨fun hroom => ⟨fun o hok => ?_, fun o hf hok => ?_, fun o hf hok => ?_⟩, fun o ha hok hroom => ?_⟩
  · exact State.slot_issues hq hs ⟨fun c => c.slotRun o, rfl, Core.slotArr_go hok _ hroom⟩ rfl rfl rfl
  · exact State.slot_issues hq hs ⟨fun c => c.slotLoad o, rfl, Core.slotArr_go (Bool.and_eq_true_iff.mpr ⟨hf, hok⟩) _ hroom⟩ rfl rfl rfl
  · exact State.slot_issues hq hs ⟨fun c => c.slotDrain o, rfl, Core.slotArr_go (Bool.and_eq_true_iff.mpr ⟨hf, hok⟩) _ hroom⟩ rfl rfl rfl
  · obtain ⟨hue, hseq, hab⟩ := (s.pkg.core key).enqueueFill_raises o.b
      ⟨none, o.slot, o.fmt, ((s.pkg.core key).rdS o.areg).toNat, o.stride, o.start, o.count, o.peg, 0, 0, (s.pkg.core key).seq.ids⟩
    exact State.slot_issues hq hs ⟨fun c => c.slotFill o, rfl, Core.slotFill_go ha hok hroom⟩ hue (congrArg Seq.trap hseq) hab

/-- Settles O8: the thread, and for a STREAM the place in its fill queue. -/
theorem gthIssued : Obligations.GthIssued := by
  intro s t key x o hq hs ha hoff hpeg c p d on hfree halign hrange hgood
  have go := fun kind => Core.slotGth_go (kind := kind) (benchBase t.die t.core) ha hoff hpeg hfree halign hrange hgood
  refine ⟨fun hok => ?_, fun hok => ?_, fun hok => ?_, fun hok hroom => ?_⟩
  · exact State.slot_issues hq hs ⟨fun c => c.slotGth .gather o (benchBase t.die t.core), rfl, go .gather hok nofun⟩ rfl rfl rfl
  · exact State.slot_issues hq hs ⟨fun c => c.slotGth .copy o (benchBase t.die t.core), rfl, go .copy hok nofun⟩ rfl rfl rfl
  · exact State.slot_issues hq hs ⟨fun c => c.slotGth .prefetch o (benchBase t.die t.core), rfl, go .prefetch hok nofun⟩ rfl rfl rfl
  · obtain ⟨hue, hseq, hab⟩ := (on .stream).enqueueFill_raises (GDesc.read .stream d).b
      ⟨some x, (GDesc.read .stream d).slot, (GDesc.read .stream d).fmt, 0, 0, (GDesc.read .stream d).start, (GDesc.read .stream d).count, none, 0, 0,
        c.seq.ids⟩
    exact State.slot_issues hq hs ⟨fun c => c.slotGth .stream o (benchBase t.die t.core), rfl, go .stream hok (fun _ => hroom)⟩ hue
      (congrArg Seq.trap hseq) hab

/-- Settles O11: the causes of HOLD by the slots' outcomes. -/
theorem slotsHold : Obligations.SlotsHold := by
  intro s t key hs
  refine ⟨fun mask hm hok => ?_, fun hfull => ⟨fun o hok => ?_, fun o hf hok => ?_, fun o hf hok => ?_⟩, fun o ha hok hfull => ?_,
    fun hfree o ha hoff => ?_⟩
  · refine State.slot_held hs ⟨fun c => c.slotQwait mask, rfl, ?_⟩
    simp only [Core.slotQwait, if_neg (Nat.not_le.mpr hm), hok, Bool.false_eq_true, if_false]
  · exact State.slot_held hs ⟨fun c => c.slotRun o, rfl, Core.slotArr_held hok _ hfull⟩
  · exact State.slot_held hs ⟨fun c => c.slotLoad o, rfl, Core.slotArr_held (Bool.and_eq_true_iff.mpr ⟨hf, hok⟩) _ hfull⟩
  · exact State.slot_held hs ⟨fun c => c.slotDrain o, rfl, Core.slotArr_held (Bool.and_eq_true_iff.mpr ⟨hf, hok⟩) _ hfull⟩
  · exact State.slot_held hs ⟨fun c => c.slotFill o, rfl, Core.slotFill_held ha hok hfull⟩
  · have held := fun kind => Core.slotGth_held (kind := kind) (benchBase t.die t.core) ha hoff hfree
    exact ⟨State.slot_held hs ⟨fun c => c.slotGth .gather o (benchBase t.die t.core), rfl, held _⟩,
      State.slot_held hs ⟨fun c => c.slotGth .stream o (benchBase t.die t.core), rfl, held _⟩,
      State.slot_held hs ⟨fun c => c.slotGth .copy o (benchBase t.die t.core), rfl, held _⟩,
      State.slot_held hs ⟨fun c => c.slotGth .prefetch o (benchBase t.die t.core), rfl, held _⟩⟩

/-! PSIG (R162) and RAISE (R172). -/

theorem Pkg.onKey_coord (p : Pkg) (k : Nat) (f : Core → Core) : (p.onKey k f).coord = p.coord := by
  obtain ⟨-, ds, he⟩ := p.onKey_frame k f
  rw [he]
  rfl

/-- A PSIG with operands in range comes to its signal. -/
theorem psig_runsTo {s : State} {t : Site} {key scope n target : Nat} {p : Pkg} (hs : s.pkg.site t = some key) (hsc : scope < 5)
    (hn : n < 2 ^ 16) (htgt : target < 2 ^ 32) (hp : s.pkg.psigFrom key scope n target = p) :
    RunsTo (.psig t scope n target) s (p.slotGo key t id) := by
  have hok : (decide (scope < 5) && decide (n < 65536) && wordOk target) = true := by
    simp only [wordOk, hsc, htgt, show n < 65536 from hn, decide_true, Bool.and_self]
  subst hp
  have he : exec (.psig t scope n target) s = s.psig (.psig t scope n target) t scope n target := rfl
  rw [RunsTo, he, State.psig, hs]
  simp only [hok, if_true]
  exact State.put_afterwards s _ _

/-- R162: a PSIG that names a peg of this package is no outstanding signal. -/
theorem Pkg.psigFrom_here {p : Pkg} {key scope n target : Nat} (h0 : scope ≠ 0) (hhere : scope < 3 ∨ target / 2 ^ 18 % 2 ^ 14 = p.coord) :
    p.psigFrom key scope n target = p.signalPeg (some key) (key / 72) (p.core key).seq.ids.job (p.core key).seq.tag scope target n := by
  have haway : (decide (3 ≤ scope) && decide (target / 2 ^ 18 % 2 ^ 14 ≠ p.coord)) = false := by
    rcases hhere with h | h
    · simp [Nat.not_le.mpr h]
    · simp only [h, ne_eq, not_true_eq_false, decide_false, Bool.and_false]
  simp only [Pkg.psigFrom, if_neg h0, haway, Bool.false_eq_true, if_false]

section
variable (p : Pkg) (core : Option Nat) (die job tag target n : Nat)

/-- R162: SCOPE 1 and 2, and SCOPE 3 and 4 with the own coordinate. -/
theorem Pkg.signalPeg_local {scope : Nat} (h : scope = 1 ∨ (scope = 3 ∧ target / 2 ^ 18 % 2 ^ 14 = p.coord)) :
    p.signalPeg core die job tag scope target n = p.addLocal (target / 2 ^ 15 % 8) (target / 2 ^ 9 % 64) (target % 64) n := by
  unfold Pkg.signalPeg
  generalize target / 2 ^ 18 % 2 ^ 14 = coord at h ⊢
  rcases h with rfl | ⟨rfl, h⟩
  · simp
  · simp [h]

theorem Pkg.signalPeg_die {scope : Nat} (h : scope = 2 ∨ (scope = 4 ∧ target / 2 ^ 18 % 2 ^ 14 = p.coord)) :
    p.signalPeg core die job tag scope target n =
      if p.present (target / 2 ^ 15 % 8) = true then p.addDpeg (target / 2 ^ 15 % 8) (target % 256) n else p := by
  unfold Pkg.signalPeg
  generalize target / 2 ^ 18 % 2 ^ 14 = coord at h ⊢
  rcases h with rfl | ⟨rfl, h⟩
  · simp
  · simp [h]

/-- R162, R308: a signal to another package. -/
theorem Pkg.signalPeg_away {scope : Nat} (h : 3 ≤ scope) (hc : target / 2 ^ 18 % 2 ^ 14 ≠ p.coord) :
    p.signalPeg core die job tag scope target n = p.sendPsig core
      { Frame.mk' 5 (target / 2 ^ 18 % 2 ^ 14) (target / 2 ^ 15 % 8) die job with id := tag, aux := target + 2 ^ 32 * n + 2 ^ 48 * scope } := by
  have h1 : scope ≠ 1 := by omega
  have h2 : scope ≠ 2 := by omega
  unfold Pkg.signalPeg
  generalize target / 2 ^ 18 % 2 ^ 14 = coord at hc ⊢
  simp [hc, h1, h2]

end

theorem Pkg.psigFrom_away {p : Pkg} {key scope n target : Nat} (h3 : 3 ≤ scope) (hc : target / 2 ^ 18 % 2 ^ 14 ≠ p.coord) :
    p.psigFrom key scope n target = (p.onKey key (fun c => { c with psigs := c.psigs + 1 })).sendPsig (some key)
      { Frame.mk' 5 (target / 2 ^ 18 % 2 ^ 14) (target / 2 ^ 15 % 8) (key / 72) (p.core key).seq.ids.job with
        id := (p.core key).seq.tag, aux := target + 2 ^ 32 * n + 2 ^ 48 * scope } := by
  have h0 : scope ≠ 0 := by omega
  have haway : (decide (3 ≤ scope) && decide (target / 2 ^ 18 % 2 ^ 14 ≠ p.coord)) = true := by
    simp only [h3, hc, ne_eq, not_false_eq_true, decide_true, Bool.and_self]
  simp only [Pkg.psigFrom, if_neg h0, haway, if_true]
  exact Pkg.signalPeg_away _ _ _ _ _ _ _ h3 (by rwa [Pkg.onKey_coord])

/-- R18, R160: an increment of a bound core's peg, and of none. -/
theorem Pkg.addLocal_bound {p : Pkg} {n lc k : Nat} (h : p.phys n lc = some k) (q m : Nat) :
    p.addLocal n lc q m = p.onKey k (fun c => c.addPeg q m) := by
  rw [Pkg.addLocal, h]

theorem Pkg.addLocal_unbound {p : Pkg} {n lc : Nat} (h : p.phys n lc = none) (q m : Nat) : p.addLocal n lc q m = p := by
  rw [Pkg.addLocal, h]

/-- Settles O9: by SCOPE, and by whose coordinate TARGET has. -/
theorem psigEffects : Obligations.PsigEffects := by
  intro s t key n target hs hn htgt
  have goes := fun scope (h : scope < 5) p hp => psig_runsTo (p := p) hs h hn htgt hp
  refine ⟨goes 0 (by decide) _ rfl, fun k hk => goes 1 (by decide) _ ?_, fun hk => goes 1 (by decide) _ ?_,
    fun hpres => goes 2 (by decide) _ ?_, fun hpres => goes 2 (by decide) _ ?_,
    fun hc => ⟨fun k hk => goes 3 (by decide) _ ?_, fun hpres => goes 4 (by decide) _ ?_⟩,
    fun hc => ⟨goes 3 (by decide) _ ?_, goes 4 (by decide) _ ?_⟩⟩
  · rw [Pkg.psigFrom_here (by decide) (.inl (by decide)), Pkg.signalPeg_local _ _ _ _ _ _ _ (.inl rfl), Pkg.addLocal_bound hk]
  · rw [Pkg.psigFrom_here (by decide) (.inl (by decide)), Pkg.signalPeg_local _ _ _ _ _ _ _ (.inl rfl), Pkg.addLocal_unbound hk]
  · rw [Pkg.psigFrom_here (by decide) (.inl (by decide)), Pkg.signalPeg_die _ _ _ _ _ _ _ (.inl rfl), if_pos hpres]
  · rw [Pkg.psigFrom_here (by decide) (.inl (by decide)), Pkg.signalPeg_die _ _ _ _ _ _ _ (.inl rfl), hpres, if_neg Bool.false_ne_true]
  · rw [Pkg.psigFrom_here (by decide) (.inr hc), Pkg.signalPeg_local _ _ _ _ _ _ _ (.inr ⟨rfl, hc⟩), Pkg.addLocal_bound hk]
  · rw [Pkg.psigFrom_here (by decide) (.inr hc), Pkg.signalPeg_die _ _ _ _ _ _ _ (.inr ⟨rfl, hc⟩), if_pos hpres]
  · exact Pkg.psigFrom_away (by decide) hc
  · exact Pkg.psigFrom_away (by decide) hc

theorem Core.issuing_trap {c : Core} (h : c.issuing = true) : c.seq.trap = .none := by
  simp only [Core.issuing, Bool.and_eq_true, decide_eq_true_eq] at h
  exact h.1.1.2

/-- An act that raises a trap and nothing else: the command's trap follows it (R172). -/
theorem Pkg.act_traps {p : Pkg} {key : Nat} {f : Core → Core} (hu : (f (p.core key)).ue = (p.core key).ue)
    (hold : (p.core key).seq.trap = .none) (hnew : (f (p.core key)).seq.trap ≠ .none)
    (ha : (f (p.core key)).aborted = (p.core key).aborted) : p.act key f = (p.onKey key f).trapped key := by
  simp only [Pkg.act, Pkg.core_onKey_self, hu, hold, ha]
  simp [hnew]

/-- R172: RAISE of a core that has not trapped. -/
theorem Core.raise_eq {c : Core} {code : Nat} (hc : code < 2 ^ 16) (h : c.seq.trap = .none) :
    c.raise code = { c with seq := { c.seq with trap := .raise code } } := by
  rw [Core.raise, if_pos h, Nat.mod_eq_of_lt hc]

/-- Settles O10: the act of the slot raises the trap; the last slot of a word is progress of the job, too. -/
theorem raiseTraps : Obligations.RaiseTraps := by
  intro s t key code hs hcode
  have hnone := Core.issuing_trap (Pkg.issuing_of_site hs)
  let q : Core := { s.pkg.core key with seq := { (s.pkg.core key).seq with trap := .raise code } }
  obtain ⟨hue, htrap, hab⟩ := q.fin_raises t.last
  have hact : s.pkg.act key (fun _ => q.fin t.last) =
      (s.pkg.onKey key (fun c => ({ c with seq := { c.seq with trap := .raise code } } : Core).fin t.last)).trapped key :=
    Pkg.act_traps (f := fun _ => q.fin t.last) hue hnone (by rw [htrap]; exact Trap.noConfusion) hab
  have hslot : slotIf (code < 65536) ((s.pkg.core key).raise code) = .go q :=
    (slotIf_go (decide_eq_true hcode) _).trans (congrArg _ (Core.raise_eq hcode hnone))
  have goes := fun p hp => State.slot_runsTo (p := p) (i := .raise t code) hs
    ⟨fun c => slotIf (code < 65536) (c.raise code), rfl, hslot⟩ hp
  refine ⟨fun hlast => goes _ ?_, fun hlast => goes _ ?_, ?_⟩
  · rw [Pkg.slotGo, hact]
    exact if_neg (by rw [hlast]; exact Bool.false_ne_true)
  · rw [Pkg.slotGo, hact]
    exact if_pos (Option.isSome_iff_ne_none.mpr hlast)
  · rw [Pkg.core_onKey_self]
    exact htrap

end Sys2Proof.Machine
end

section
/-! PROOFS. Program errors (R144, log 3), the order of pending writes (R137), and the sequencer (R135, R154 to R158, R171). -/
namespace Sys2Proof.Machine

/-! Program errors. -/

/-- An operation of a tab word acts by its slot. -/
theorem wayOf_site {c : Instr} {t : Site} (h : siteOf c = some t) :
    wayOf c = .slot t ∨ ∃ scope n target, wayOf c = .psig t scope n target := by
  cases c <;> simp only [siteOf, reduceCtorEq, Option.some.injEq] at h
  all_goals subst h
  case psig scope n target => exact .inr ⟨scope, n, target, rfl⟩
  all_goals exact .inl rfl

/-- Where no word issues, an operation changes nothing. -/
theorem exec_no_site {c : Instr} {s : State} {t : Site} (h : siteOf c = some t) (hs : s.pkg.site t = none) : exec c s = .next s := by
  have acts := exec_acts c s
  rcases wayOf_site h with hw | ⟨scope, n, target, hw⟩
  · rw [hw] at acts
    obtain ⟨f, he⟩ := acts
    rw [he, State.slot, hs]
  · rw [hw] at acts
    rw [show exec c s = _ from acts, State.psig, hs]

/-- Only an operation of a tab word stops. -/
theorem exec_next_or_error (c : Instr) (s : State) :
    (∃ u, exec c s = .next u) ∨ ((siteOf c).isSome = true ∧ exec c s = .fault .programError) := by
  cases hc : ofMilnik c with
  | true =>
    obtain ⟨t, -, ht, -⟩ := exec_milnik_mtr hc s s.pkg (fun _ _ _ => ⟨rfl, rfl⟩)
    exact .inl ⟨t, ht⟩
  | false => exact (exec_sameMeter hc s).imp_left (fun ⟨u, hu, _⟩ => ⟨u, hu⟩)

theorem slotIf_bad {ok : Bool} (h : ok = false) (c : Core) : slotIf ok c = .bad := by
  rw [slotIf, h, if_neg Bool.false_ne_true]

section
variable {s : State} {i : Instr} {t : Site} {key : Nat}

/-- R144: an operation whose operands are out of range. -/
theorem State.slotIf_stops {ok : Core → Bool} {g : Core → Core} (hs : s.pkg.site t = some key) (hok : ok (s.pkg.core key) = false) :
    s.slot i t (fun c => slotIf (ok c) (g c)) = .fault .programError := by
  rw [State.slot, hs]
  simp only [slotIf_bad hok]

theorem State.checked_stops {ok : Bool} {g : Core → Core} (hs : s.pkg.site t = some key) (hok : ok = false) :
    s.slot i t (fun c => slotIf ok (g c)) = .fault .programError :=
  State.slotIf_stops (ok := fun _ => ok) hs hok

/-- R148: an LDS operation with a field out of its range, or beyond the bench. -/
theorem Core.ldsOk_false {c : Core} {size r a off : Nat} (hsize : 4 ≤ size)
    (h : r ≥ 32 ∨ a ≥ 32 ∨ off ≥ 2 ^ 19 ∨ c.benchAddr a off > 0x300000 - 4) : c.ldsOk size r a off = false := by
  rw [Bool.eq_false_iff]
  intro hok
  simp only [Core.ldsOk, regOk, benchSize, Bool.and_eq_true, decide_eq_true_eq] at hok
  obtain ⟨⟨⟨⟨hr, ha⟩, hoff⟩, -⟩, hrange⟩ := hok
  have := of_decide_eq_true hrange
  omega

theorem State.lds_stops {size r a off : Nat} {g : Core → Core} (hs : s.pkg.site t = some key) (hsize : 4 ≤ size)
    (h : r ≥ 32 ∨ a ≥ 32 ∨ off ≥ 2 ^ 19 ∨ (s.pkg.core key).benchAddr a off > 0x300000 - 4) :
    s.slot i t (fun c => slotIf (c.ldsOk size r a off) (g c)) = .fault .programError :=
  State.slotIf_stops hs (Core.ldsOk_false hsize h)

end

section
variable {s : State} {t : Site} {key : Nat}

theorem scaOps_stop {d a : Nat} {b : SOpnd} (hs : s.pkg.site t = some key) (h : scaOk d a b = false) :
    ∀ i ∈ [Instr.add t d a b, .sub t d a b, .sAnd t d a b, .sOr t d a b, .sXor t d a b, .shl t d a b, .shr t d a b, .sar t d a b,
      .mul t d a b, .sMin t d a b, .sMax t d a b, .slt t d a b, .seq t d a b], exec i s = .fault .programError := by
  simp only [List.forall_mem_cons, List.not_mem_nil, false_imp_iff, implies_true, and_true, exec]
  and_intros <;> exact State.checked_stops hs h

theorem vecOps_stop {d a b : Nat} (hs : s.pkg.site t = some key) (h : vecOk d a b 0 = false) :
    ∀ i ∈ [Instr.fadd t d a b, .fsub t d a b, .fmul t d a b, .fmin t d a b, .fmax t d a b, .fcmplt t d a b, .fcmpeq t d a b],
      exec i s = .fault .programError := by
  simp only [List.forall_mem_cons, List.not_mem_nil, false_imp_iff, implies_true, and_true, exec]
  and_intros <;> exact State.checked_stops hs h

theorem vecOps4_stop {d a b e : Nat} (hs : s.pkg.site t = some key) (h : vecOk d a b e = false) :
    ∀ i ∈ [Instr.ffma t d a b e, .sel t d a b e], exec i s = .fault .programError := by
  simp only [List.forall_mem_cons, List.not_mem_nil, false_imp_iff, implies_true, and_true, exec]
  and_intros <;> exact State.checked_stops hs h

theorem ldsOps_stop {r a off : Nat} (hs : s.pkg.site t = some key)
    (h : r ≥ 32 ∨ a ≥ 32 ∨ off ≥ 2 ^ 19 ∨ (s.pkg.core key).benchAddr a off > 0x300000 - 4) :
    ∀ i ∈ [Instr.vld t r a off, .vst t r a off, .sld t r a off, .sst t r a off, .vldb t r a off], exec i s = .fault .programError := by
  simp only [List.forall_mem_cons, List.not_mem_nil, false_imp_iff, implies_true, and_true, exec]
  and_intros <;> exact State.lds_stops hs (by decide) h

theorem rowOps_stop {d a : Nat} {hi : Bool} (hs : s.pkg.site t = some key) (h : regOk a = false) :
    ∀ i ∈ [Instr.exp t d a hi, .rcp t d a hi, .rsq t d a hi, .tst t a hi 0], exec i s = .fault .programError := by
  simp only [List.forall_mem_cons, List.not_mem_nil, false_imp_iff, implies_true, and_true, exec]
  have function : (regOk d && regOk a) = false := by rw [h, Bool.and_false]
  have store : (regOk a && decide (0 < 2048)) = false := by rw [h, Bool.false_and]
  exact ⟨State.checked_stops hs function, State.checked_stops hs function, State.checked_stops hs function, State.checked_stops hs store⟩

theorem statOps_stop {d toff : Nat} {hi : Bool} (hs : s.pkg.site t = some key) (h : toff ≥ 2048) :
    ∀ i ∈ [Instr.tld t d hi toff, .tst t d hi toff], exec i s = .fault .programError := by
  simp only [List.forall_mem_cons, List.not_mem_nil, false_imp_iff, implies_true, and_true, exec]
  have bad : (regOk d && decide (toff < 2048)) = false := by rw [decide_eq_false (by omega), Bool.and_false]
  and_intros <;> exact State.checked_stops hs bad

theorem pegOps_stop {q n : Nat} (hs : s.pkg.site t = some key) (h : q ≥ 64 ∨ n ≥ 2 ^ 32) :
    ∀ i ∈ [Instr.padd t q n, .pset t q n, .pwait t q n true, .pwait t q n false], exec i s = .fault .programError := by
  have bad : (pegOk q && wordOk n) = false := by
    simp only [pegOk, wordOk, Bool.and_eq_false_iff, decide_eq_false_iff_not]
    omega
  have waits : ∀ keep, exec (.pwait t q n keep) s = .fault .programError := fun keep => by
    refine State.slot_bad hs ⟨fun c => c.slotPwait q n keep, rfl, ?_⟩
    simp only [Core.slotPwait, bad, Bool.not_false, if_true]
  simp only [List.forall_mem_cons, List.not_mem_nil, false_imp_iff, implies_true, and_true, waits]
  simp only [exec]
  exact ⟨State.checked_stops hs bad, State.checked_stops hs bad⟩

theorem psig_stops {scope n target : Nat} (hs : s.pkg.site t = some key) (h : 5 ≤ scope) :
    exec (.psig t scope n target) s = .fault .programError := by
  have bad : (decide (scope < 5) && decide (n < 65536) && wordOk target) = false := by rw [decide_eq_false (by omega)]; rfl
  rw [show exec (.psig t scope n target) s = s.psig _ t scope n target from rfl, State.psig, hs]
  simp only [bad, Bool.false_eq_true, if_false]

theorem loop_stops {src : LoopSrc} {len : Nat} (hs : s.pkg.site t = some key) (h4 : 4 ≤ (s.pkg.core key).seq.loops.length)
    (hlen : len ≠ 0) (hcount : (s.pkg.core key).loopCount src ≠ 0) : exec (.loop t src len) s = .fault .programError := by
  refine State.slotIf_stops (ok := fun c => src.ok && len < 65536 && c.loopOk src len) (g := fun c => c.loopOp src len) hs ?_
  simp only [Core.loopOk, decide_eq_false (Nat.not_lt.mpr h4), decide_eq_false hlen, decide_eq_false hcount, Bool.or_self, Bool.and_false]

end

/-- Settles O12: what stops by the ways in which commands act; the operands by the slots' checks. -/
theorem programErrors : Obligations.ProgramErrors := by
  refine ⟨fun c s hc => ?_, fun c s t hc => ⟨exec_no_site hc, (exec_next_or_error c s).imp_right And.right⟩, fun s t key hs i h => ?_⟩
  · rcases exec_next_or_error c s with h | ⟨hsome, -⟩
    · exact h
    · rw [hc] at hsome
      cases hsome
  · rcases h with ⟨d, a, b, h, hi⟩ | ⟨d, a, b, e, h, hi⟩ | ⟨d, a, b, h, hi⟩ | ⟨r, a, off, h, hi⟩ | ⟨d, a, hl, h, hi⟩ | ⟨d, hl, toff, h, hi⟩ |
      ⟨q, n, h, hi⟩ | ⟨sc, n, x, h, rfl⟩ | ⟨src, len, h4, hlen, hcount, rfl⟩ | ⟨o, h, rfl⟩
    · exact scaOps_stop hs h i hi
    · exact vecOps4_stop hs h i hi
    · exact vecOps_stop hs h i hi
    · exact ldsOps_stop hs h i hi
    · exact rowOps_stop hs h i hi
    · exact statOps_stop hs h i hi
    · exact pegOps_stop hs h i hi
    · exact psig_stops hs h
    · exact loop_stops hs h4 hlen hcount
    · refine State.slot_bad hs ⟨fun c => c.slotRun o, rfl, ?_⟩
      simp only [Core.slotRun, Core.slotArr, h, Bool.not_false, if_true]

/-! Pending writes. -/

theorem RegWrite.before_total {a b : RegWrite} (h : ¬ a.before b = true) : b.before a = true := by
  rw [RegWrite.before_iff] at h ⊢
  omega

theorem RegWrite.before_trans {a b c : RegWrite} (h : a.before b = true) (k : b.before c = true) : a.before c = true := by
  rw [RegWrite.before_iff] at h k ⊢
  omega

theorem mem_insertWrite (w x : RegWrite) (l : List RegWrite) : x ∈ insertWrite w l ↔ x = w ∨ x ∈ l := by
  induction l with
  | nil => rw [insertWrite, List.mem_singleton, or_iff_left List.not_mem_nil]
  | cons y ys ih =>
    rw [insertWrite]
    split
    · rw [List.mem_cons, ih, List.mem_cons]
      exact or_left_comm
    · rw [List.mem_cons]

/-- R137: a write is placed in the order. -/
theorem insertWrite_pairwise (w : RegWrite) {l : List RegWrite} (h : l.Pairwise (fun a b => a.before b = true)) :
    (insertWrite w l).Pairwise (fun a b => a.before b = true) := by
  induction l with
  | nil => exact List.pairwise_singleton _ w
  | cons y ys ih =>
    obtain ⟨hy, hys⟩ := List.pairwise_cons.mp h
    rw [insertWrite]
    split
    · rename_i hyw
      refine List.pairwise_cons.mpr ⟨fun x hx => ?_, ih hys⟩
      rcases (mem_insertWrite w x ys).mp hx with rfl | hx
      · exact hyw
      · exact hy x hx
    · rename_i hyw
      have hwy := RegWrite.before_total hyw
      refine List.pairwise_cons.mpr ⟨fun x hx => ?_, h⟩
      rcases List.mem_cons.mp hx with rfl | hx
      · exact hwy
      · exact RegWrite.before_trans hwy (hy x hx)

/-- Settles O14. -/
theorem writesInOrder : Obligations.WritesInOrder :=
  fun _ _ _ _ h => ⟨insertWrite_pairwise _ h, fun w => mem_insertWrite _ w _⟩

/-! The sequencer. -/

/-- R157: a branch from parcel 0 on leaves the bodies that do not contain its target. -/
theorem nextPc_branch (ls : List LoopLevel) (pc n : Nat) {off : Int} (h : 0 ≤ (pc : Int) + off) :
    ((nextPc ls pc n (some (.branch off))).2 : Int) = pc + off ∧
    ∀ l, l ∈ (nextPc ls pc n (some (.branch off))).1 ↔ l ∈ ls ∧ (l.start : Int) ≤ pc + off ∧ (pc : Int) + off < l.stop := by
  have ht : (((pc : Int) + off).toNat : Int) = pc + off := Int.toNat_of_nonneg h
  refine ⟨ht, fun l => ?_⟩
  simp only [nextPc, List.mem_filter, Bool.and_eq_true, decide_eq_true_eq]
  refine and_congr_right (fun _ => ?_)
  omega

/-- Settles O15: by the cases of `nextPc`. -/
theorem sequencerTurns : Obligations.SequencerTurns := by
  intro ls pc n
  refine ⟨nextPc_straight ls pc n, fun l hl => ⟨nextPc_again l ls pc n hl, nextPc_leave l ls pc n hl⟩, fun count len hcount hlen => ?_,
    fun len => ?_, fun off => nextPc_branch ls pc n⟩
  · rw [nextPc, if_neg (by omega), if_neg (by omega)]
  · rw [nextPc]
    rfl

/-- R171: what a word asks for, with the body of a LOOP. -/
theorem Seq.mem_wantBody (q : Seq) (n l : Nat) : l ∈ q.wantBody n ↔ l ∈ q.prefetch ∨ ∃ count len, q.turn = some (.loop count len) ∧
    l ∈ linesOf (q.image + 64 + 4 * (q.pc + n)) (4 * len) := by
  unfold Seq.wantBody
  cases ht : q.turn with
  | none => simp
  | some x =>
    cases x with
    | branch off => simp
    | loop count len =>
      simp only [List.mem_append, List.mem_filter, Bool.not_eq_true', List.contains_eq_mem, decide_eq_false_iff_not, Option.some.injEq,
        Turn.loop.injEq]
      constructor
      · rintro (asked | ⟨body, -⟩)
        · exact .inl asked
        · exact .inr ⟨count, len, ⟨rfl, rfl⟩, body⟩
      · rintro (asked | ⟨_, _, ⟨rfl, rfl⟩, body⟩)
        · exact .inl asked
        · by_cases hp : l ∈ q.prefetch
          · exact .inl hp
          · exact .inr ⟨body, hp⟩

/-- The sequencer as the end of a word leaves it. -/
theorem Core.advance_seq (c : Core) (n : Nat) : (c.advance n).seq = c.seq := by
  obtain ⟨_, _, _, _, _, h⟩ := c.advance_frame n
  rw [h]

/-- R154, R158: the sequencer after a word. -/
def Core.seqAfter (c : Core) (w : WordEnd) : Seq :=
  let next := nextPc c.seq.loops c.seq.pc w.parcels c.seq.turn
  if w.fin then { c.seq with ended := true, mid := false, turn := none }
  else if c.seq.trap = .none then { c.seq with loops := next.1, pc := next.2, mid := false, turn := none, prefetch := c.seq.wantBody w.parcels }
  else { c.seq with mid := false, turn := none }

theorem Core.closeWord_eq (c : Core) (w : WordEnd) : c.closeWord w = ({ c with seq := c.seqAfter w } : Core).advance (wordBeats w c.seq.turn) := rfl

theorem Core.closeWord_seq (c : Core) (w : WordEnd) : (c.closeWord w).seq = c.seqAfter w := by
  rw [Core.closeWord_eq, Core.advance_seq]

theorem Core.seqAfter_end {c : Core} {w : WordEnd} (h : w.fin = true) :
    c.seqAfter w = { c.seq with ended := true, mid := false, turn := none } := if_pos h

/-- Settles O17. -/
theorem wordsClose : Obligations.WordsClose := by
  intro c w
  refine ⟨?_, ?_, ?_, fun hfin => ?_, fun hfin htrap => ?_⟩
  · rw [Core.closeWord_eq, Core.advance_beat]
    unfold wordBeats
    simp only [Nat.add_assoc] <;> rfl
  · rw [Core.closeWord_seq, Core.seqAfter]
    split
    · rfl
    · split <;> rfl
  · rw [Core.closeWord_seq, Core.seqAfter]
    cases hf : w.fin with
    | true => simp
    | false => by_cases ht : c.seq.trap = .none <;> simp [ht]
  · rw [Core.issuing, Core.closeWord_seq, Core.seqAfter_end hfin]
    simp
  · have hseq : c.seqAfter w = { c.seq with loops := (nextPc c.seq.loops c.seq.pc w.parcels c.seq.turn).1,
                                            pc := (nextPc c.seq.loops c.seq.pc w.parcels c.seq.turn).2, mid := false, turn := none,
                                            prefetch := c.seq.wantBody w.parcels } := by
      rw [Core.seqAfter, hfin, if_neg Bool.false_ne_true, if_pos htrap]
    rw [Core.closeWord_seq, hseq]
    exact ⟨rfl, fun l => Seq.mem_wantBody c.seq w.parcels l⟩

end Sys2Proof.Machine
end

section
/-! PROOFS. Events of one core's array: strokes and speculation, operations that begin and retire, fills, the Kerf map (chapter 3). -/
namespace Sys2Proof.Machine

/-- What an event of a core waits for: power, a logical core bound to an awake core that is not under test; and nothing left to be done. -/
structure State.CoreReady (s : State) (n lc key : Nat) : Prop where
  powered : s.pkg.powered = true
  quiet : s.pkg.Quiet
  phys : s.pkg.phys n lc = some key
  tests : s.pkg.fw.tests.find key = none
  awake : (s.pkg.core key).pwr = .awake

/-- The event's act raises no error, trap or abort. -/
structure Core.Calm (c d : Core) : Prop where
  ue : d.ue = c.ue
  seq : d.seq = c.seq
  aborted : d.aborted = c.aborted

section
variable {s : State} {n lc key : Nat}

/-- An event on a ready core that raises nothing. -/
theorem State.CoreReady.acts (h : s.CoreReady n lc key) {i : Instr} {f : Core → Core} {c : Core}
    (he : exec i s = s.inPower i (fun p => p.onCore n lc f)) (hf : f (s.pkg.core key) = c) (hc : (s.pkg.core key).Calm c) :
    ActsOn i s key c :=
  State.core_acts h.powered h.quiet h.phys h.awake h.tests he rfl hf hc.ue (congrArg Seq.trap hc.seq) hc.aborted

/-- R92: a stroke goes by CORE_OPA_CTRL as it stands. -/
theorem State.CoreReady.stroke_acts (h : s.CoreReady n lc key) {c : Core}
    (hf : (s.pkg.core key).stroke (s.pkg.rd (rCORE_OPA_CTRL.at n (key % 72) 0)).toNat = c) (hc : (s.pkg.core key).Calm c) :
    ActsOn (.stroke n lc) s key c := by
  refine State.core_acts (g := fun p => p.strokeOn n lc)
    (f := fun c => c.stroke (s.pkg.rd (rCORE_OPA_CTRL.at n (key % 72) 0)).toNat) h.powered h.quiet h.phys h.awake h.tests rfl ?_ hf hc.ue (congrArg Seq.trap hc.seq) hc.aborted
  rw [Pkg.strokeOn, h.phys]

end

/-! Strokes (R70, R74 to R76, R84 to R92). -/

theorem Core.Calm.refl (c : Core) : c.Calm c := ⟨rfl, rfl, rfl⟩

theorem Core.calm_countStrokes {c d : Core} (h : c.Calm d) (o : RunOp) (w : Nat) (i : Ids) (n : Nat) : c.Calm (d.countStrokes o w i n) := by
  obtain ⟨hue, hseq, hab⟩ := d.countStrokes_raises o w i n
  exact ⟨hue.trans h.ue, hseq.trans h.seq, hab.trans h.aborted⟩

theorem Core.calm_setBank {c d : Core} (h : c.Calm d) (n : Nat) (b : Bank) : c.Calm (d.setBank n b) := by
  obtain ⟨hue, hseq, hab⟩ := d.setBank_raises n b
  exact ⟨hue.trans h.ue, hseq.trans h.seq, hab.trans h.aborted⟩

theorem Core.calm_setLast {c d : Core} (h : c.Calm d) (n t : Nat) : c.Calm (d.setLast n t) := by
  obtain ⟨hue, hseq, hab⟩ := d.setLast_raises n t
  exact ⟨hue.trans h.ue, hseq.trans h.seq, hab.trans h.aborted⟩

theorem Core.calm_signal {c d : Core} (h : c.Calm d) (q : Option Nat) : c.Calm (d.signal q) := by
  obtain ⟨hue, hseq, hab⟩ := d.signal_raises q
  exact ⟨hue.trans h.ue, hseq.trans h.seq, hab.trans h.aborted⟩

theorem Core.calm_setFills {c d : Core} (h : c.Calm d) (b : Bool) (l : List FillOp) : c.Calm (d.setFills b l) := by
  obtain ⟨hue, hseq, hab⟩ := d.setFills_raises b l
  exact ⟨hue.trans h.ue, hseq.trans h.seq, hab.trans h.aborted⟩

theorem Core.calm_setSlot {c d : Core} (h : c.Calm d) (b : Bool) (i : Nat) (x : Slot) : c.Calm (d.setSlot b i x) := by
  obtain ⟨hue, hseq, hab⟩ := d.setSlot_raises b i x
  exact ⟨hue.trans h.ue, hseq.trans h.seq, hab.trans h.aborted⟩

/-- R60, R65: when the next stroke of the head RUN has issued. -/
def Core.strokeAt (c : Core) (o : RunOp) : Nat :=
  (if 8192 ≤ c.half - c.opaActive then c.half + 128 else c.half) + strokeHalves (fmtOf o.aFmt) (fmtOf o.bFmt) o.comp

/-- The bank after the next stroke of the head RUN; a broken rule of transposed sides leaves it open (log 8). -/
def Core.strokeTile (c : Core) (e : ArrOp) (o : RunOp) : Bank :=
  let sum := strokeBank o e.width (c.slot false o.aSlot) (c.slot true o.bSlot) e.done (c.bank o.bank)
  if o.keepsRule e.width then sum else sum.scramble (2 ^ 48 + 2 * (2048 * (2 ^ 64 * c.seed + e.seq) + e.done) + o.bank)

/-- What a stroke moves of the core, apart from its counters and its speculation. -/
def Core.struck (c : Core) (e : ArrOp) (o : RunOp) (es : List ArrOp) : Core :=
  { (c.setBank o.bank (c.strokeTile e o)).setLast o.bank (c.strokeAt o) with
    queue := { e with done := e.done + 1 } :: es, half := c.strokeAt o, opaActive := c.strokeAt o + 510 }

theorem Core.calm_struck (c : Core) (e : ArrOp) (o : RunOp) (es : List ArrOp) : c.Calm (c.struck e o es) := by
  have h := Core.calm_setLast (Core.calm_setBank (Core.Calm.refl c) o.bank (c.strokeTile e o)) o.bank (c.strokeAt o)
  exact ⟨h.ue, h.seq, h.aborted⟩

/-- The ramp before a stroke moves the array's time alone. -/
theorem Core.rampBefore_eq (c : Core) : c.rampBefore = { c with half := if 8192 ≤ c.half - c.opaActive then c.half + 128 else c.half } := by
  unfold Core.rampBefore
  split <;> rfl

theorem Core.setBank_eq (c : Core) (n : Nat) (b : Bank) :
    c.setBank n b = { c with bank0 := if n = 0 then b else c.bank0, bank1 := if n = 0 then c.bank1 else b } := by
  rw [Core.setBank]
  split <;> rfl

theorem Core.setLast_eq (c : Core) (n t : Nat) :
    c.setLast n t = { c with last0 := if n = 0 then some t else c.last0, last1 := if n = 0 then c.last1 else some t } := by
  rw [Core.setLast]
  split <;> rfl

section
variable {c : Core} {e f : ArrOp} {o : RunOp} {es : List ArrOp}

theorem Core.issueStroke_plain (hq : c.queue = f :: es) (hs : c.spec = none) :
    c.issueStroke e o = (c.struck e o es).countStrokes o e.width e.ids 1 := by
  simp only [Core.issueStroke, Core.rampBefore_eq, Core.struck, Core.setBank_eq, Core.setLast_eq, Core.setHead, hs, hq] <;> rfl

theorem Core.issueStroke_spec {sp : Spec} (hq : c.queue = f :: es) (hs : c.spec = some sp) :
    c.issueStroke e o = { c.struck e o es with ckpt := if sp.marked then c.ckpt else some (c.bank o.bank)
                                               spec := some { sp with marked := true, since := sp.since + 1 } } := by
  obtain ⟨first, marked, since, skipped⟩ := sp
  cases marked
  all_goals
    simp only [Core.issueStroke, Core.rampBefore_eq, Core.struck, Core.setBank_eq, Core.setLast_eq, Core.setHead, hs, hq] <;> rfl

/-- R92: what a stroke is of the RUN at the head, under the CORE_OPA_CTRL that it keeps. -/
theorem Core.stroke_run {ctl : Nat} (hq : c.queue = e :: es) (hw : e.what = .run o) :
    c.stroke ctl = c.strokeRun { e with ctl := some (e.ctl.getD ctl) } o (e.ctl.getD ctl) := by
  simp only [Core.stroke, hq, hw]

/-- R70, R84: a stroke that is no whole block, or under no mute mode, issues once its positions are written. -/
theorem Core.strokeRun_single {ctl : Nat} (hk : e.done < o.count) (hw : ¬ (1 ≤ muteMode o ctl ∧ blockStart o e.done = true)) :
    c.strokeRun e o ctl =
      if (c.sideReady false o.aSlot e.seq o.aTr o.aStart e.done && c.sideReady true o.bSlot e.seq o.bTr o.bStart e.done) = true
      then c.issueStroke e o else c := by
  have hb : (decide (1 ≤ muteMode o ctl) && blockStart o e.done) = false := by simpa using hw
  simp only [Core.strokeRun, if_neg (Nat.not_le.mpr hk), hb, Bool.false_eq_true, if_false]

/-- R87 to R89: a whole block under a mute mode. -/
theorem Core.strokeRun_block {ctl : Nat} (hk : e.done < o.count) (hw : 1 ≤ muteMode o ctl ∧ blockStart o e.done = true) :
    let wa := c.sideWritten false o.aSlot e.seq (o.aStart + e.done)
    let wb := c.sideWritten true o.bSlot e.seq (o.bStart + e.done)
    let x := c.slot false o.aSlot
    let y := c.slot true o.bSlot
    c.strokeRun e o ctl =
      if (wa && wb) = true then
        if muteBlock x y (o.aStart + e.done) (o.bStart + e.done) = true then
          match c.spec with
          | some sp => { c.setHead { e with done := e.done + 8 } with spec := some { sp with skipped := sp.skipped + 1 } }
          | none => { c.setHead { e with done := e.done + 8 } with skips := (c.skips + 1) % 2 ^ 32 }
        else c.issueStroke e o
      else if muteMode o ctl = 2 ∧ c.spec = none ∧ (sideMute x wa (o.aStart + e.done) || sideMute y wb (o.bStart + e.done)) = true then
        { c.setHead { e with done := e.done + 8 } with spec := some ⟨e.done, false, 0, 0⟩ }
      else c := by
  have hb : (decide (1 ≤ muteMode o ctl) && blockStart o e.done) = true := by simpa using hw
  simp only [Core.strokeRun, if_neg (Nat.not_le.mpr hk), hb, if_true, Bool.and_eq_true, decide_eq_true_eq, and_assoc] <;> rfl

/-- R89: a speculation whose block is written and mute holds: what was kept aside counts. -/
theorem Core.verify_mute {sp : Spec} (hq : c.queue = e :: es) (hw : e.what = .run o) (hs : c.spec = some sp)
    (ha : c.sideWritten false o.aSlot e.seq (o.aStart + sp.first) = true) (hb : c.sideWritten true o.bSlot e.seq (o.bStart + sp.first) = true)
    (hm : muteBlock (c.slot false o.aSlot) (c.slot true o.bSlot) (o.aStart + sp.first) (o.bStart + sp.first) = true) :
    c.verify =
      ({ c with spec := none, ckpt := none, skips := (c.skips + 1 + sp.skipped) % 2 ^ 32 }).countStrokes o e.width e.ids sp.since := by
  simp only [Core.verify, hq, hs, hw, ha, hb, Bool.and_self, if_true, hm]

/-- R89: one that is not mute is undone to the checkpoint. -/
theorem Core.verify_undone {sp : Spec} (hq : c.queue = e :: es) (hw : e.what = .run o) (hs : c.spec = some sp)
    (ha : c.sideWritten false o.aSlot e.seq (o.aStart + sp.first) = true) (hb : c.sideWritten true o.bSlot e.seq (o.bStart + sp.first) = true)
    (hm : muteBlock (c.slot false o.aSlot) (c.slot true o.bSlot) (o.aStart + sp.first) (o.bStart + sp.first) = false) :
    c.verify = { (match c.ckpt with | some bank => c.setBank o.bank bank | none => c) with
      queue := { e with done := sp.first } :: es, spec := none, ckpt := none, mispred := (c.mispred + 1) % 2 ^ 32, half := c.half + 2
      opaActive := c.half + 512 } := by
  simp only [Core.verify, hq, hs, hw, ha, hb, Bool.and_self, if_true, hm, Bool.false_eq_true, if_false, Core.setHead]
  cases c.ckpt with
  | none => simp only [hq, List.drop_succ_cons, List.drop_zero]
  | some bank => simp only [Core.setBank_eq, hq, List.drop_succ_cons, List.drop_zero]

end

/-- Settles O19: by whether the block is whole, and by what is written of it. -/
theorem strokeEffects : Obligations.StrokeEffects := by
  intro s n lc key e o es hp hquiet hk ht hpw hq hrun c ctl e' k a b wa wb ready mute whole predicted skipped acts t
  have turn : s.CoreReady n lc key := ⟨hp, hquiet, hk, ht, hpw⟩
  have by_run {d : Core} (hd : c.strokeRun e' o ctl = d) (hc : c.Calm d) : acts d :=
    turn.stroke_acts ((Core.stroke_run hq hrun).trans hd) hc
  have strikes (hi : c.strokeRun e' o ctl = c.issueStroke e' o) :
      (c.spec = none → acts ((c.struck e' o es).countStrokes o e.width e.ids 1)) ∧
      (∀ sp, c.spec = some sp → acts { c.struck e' o es with ckpt := if sp.marked then c.ckpt else some (c.bank o.bank)
                                                             spec := some { sp with marked := true, since := sp.since + 1 } }) := by
    have calm := c.calm_struck e' o es
    exact ⟨fun hs => by_run (hi.trans (Core.issueStroke_plain hq hs)) (Core.calm_countStrokes calm _ _ _ _),
      fun sp hs => by_run (hi.trans (Core.issueStroke_spec hq hs)) ⟨calm.ue, calm.seq, calm.aborted⟩⟩
  have skips : c.setHead { e' with done := k + 8 } = { c with queue := skipped } := by
    rw [Core.setHead, hq]
    rfl
  have single (hc : k < o.count) (hw : ¬ whole) : c.strokeRun e' o ctl = if ready = true then c.issueStroke e' o else c :=
    Core.strokeRun_single hc hw
  have block (hc : k < o.count) (hw : whole) : c.strokeRun e' o ctl =
      if (wa && wb) = true then
        if mute = true then
          match c.spec with
          | some sp => { c.setHead { e' with done := k + 8 } with spec := some { sp with skipped := sp.skipped + 1 } }
          | none => { c.setHead { e' with done := k + 8 } with skips := (c.skips + 1) % 2 ^ 32 }
        else c.issueStroke e' o
      else if muteMode o ctl = 2 ∧ c.spec = none ∧ predicted = true then
        { c.setHead { e' with done := k + 8 } with spec := some ⟨k, false, 0, 0⟩ }
      else c :=
    Core.strokeRun_block hc hw
  simp only [skips] at block
  refine ⟨⟨c.strokeTile e' o, fun hr => if_pos hr, fun hc hw hr => strikes ?_, fun hc hw ha hb hm => strikes ?_⟩,
    fun hc hw ha hb hm => ⟨fun hs => by_run ?_ ⟨rfl, rfl, rfl⟩, fun sp hs => by_run ?_ ⟨rfl, rfl, rfl⟩⟩,
    fun hc hw hab h2 hs hpr => by_run ?_ ⟨rfl, rfl, rfl⟩, fun hc hw hab hno => by_run ?_ (.refl c),
    fun hc hw hr => by_run ?_ (.refl c), fun sp hs => ?_⟩
  · rw [single hc hw, if_pos hr]
  · rw [block hc hw, ha, hb, hm]
    rfl
  · rw [block hc hw, ha, hb, hm, hs]
    rfl
  · rw [block hc hw, ha, hb, hm, hs]
    rfl
  · rw [block hc hw, hab, if_neg Bool.false_ne_true, if_pos ⟨h2, hs, hpr⟩]
  · rw [block hc hw, hab, if_neg Bool.false_ne_true, if_neg]
    rintro ⟨h2, hs, hpr⟩
    rcases hno with hno | hno | hno
    · exact hno h2
    · exact hno hs
    · exact Bool.false_ne_true (hno.symm.trans hpr)
  · rw [single hc hw, hr, if_neg Bool.false_ne_true]
  · intro a b ha hb
    cases hm : muteBlock (c.slot false o.aSlot) (c.slot true o.bSlot) a b with
    | true =>
      rw [if_pos rfl]
      refine turn.acts (f := Core.verify) rfl (Core.verify_mute hq hrun hs ha hb hm) ?_
      apply Core.calm_countStrokes
      exact ⟨rfl, rfl, rfl⟩
    | false =>
      rw [if_neg Bool.false_ne_true]
      refine turn.acts (f := Core.verify) rfl (Core.verify_undone hq hrun hs ha hb hm) ?_
      cases c.ckpt with
      | none => exact ⟨rfl, rfl, rfl⟩
      | some bank =>
        have calm := Core.calm_setBank (Core.Calm.refl c) o.bank bank
        exact ⟨calm.ue, calm.seq, calm.aborted⟩

/-! Operations that begin and retire (R78 to R82, R90). -/

section
variable {c : Core} {e : ArrOp} {es : List ArrOp}

/-- R79: the head LOAD or DRAIN begins. -/
theorem Core.moveBegin_eq {bank : Nat} (hq : c.queue = e :: es) (hb : e.begun = none)
    (hw : (∃ o a, e.what = .load o a ∧ o.bank = bank) ∨ ∃ o a k, e.what = .drain o a k ∧ o.bank = bank) :
    let beat (h : Nat) : Nat := (h + 1) / 2 * 2
    let t := max (beat c.half) (match c.last bank with | some l => beat l + 510 | none => 0)
    c.moveBegin = { c with queue := { e with begun := some t } :: es, half := t, opaActive := max c.opaActive (t + 256) } := by
  rcases hw with ⟨o, a, hw, rfl⟩ | ⟨o, a, k, hw, rfl⟩
  all_goals
    simp only [Core.moveBegin, hq, hw, hb, Core.setHead, List.drop_succ_cons, List.drop_zero] <;> rfl

/-- R81, R420: the head of the queue leaves it. -/
theorem Core.popArr_eq (hq : c.queue = e :: es) (peg : Option Nat) :
    c.popArr e peg = (({ c with queue := es }).signal peg).countAs e.ids 14 1 := by
  rw [Core.popArr, hq]
  rfl

end

/-- Settles O20: each by the operation at the head. -/
theorem arrayRetires : Obligations.ArrayRetires := by
  intro s n lc key e es hp hquiet hk ht hpw hq c leaves begins
  have turn : s.CoreReady n lc key := ⟨hp, hquiet, hk, ht, hpw⟩
  have gone {d : Core} (h : c.Calm d) (peg : Option Nat) : c.Calm (leaves d peg) := by
    have calm := Core.calm_signal (d := { d with queue := es }) ⟨h.ue, h.seq, h.aborted⟩ peg
    exact ⟨calm.ue, calm.seq, calm.aborted⟩
  refine ⟨fun o hw hdone hs => ?_, fun o a hw => ⟨fun hb => ?_, fun t hb hgood => ?_⟩, fun o a k hw => ⟨fun hb => ?_, fun t hb => ?_⟩⟩
  · refine turn.acts (f := Core.runRetire) rfl ?_ (gone (.refl c) _)
    simp only [Core.runRetire, hq, hw]
    rw [if_pos (by simpa using ⟨hdone, hs⟩)]
    exact Core.popArr_eq hq _
  · exact turn.acts (f := Core.moveBegin) rfl (Core.moveBegin_eq hq hb (.inl ⟨o, a, hw, rfl⟩)) ⟨rfl, rfl, rfl⟩
  · have calm := gone (Core.calm_setBank (.refl c) o.bank (loadBank o a e.width c.bench (c.bank o.bank))) o.peg
    refine turn.acts (f := Core.loadRetire) rfl ?_ ⟨calm.ue, calm.seq, calm.aborted⟩
    simp only [Core.loadRetire, hq, hw, hb]
    rw [Core.noteUE_of_good _ hgood, Core.popArr_eq ((c.setBank_queue _ _).trans hq)]
    simp only [Core.setBank_eq] <;> rfl
  · exact turn.acts (f := Core.moveBegin) rfl (Core.moveBegin_eq hq hb (.inr ⟨o, a, k, hw, rfl⟩)) ⟨rfl, rfl, rfl⟩
  · have calm := gone (d := { c with
      bench := drainBench o a e.width k (c.bank o.bank) c.bench
      benchUE := (List.range (o.lines e.width)).foldl (fun l r =>
        ueClear l (a + r * o.stride) (o.span e.width * ((fmtOf o.fmt).bitsOf / 8))) c.benchUE }) ⟨rfl, rfl, rfl⟩ o.peg
    refine turn.acts (f := Core.drainRetire) rfl ?_ ⟨calm.ue, calm.seq, calm.aborted⟩
    simp only [Core.drainRetire, hq, hw, hb, Core.popArr, List.drop_succ_cons, List.drop_zero] <;> rfl

/-! Fills (R69, R70, R152). -/

/-- R70, R179, R180: the head fill, from the bench, writes its next position. -/
theorem Core.fillPosition_eq {c : Core} {b : Bool} {f : FillOp} {fs : List FillOp} (hf : c.fills b = f :: fs) (hs : f.stream = none)
    (hleft : f.done < f.count) (hfree : c.fillBlocked b f = false) (hrow : c.benchBad (f.addr + f.done * f.stride) (rowSize (fmtOf f.fmt)) = false)
    (hscales : c.benchBad (f.addr + f.count * f.stride + f.done / 32 * 128) 128 = false) :
    let pos := f.start + f.done
    let x := c.slot b f.slot
    let x := if (fmtOf f.fmt).isMx then
      x.putScales (pos / 32) (fun l => c.bench.read (f.addr + f.count * f.stride + f.done / 32 * 128 + l)) else x
    let x := x.putPos (fmtOf f.fmt) pos (fun k => c.bench.read (f.addr + f.done * f.stride + k)) (f.done + 1 = f.count || (pos + 1) % 8 = 0)
    c.fillPosition b = ((c.setSlot b f.slot x).setFills b ({ f with done := f.done + 1 } :: fs)).countAs f.ids 15 1 := by
  have hgo : (decide (f.count ≤ f.done) || c.fillBlocked b f) = false := by rw [hfree, Bool.or_false, decide_eq_false (by omega)]
  simp only [Core.fillPosition, Core.fillRow, hf, hgo, hs, hrow, hscales, Bool.or_false, Bool.and_false, Bool.false_eq_true, if_false,
    Core.noteUE_of_good _ rfl]

/-- Settles O21. -/
theorem fillEffects : Obligations.FillEffects := by
  intro s n lc key b f fs hp hquiet hk ht hpw hf hs c row scales pos x0 x1 x
  have turn : s.CoreReady n lc key := ⟨hp, hquiet, hk, ht, hpw⟩
  refine ⟨fun hleft hfree hrow hscales => ?_, fun hdone => ?_⟩
  · have calm := Core.calm_setFills (Core.calm_setSlot (.refl c) b f.slot x) b ({ f with done := f.done + 1 } :: fs)
    exact turn.acts (f := fun c => c.fillPosition b) rfl (Core.fillPosition_eq hf hs hleft hfree hrow hscales) ⟨calm.ue, calm.seq, calm.aborted⟩
  · refine turn.acts (f := fun c => c.fillRetire b) rfl ?_ (Core.calm_signal (Core.calm_setFills (.refl c) b fs) f.peg)
    show (s.pkg.core key).fillRetire b = _
    rw [Core.fillRetire, hf]
    simp only [if_pos hdone, if_pos hs] <;> rfl

/-! The Kerf map (R93, R97). -/

/-- The act of a core changes the counters of dies and no more of them. -/
theorem Pkg.die_onKey (p : Pkg) (key : Nat) (f : Core → Core) (n : Nat) :
    ∃ a b c, (p.onKey key f).die n = { p.die n with cnt := a, fcnt := b, line := c } :=
  ((p.setCore key (f (p.core key))).gained_frame (key / 72) (p.core key) (f (p.core key))).2 n

theorem Pkg.fld_onKey (p : Pkg) (key : Nat) (f : Core → Core) (a : Nat) (x : Fld) : (p.onKey key f).fld a x = p.fld a x := by
  obtain ⟨-, ds, he⟩ := p.onKey_frame key f
  rw [he]
  rfl

theorem coreKey_div (n : Nat) {c : Nat} (h : c < 72) : coreKey n c / 72 = n := by rw [coreKey]; omega

theorem coreKey_mod (n : Nat) {c : Nat} (h : c < 72) : coreKey n c % 72 = c := by rw [coreKey]; omega

theorem Pkg.kerfFuse_onKey (p : Pkg) (key : Nat) (f : Core → Core) (n : Nat) : ((p.onKey key f).die n).kerfFuse = (p.die n).kerfFuse := by
  obtain ⟨x, y, z, hd⟩ := p.die_onKey key f n
  rw [hd]

theorem Pkg.width_onKey (p : Pkg) (key : Nat) (f : Core → Core) (n : Nat) : (p.onKey key f).width n = p.width n := by
  simp only [Pkg.width, Pkg.fld_onKey]

theorem Pkg.free_onKey (p : Pkg) (key : Nat) (f : Core → Core) : (p.onKey key f).free = p.free := by
  obtain ⟨-, ds, he⟩ := p.onKey_frame key f
  rw [he]
  rfl

/-- R97: the committed map of an idle array is taken, and fences a bound core that it leaves short. -/
theorem Pkg.kerfApply_idle {p : Pkg} {n c : Nat} (hn : p.present n = true) (hc : c < 72)
    (hrt : (p.core (coreKey n c)).kerf ≠ p.fld (rCORE_KERF_RT.at n c 0) fCORE_KERF_RT_MASK) (hq : (p.core (coreKey n c)).queue = [])
    (hs : (p.core (coreKey n c)).spec = none) :
    p.kerfApply n c =
      let after := (p.onKey (coreKey n c) Core.settle).takeKerf (coreKey n c)
      if (kerfShort (((p.die n).kerfFuse.getD c 0 ||| p.fld (rCORE_KERF_RT.at n c 0) fCORE_KERF_RT_MASK) % 2 ^ 17) (p.width n / 8) &&
        ((p.die n).logical c).isSome) = true then after.fence n c else after := by
  have hfuse : (((p.onKey (coreKey n c) Core.settle).takeKerf (coreKey n c)).die n).kerfFuse = (p.die n).kerfFuse := p.kerfFuse_onKey _ _ n
  have hwidth : ((p.onKey (coreKey n c) Core.settle).takeKerf (coreKey n c)).width n = p.width n := p.width_onKey _ _ n
  have hbind : (((p.onKey (coreKey n c) Core.settle).takeKerf (coreKey n c)).die n).logical c = (p.die n).logical c := by
    obtain ⟨x, y, z, hd⟩ := p.die_onKey (coreKey n c) Core.settle n
    exact (congrArg (fun d => Die.logical d c) hd).trans rfl
  rw [Pkg.kerfApply, if_neg (by simp [hn, hrt, hq, hs, hc])]
  simp only [Pkg.short, Pkg.kerfMask, Pkg.groupsNeeded, hfuse, hwidth, hbind, coreKey_div n hc, coreKey_mod n hc]

theorem Core.applyKerf_idle {c : Core} (hq : c.queue = []) (fuse rt q seed : Nat) : c.applyKerf fuse rt q seed =
    { c with kerf := rt, bank0 := c.bank0.lose (movedGroups (fuse ||| c.kerf) (fuse ||| rt) q) (8 * seed + 6)
             bank1 := c.bank1.lose (movedGroups (fuse ||| c.kerf) (fuse ||| rt) q) (8 * seed + 7) } := by
  rw [Core.applyKerf, hq]
  rfl

/-- Settles O23: by the map that the core takes. -/
theorem kerfMapApplies : Obligations.KerfMapApplies := by
  intro s n c hp hn hc p key q rt fuse hrt hq hs after
  have runs {d : Pkg} (hd : p.kerfApply n c = d) : RunsTo (.kerfCommitApply n c) s d :=
    State.inPower_runsTo (f := fun p => p.kerfApply n c) hp rfl hd
  have idle := Pkg.kerfApply_idle hn hc hrt hq hs
  have settled : (p.onKey key Core.settle).core key = q.settle := p.core_onKey_self key Core.settle
  have taken : after.core key = q.settle.applyKerf fuse rt (p.width n / 8) (2 ^ 41 + p.free) := by
    refine (Pkg.takeKerf_core _ key).trans ?_
    simp only [settled, aKerfRt, Pkg.groupsNeeded, Pkg.width_onKey, Pkg.fld_onKey, Pkg.kerfFuse_onKey, Pkg.free_onKey, key,
      coreKey_div n hc, coreKey_mod n hc] <;> rfl
  rw [Core.applyKerf_idle (c := q.settle) hq] at taken
  refine ⟨fun h => runs ?_, fun h => runs ?_, fun h hl => runs ?_, by rw [taken], fun hm => ?_⟩
  · rw [idle, h, Bool.false_and]
    rfl
  · rw [idle, h, Option.isSome_none, Bool.and_false]
    rfl
  · rw [idle, h, Bool.true_and, if_pos (Option.isSome_iff_ne_none.mpr hl)]
  · rw [taken]
    exact ⟨congrArg (fun gs => q.bank0.lose gs _) hm, congrArg (fun gs => q.bank1.lose gs _) hm⟩

end Sys2Proof.Machine
end

section
/-! PROOFS. A program's start, its instruction fetches and its end (R165 to R172). -/
namespace Sys2Proof.Machine

/-- R165, R169, R203: what the start of a program is, once the core may start the head of its start queue. -/
theorem Pkg.startNext_program {p : Pkg} {n lc key : Nat} {e : StartEntry} {es : List StartEntry} (ecc : Ecc) (hk : p.phys n lc = some key)
    (hq : (p.core key).startq = e :: es) (hu : e.upd = false) (hs : p.startable key = true) :
    p.startNext n lc ecc =
      let image := hbmBase n + e.image
      let x := (p.meets ecc).askAll (.fetch key) [(image + 8, 8)] []
      if x.2 = false then x.1.onKey key (fun c => c.hold 5) else
      let r := x.1.readAt (image + 8) 8 0 e.tag e.ids
      let q := (((r.1.parityFail n (image + 8) ecc).updCmd e.cmd (fun c => { c with started := (n * 64 + lc) :: c.started })).progress e.ids.job).trace
        4 n lc 0 e.ids.job e.ring e.tag e.ids e.image
      match (if ecc = .parity then .error image else r.2) with
      | .ok bs => q.act key (fun c => (c.begin e n lc image (ofBytes (bs.take 4)) (ofBytes (bs.drop 4)) q.ftc.now).halt
          (match q.cmds.find e.cmd with | some c => c.fail.isSome | none => true))
      | .error _ => q.act key (fun c => (c.begin e n lc image 0 0 q.ftc.now).fetchEcc) := by
  simp only [Pkg.startNext, Pkg.programStart, hk, hq, hu, hs, Bool.false_eq_true, if_false, Bool.not_true, Bool.or_self, Bool.not_eq_true'] <;> rfl

/-- R134, R165: the registers of a core whose program has just started. -/
theorem Core.begin_rdS (c : Core) (e : StartEntry) (n lc image length entry ftc k : Nat) :
    (c.begin e n lc image length entry ftc).rdS k =
      if k = 1 then BitVec.ofNat 64 (64 * n + lc) else if k = 2 then BitVec.ofNat 64 e.rank else if k = 3 then BitVec.ofNat 64 e.cores
      else if k = 4 then e.arg0 else if k = 5 then e.arg1 else 0#64 := by
  by_cases h0 : k = 0
  · subst h0
    rfl
  · simp only [Core.rdS, Core.begin, h0, if_false, Tbl.getD, Tbl.find, @eq_comm _ _ k]
    repeat' split
    all_goals rfl

/-- Settles O24. -/
theorem programStarts : Obligations.ProgramStarts := by
  intro s n lc key e es ecc hp hk hq hu hs at' go x r p failed starts
  have runs {d : Pkg} (hd : s.pkg.startNext n lc ecc = d) : RunsTo go s d :=
    State.inPower_runsTo (f := fun p => p.startNext n lc ecc) hp rfl hd
  have start := Pkg.startNext_program ecc hk hq hu hs
  have admitted (hx : x.2 = true) : s.pkg.startNext n lc ecc =
      match (if ecc = .parity then .error (hbmBase n + e.image) else r.2) with
      | .ok bs => p.act key (fun c => (starts (ofBytes (bs.take 4)) (ofBytes (bs.drop 4)) c).halt failed)
      | .error _ => p.act key (fun c => (starts 0 0 c).fetchEcc) :=
    start.trans (if_neg (ne_false_of_eq_true hx))
  refine ⟨fun hx => runs ?_, fun hx => ⟨fun bs hr hecc hf => runs ?_, fun bs hr hecc hf => runs ?_, fun hr => runs ?_⟩, fun len entry q => ?_⟩
  · exact start.trans (if_pos hx)
  · rw [admitted hx, if_neg hecc, hr, hf]
    rfl
  · rw [admitted hx, if_neg hecc, hr, hf]
    rfl
  · rw [admitted hx]
    by_cases hecc : ecc = .parity
    · rw [if_pos hecc]
    · obtain ⟨a, ha⟩ := hr.resolve_right hecc
      rw [if_neg hecc, ha]
  · have rd := q.begin_rdS e n lc (hbmBase n + e.image) len entry p.ftc.now
    refine ⟨rfl, rfl, rfl, rfl, rfl, rfl, rfl, rfl, rfl, rd 1, rd 2, rd 3, rd 4, rd 5, fun k hk => ?_⟩
    rw [rd k, if_neg (by omega), if_neg (by omega), if_neg (by omega), if_neg (by omega), if_neg (by omega)]

/-- R170, R366: the end of a program that may end. -/
theorem Pkg.endNext_program {p : Pkg} {n lc key : Nat} (hk : p.phys n lc = some key) (hu : (p.core key).upd = none) (he : p.mayEnd key = true) :
    p.endNext n lc =
      let q := p.core key
      let out := p.onKey key (fun c => c.leaves p.ftc.now)
      (out.trace 5 n lc (if q.seq.trap ≠ .none then 1 else if q.seq.stopping then 2 else 0) (out.jobOf q.seq.cmd) q.seq.ring q.seq.tag
        q.seq.ids (q.beat - q.seq.startBeat)).leave q.seq.cmd (n * 64 + lc) := by
  simp only [Pkg.endNext, Pkg.programEnd, hk, hu, he, Bool.not_true, Bool.false_eq_true, if_false]

/-- Settles O25. -/
theorem programEnds : Obligations.ProgramEnds := by
  intro s n lc key hp hk he hu q code out p
  have core : out.core key = q.leaves s.pkg.ftc.now := s.pkg.core_onKey_self key _
  refine ⟨State.inPower_runsTo (f := fun p => p.endNext n lc) hp rfl (Pkg.endNext_program hk hu he), ?_⟩
  rw [core]
  exact ⟨rfl, rfl, rfl, rfl⟩

/-! Instruction fetches (R171, R172). -/

section
variable {p : Pkg} {n lc key line o : Nat}

theorem lineOf_of_aligned (h : line % 64 = 0) : lineOf line = line := by unfold lineOf; omega

/-- R172: a cached line with a parity error is dropped. -/
theorem Pkg.instructionFetch_cached (hk : p.phys n lc = some key) (hl : line % 64 = 0) (hc : (p.core key).icache.find line ≠ none) :
    p.instructionFetch n lc line .parity = p.onKey key (fun c => { c with icache := c.icache.del line }) := by
  simp only [Pkg.instructionFetch, hk, lineOf_of_aligned hl, Option.isSome_iff_ne_none.mpr hc, if_true]

/-- R171, R203: a line that is needed or asked for comes through the tracker. -/
theorem Pkg.instructionFetch_line (ecc : Ecc) (hk : p.phys n lc = some key) (hl : line % 64 = 0) (hrun : (p.core key).seq.running = true)
    (hend : (p.core key).seq.ended = false) (hstop : (p.core key).seq.stopping = false) (htrap : (p.core key).seq.trap = .none)
    (hc : (p.core key).icache.find line = none) (ho : p.owner line = some o)
    (hwant : ((p.core key).wordInside = true ∧ line ∈ (p.core key).neededLines) ∨ line ∈ (p.core key).seq.prefetch) :
    p.instructionFetch n lc line ecc =
      let q := p.core key
      let need := q.wordInside && q.neededLines.contains line
      let x := (p.meets ecc).askAll (.fetch key) [(line, 64)] []
      if x.2 = false then x.1.onKey key (fun c => if need then c.hold 5 else c)
      else
        let y := x.1.readLine o line 0 q.seq.tag q.seq.ids
        let p' := (y.1.countMem o line 64 false q.seq.ids).parityFail n line ecc
        if (y.2 && ecc ≠ .parity) = true then p'.onKey key (fun c => c.gotLine line (p'.readBytes line 64))
        else if need = true then p'.act key Core.fetchEcc
        else p'.onKey key (fun c => c.lostLine line) := by
  have hw : ((p.core key).wordInside && (p.core key).neededLines.contains line || (p.core key).seq.prefetch.contains line) = true := by
    simpa using hwant
  simp only [Pkg.instructionFetch, hk, lineOf_of_aligned hl, hc, Option.isSome_none, hrun, hend, hstop, htrap, hw, ho, Bool.not_true, Bool.or_self,
    ne_eq, not_true, decide_false, Bool.false_eq_true, if_false, Bool.not_eq_true']

end

/-- R171: what the core asks for once a line has arrived. -/
theorem Core.mem_gotLine_prefetch (q : Core) (line l : Nat) (bs : List Byte) :
    l ∈ (q.gotLine line bs).seq.prefetch ↔ (l ∈ q.seq.prefetch ∧ l ≠ line) ∨
      ((l = line + 64 ∨ l = line + 128) ∧ l ∉ q.seq.prefetch ∧ q.icache.find l = none) := by
  simp [Core.gotLine]

/-- Settles O26. -/
theorem instructionLineArrives : Obligations.InstructionLineArrives := by
  intro s n lc key line o ecc hp hk hl p q
  have runs {ecc : Ecc} {d : Pkg} (hd : p.instructionFetch n lc line ecc = d) : RunsTo (.instructionFetch n lc line ecc) s d :=
    State.inPower_runsTo (f := fun p => p.instructionFetch n lc line ecc) hp rfl hd
  refine ⟨fun hc => runs (Pkg.instructionFetch_cached hk hl hc), fun hrun hend hstop htrap hc ho => ?_,
    fun bs => ⟨rfl, rfl, fun l => q.mem_gotLine_prefetch line l bs⟩⟩
  intro need hwant x y p'
  have fetch := Pkg.instructionFetch_line ecc hk hl hrun hend hstop htrap hc ho hwant
  have needed : (q.wordInside && q.neededLines.contains line) = true ↔ need := by
    rw [Bool.and_eq_true, List.contains_iff_mem]
  have admitted (hx : x.2 = true) : p.instructionFetch n lc line ecc =
      if (y.2 && ecc ≠ .parity) = true then p'.onKey key (fun c => c.gotLine line (p'.readBytes line 64))
      else if (q.wordInside && q.neededLines.contains line) = true then p'.act key Core.fetchEcc
      else p'.onKey key (fun c => c.lostLine line) :=
    fetch.trans (if_neg (ne_false_of_eq_true hx))
  have bad (h : y.2 = false ∨ ecc = .parity) : ¬ (y.2 && ecc ≠ .parity) = true := by
    rcases h with h | h <;> simp [h]
  refine ⟨fun hx hneed => runs ?_, fun hx hy hecc => runs ?_, fun hx hbad => ⟨fun hneed => runs ?_, fun hneed => runs ?_⟩⟩
  · refine fetch.trans ((if_pos hx).trans ?_)
    exact congrArg (x.1.onKey key) (funext fun c => if_pos (needed.mpr hneed))
  · exact (admitted hx).trans (if_pos (by simp [hy, hecc]))
  · exact (admitted hx).trans ((if_neg (bad hbad)).trans (if_pos (needed.mpr hneed)))
  · exact (admitted hx).trans ((if_neg (bad hbad)).trans (if_neg (fun h => hneed (needed.mp h))))

end Sys2Proof.Machine
end

section
/-! PROOFS. The tracker (R200 to R205), and the host's accesses to device memory and to benches (R178, R224, R356 to R363). -/
namespace Sys2Proof.Machine

/-! Accesses that complete, and wakes. -/

section
variable {p : Pkg} {n ix : Nat} {e : TrkEntry} {ecc : Ecc}

theorem Pkg.accessComplete_stopped (he : (p.die n).trk[ix]? = some e) (hs : p.memStopped n e.line = true) : p.accessComplete n ix ecc = p := by
  simp only [Pkg.accessComplete, he, hs, if_true]

/-- R205: of an access that is no thread's read nothing is left but its entry's place. -/
theorem Pkg.accessComplete_other (he : (p.die n).trk[ix]? = some e) (hs : p.memStopped n e.line = false)
    (hw : e.write = true ∨ ∀ key t, e.who ≠ .thread key t) : p.accessComplete n ix ecc = p.complete n ix := by
  simp only [Pkg.accessComplete, he, hs, Bool.false_eq_true, if_false]
  split
  · rename_i key t hwho hwrite
    rcases hw with hw | hw
    · exact absurd (hwrite.symm.trans hw) Bool.false_ne_true
    · exact absurd hwho (hw key t)
  · rfl

/-- R202, R205: a thread's read gets its line's data, or the error. -/
theorem Pkg.accessComplete_read {key t : Nat} (he : (p.die n).trk[ix]? = some e) (hs : p.memStopped n e.line = false) (hw : e.write = false)
    (hwho : e.who = .thread key t) :
    p.accessComplete n ix ecc =
      let q := p.complete n ix
      let ids := match (q.core key).threads.find t with | some th => th.ids | none => (q.core key).seq.ids
      let r := ((q.meets ecc).touch n e.line false).fillLine n e.line 1 (q.core key).seq.tag e.alloc ids
      let x := r.1.parityFail n e.line ecc
      x.onKey key (fun c => c.hasData e.line (if r.2 && ecc ≠ .parity then some (x.readBytes e.line 64) else none)) := by
  simp only [Pkg.accessComplete, he, hs, hw, hwho, Bool.false_eq_true, if_false] <;> rfl

end

theorem Core.hasData_reqs {c : Core} {line j : Nat} (data : Option (List Byte))
    (h : c.reqs.findIdx? (fun r => r.line = line && r.data.isNone) = some j) :
    (c.hasData line data).reqs = listUpd c.reqs j (fun x => { x with data := some data }) := by
  simp only [Core.hasData, h]

/-- R203: a wake finds a place left and none already woken. -/
theorem Pkg.trackerWake_eq {p : Pkg} {n : Nat} {res : Res} {w : Requester} {ws : List Waiting}
    (h0 : ((p.waitsNow n).die n).wokenFor res = none) (hroom : (p.waitsNow n).inUse n res < (p.waitsNow n).quota n res)
    (hw : wakeFirst res ((p.waitsNow n).die n).waits = (ws, some w)) :
    p.trackerWake n res = if (p.waitsNow n).resStopped n res = true then p.waitsNow n
      else ((p.waitsNow n).updDie n (fun d => { d with waits := ws })).resume n w := by
  cases hs : (p.waitsNow n).resStopped n res <;>
    simp only [Pkg.trackerWake, h0, hroom, hw, hs, Option.isNone_none, decide_true, Bool.and_self, Bool.not_false, Bool.not_true, Bool.and_false,
      Bool.false_eq_true, if_true, if_false]

/-- Settles O27. -/
theorem trackerEffects : Obligations.TrackerEffects := by
  intro s n hp
  have completes {ix : Nat} {ecc : Ecc} {d : Pkg} (hd : s.pkg.accessComplete n ix ecc = d) : RunsTo (.memoryAccessComplete n ix ecc) s d :=
    State.inPower_runsTo (f := fun p => p.accessComplete n ix ecc) hp rfl hd
  have wakes {res : Res} {d : Pkg} (hd : s.pkg.trackerWake n res = d) : RunsTo (.trackerWake n res) s d :=
    State.inPower_runsTo (f := fun p => p.trackerWake n res) hp rfl hd
  refine ⟨fun ix e ecc he hs => completes (Pkg.accessComplete_stopped he hs), fun ix e ecc he hs => ?_, fun res w ws => ?_⟩
  · intro p
    refine ⟨fun hw => completes (Pkg.accessComplete_other he hs hw), fun key t hw hwho => ?_⟩
    intro ids r q
    have read : s.pkg.accessComplete n ix ecc =
        q.onKey key (fun c => c.hasData e.line (if (r.2 && ecc ≠ .parity) = true then some (q.readBytes e.line 64) else none)) :=
      Pkg.accessComplete_read he hs hw hwho
    refine ⟨fun hr hecc => completes ?_, fun hr => completes ?_, fun c j data hj => Core.hasData_reqs data hj⟩
    · rw [read, if_pos (by simp [hr, hecc])]
    · rw [read, if_neg (by rcases hr with hr | hr <;> simp [hr])]
  · intro p h0 hroom hw
    exact ⟨fun hs => wakes ((Pkg.trackerWake_eq h0 hroom hw).trans (if_pos hs)),
      fun hs => wakes ((Pkg.trackerWake_eq h0 hroom hw).trans (if_neg (ne_true_of_eq_false hs)))⟩

end Sys2Proof.Machine
end

section
/-! PROOFS. The host's accesses to device memory and to benches (R178, R203, R224, R233, R356 to R363). -/
namespace Sys2Proof.Machine

theorem lineOf_lineOf (a : Nat) : lineOf (lineOf a) = lineOf a := by unfold lineOf; omega

/-! Requests on their way to the die. -/

section
variable {p : Pkg} {r : HostReq} {ecc : Ecc} {n : Nat}

/-- R30: one of the range of an absent die. -/
theorem Pkg.hostAccess_absent (hd : p.hostDie r.addr = none) :
    p.hostAccess r ecc = if r.data.isSome then p else p.emit (.hostData r.addr (p.readBytes r.addr r.len) false) := by
  simp only [Pkg.hostAccess, hd]

/-- R203: behind those that wait. -/
theorem Pkg.hostAccess_waits (hd : p.hostDie r.addr = some n) (hq : (p.die n).hostq ≠ []) : p.hostAccess r ecc = p.hostWaits n r := by
  simp only [Pkg.hostAccess, hd, List.isEmpty_eq_false_iff.mpr hq, Bool.not_false, if_true]

/-- R361: a full directory has its oldest line invalidated first. -/
theorem Pkg.hostAccess_full (hd : p.hostDie r.addr = some n) (hq : (p.die n).hostq = []) (ho : (p.owner r.addr).isSome = true)
    (hh : r.holds = true) (hl : lineOf r.addr ∉ (p.die n).held) (hfull : directorySize ≤ (p.die n).held.length) :
    p.hostAccess r ecc = { p with touched := (p.die n).held.head?.map (fun l => (l, true)) } := by
  have hc : (p.die n).held.contains (lineOf r.addr) = false := by simpa using hl
  simp only [Pkg.hostAccess, hd, hq, ho, hh, hc, decide_eq_true hfull, List.isEmpty_nil, Bool.not_true, Bool.not_false, Bool.and_self,
    Bool.false_eq_true, if_false, if_true]

/-- R203: otherwise it is served, or waits where the tracker refuses it. -/
theorem Pkg.hostAccess_served (hd : p.hostDie r.addr = some n) (hq : (p.die n).hostq = [])
    (hroom : p.owner r.addr = none ∨ r.holds = false ∨ lineOf r.addr ∈ (p.die n).held ∨ (p.die n).held.length < directorySize) :
    p.hostAccess r ecc = if (p.serveHost n r ecc).2 = true then (p.serveHost n r ecc).1 else (p.serveHost n r ecc).1.hostWaits n r := by
  have hdir : ((p.owner r.addr).isSome && r.holds && !(p.die n).held.contains (lineOf r.addr) && directorySize ≤ (p.die n).held.length) = false := by
    rcases hroom with h | h | h | h
    · simp [h]
    · simp [h]
    · simp [h]
    · simp [Nat.not_le.mpr h]
  simp only [Pkg.hostAccess, hd, hq, List.isEmpty_nil, Bool.not_true, Bool.false_eq_true, if_false, hdir]

/-! Requests that are served. -/

/-- Log 42: over a failed path a write is lost, a read answers poison. -/
theorem Pkg.serveHost_failed (hb : p.headBad n = true) :
    p.serveHost n r ecc = (if r.data.isNone then p.emit (.hostData r.addr [] true) else p, true) := by
  simp only [Pkg.serveHost, hb, if_true]

/-- R233: what a write brings is discarded where its check fails. -/
theorem Pkg.serveHost_discarded {bs : List Byte} (hb : p.headBad n = false) (hw : r.data = some bs) :
    p.serveHost n r .parity = (p.datapath n r.addr, true) := by
  simp only [Pkg.serveHost, hb, hw, Option.isSome_some, decide_true, Bool.and_self, Bool.false_eq_true, if_false, if_true]

/-- R178: what no tracker takes in. -/
theorem Pkg.serveHost_uncached (hb : p.headBad n = false) (hw : r.data = none ∨ ecc ≠ .parity) (ho : p.owner r.addr = none) :
    p.serveHost n r ecc = (p.hostUncached n r ecc, true) := by
  have hd : (r.data.isSome && decide (ecc = .parity)) = false := by rcases hw with h | h <;> simp [h]
  simp only [Pkg.serveHost, hb, hd, ho, Option.isNone_none, Bool.false_eq_true, if_false, if_true]

/-- R224: a write of memory. -/
theorem Pkg.serveHost_write {bs : List Byte} {o : Nat} (hb : p.headBad n = false) (hw : r.data = some bs) (he : ecc ≠ .parity)
    (ho : p.owner r.addr = some o) :
    p.serveHost n r ecc =
      let q := (p.meets ecc).askAll .host [] [(r.addr, bs.length)]
      if q.2 = true then (((q.1.write r.addr bs .absent).hostHolds n (lineOf r.addr) r.holds).asBefore p, true) else q := by
  simp only [Pkg.serveHost, hb, hw, he, ho, Option.isNone_some, decide_false, Bool.and_false, Bool.false_eq_true, if_false, Bool.not_eq_true']
  generalize (p.meets ecc).askAll .host [] [(r.addr, bs.length)] = q
  cases q.2 <;> rfl

/-- R224: a read of memory. -/
theorem Pkg.serveHost_read {o : Nat} (hb : p.headBad n = false) (hw : r.data = none) (ho : p.owner r.addr = some o) :
    p.serveHost n r ecc =
      let q := (p.meets ecc).askAll .host [(lineOf r.addr, 64)] []
      let x := q.1.readLine n (lineOf r.addr) 5 0 .absent
      let y := ((x.1.countMem n (lineOf r.addr) 64 false .absent).hostHolds n (lineOf r.addr) r.holds).parityFail n (lineOf r.addr) ecc
      if q.2 = true then ((y.answerHost n r (x.2 && ecc ≠ .parity)).asBefore p, true) else q := by
  simp only [Pkg.serveHost, hb, hw, ho, Option.isNone_none, Option.isNone_some, Option.isSome_none, Bool.false_and, Bool.false_eq_true, if_false,
    if_true, Bool.not_eq_true']
  generalize (p.meets ecc).askAll .host [(lineOf r.addr, 64)] [] = q
  cases q.2 <;> rfl

end

/-- R203: what an access comes to that the tracker may refuse. -/
theorem Pkg.hostAccess_asked {p d : Pkg} {q : Pkg × Bool} {r : HostReq} {ecc : Ecc} {n : Nat}
    (ha : p.hostAccess r ecc = if (p.serveHost n r ecc).2 = true then (p.serveHost n r ecc).1 else (p.serveHost n r ecc).1.hostWaits n r)
    (hs : p.serveHost n r ecc = if q.2 = true then (d, true) else q) :
    p.hostAccess r ecc = if q.2 = true then d else q.1.hostWaits n r := by
  rw [ha, hs]
  obtain ⟨p, b⟩ := q
  cases b <;> rfl

/-- R178: a read that no tracker takes in: its bytes, or poison. -/
theorem Pkg.hostUncached_read (p : Pkg) (n a len : Nat) (holds : Bool) (ecc : Ecc) :
    p.hostUncached n ⟨a, len, none, holds⟩ ecc =
      if p.rangeBad a len = true then ((p.noteWindow a len).parityFail n a ecc).emit (.hostData a [] true)
      else if ecc = .parity then (p.datapath n a).emit (.hostData a [] true)
      else (p.emit (.hostData a (p.readBytes a len) false)).headSend n len .absent := by
  cases hb : p.rangeBad a len <;> by_cases he : ecc = .parity <;>
    simp [Pkg.hostUncached, Pkg.answerHost, Pkg.parityFail, hb, he]

/-- R360: a request that no decoder maps changes nothing (log 13). -/
theorem Pkg.hostRequest_unmapped {p : Pkg} {hpa retries : Nat} {data : Option (List Byte)} {holds : Bool} {ecc : Ecc} (hl : p.linkUp = true)
    (hm : p.port.memEn = true) (hd : (p.retried retries).dpaOf hpa = none) : p.hostRequest hpa retries data holds ecc = p.retried retries := by
  simp only [Pkg.hostRequest, hl, hm, Bool.not_true, Bool.or_self, Bool.false_eq_true, if_false, hd]

/-- R360: one that a decoder maps onto `a`. -/
theorem Pkg.hostRequest_mapped {p : Pkg} {hpa retries a : Nat} {data : Option (List Byte)} {holds : Bool} {ecc : Ecc} (hl : p.linkUp = true)
    (hm : p.port.memEn = true) (hd : (p.retried retries).dpaOf hpa = some a) : p.hostRequest hpa retries data holds ecc =
      (p.retried retries).hostAccess ⟨a, (data.map List.length).getD 64, data, holds⟩ ecc := by
  simp only [Pkg.hostRequest, hl, hm, Bool.not_true, Bool.or_self, Bool.false_eq_true, if_false, hd]

/-- R361: the host's answer to a snoop. -/
theorem Pkg.bisnpResponse_eq {p : Pkg} {a n : Nat} {inv : Bool} {data : Option (List Byte)} {ecc : Ecc} (ha : a % 64 = 0)
    (ho : p.owner a = some n) (hs : (a, inv) ∈ p.snoops) :
    p.bisnpResponse a inv data ecc =
      let ask := (p.meets ecc).askAll (.answer a) [] (match data with | some bs => [(a, min 64 bs.length)] | none => [])
      let q : Pkg := { ask.1 with snoops := ask.1.snoops.filter (fun x => !(x = (a, inv))) }
      let q := match data with
        | some bs => if ecc = Ecc.parity then q.datapath n a else q.writeLine n a (bs.take 64) 7 0 .absent
        | none => q
      if ask.2 = false then ask.1
      else (if inv then q.hostHolds n a false
        else { q with answered := if q.answered.contains a then q.answered else a :: q.answered }).asBefore p := by
  have hc : p.snoops.contains (a, inv) = true := List.contains_iff_mem.mpr hs
  simp only [Pkg.bisnpResponse, lineOf_of_aligned ha, hc, ho, Bool.not_true, Bool.false_eq_true, if_false, Bool.not_eq_true'] <;> rfl

/-- R361: the lines that the host may hold. -/
theorem Pkg.mem_hostHolds (p : Pkg) (n l m : Nat) (holds : Bool) :
    l ∈ ((p.hostHolds n m holds).die n).held ↔ if l = m then holds = true else l ∈ (p.die n).held := by
  rw [Pkg.hostHolds, Pkg.die_updDie, if_pos rfl]
  dsimp only
  cases holds with
  | false => by_cases hl : l = m <;> simp [hl]
  | true =>
    rw [if_pos rfl]
    split
    · rename_i hm
      by_cases hl : l = m
      · simpa [hl] using hm
      · simp [hl]
    · by_cases hl : l = m <;> simp [hl]

/-- R357: the link's retries are counted up to 0xFFFF. -/
theorem Pkg.retried_counts (p : Pkg) (k : Nat) : (p.retried k).fld (rRING_LINK.at 0 0 0) fRING_LINK_RETRIES =
    min (p.fld (rRING_LINK.at 0 0 0) fRING_LINK_RETRIES + k) 0xFFFF := by
  refine (Pkg.fld_setFld p _ _ fRING_LINK_RETRIES (by decide)).trans (Nat.mod_eq_of_lt ?_)
  exact Nat.lt_of_le_of_lt (Nat.min_le_right _ _) (by decide)

/-- Settles O28: by what becomes of a request at the decoders, at its die's queue, at the directory, and as it is served. -/
theorem hostMemoryEffects : Obligations.HostMemoryEffects := by
  intro s hpa a n retries holds ecc hp hlink p rd wr part line poison answer
  have reads {d : Pkg} (hd : s.pkg.cxlRead hpa retries holds ecc = d) : RunsTo rd s d :=
    State.inPower_runsTo (f := fun p => p.cxlRead hpa retries holds ecc) hp rfl hd
  have writes {bs : List Byte} {d : Pkg} (hd : s.pkg.cxlWrite hpa retries bs holds ecc = d) : RunsTo (wr bs) s d :=
    State.inPower_runsTo (f := fun p => p.cxlWrite hpa retries bs holds ecc) hp rfl hd
  refine ⟨fun hm hd ha => ⟨reads ?_, fun bs => writes ?_⟩, fun hm hd ha => ?_, fun ha => reads ?_, fun inv data ha ho hs => ?_, ?_,
    fun l m => p.mem_hostHolds n l m holds, s.pkg.retried_counts retries⟩
  · rw [Pkg.cxlRead, lineOf_of_aligned ha]
    exact Pkg.hostRequest_unmapped hlink hm hd
  · exact Pkg.hostRequest_unmapped hlink hm hd
  · have read : s.pkg.cxlRead hpa retries holds ecc = p.hostAccess ⟨a, 64, none, holds⟩ ecc := by
      rw [Pkg.cxlRead, lineOf_of_aligned ha]
      exact Pkg.hostRequest_mapped hlink hm hd
    have write (bs : List Byte) : s.pkg.cxlWrite hpa retries bs holds ecc = p.hostAccess ⟨a, (part bs).length, some (part bs), holds⟩ ecc :=
      Pkg.hostRequest_mapped hlink hm hd
    refine ⟨fun hdie => ⟨reads (read.trans (Pkg.hostAccess_absent hdie)), fun bs => writes ((write bs).trans (Pkg.hostAccess_absent hdie))⟩,
      fun hdie hq => ⟨reads (read.trans (Pkg.hostAccess_waits hdie hq)), fun bs => writes ((write bs).trans (Pkg.hostAccess_waits hdie hq))⟩,
      fun hdie hq ho hh hl hfull => ?_, fun hdie hq hroom => ?_⟩
    · exact ⟨reads (read.trans (Pkg.hostAccess_full hdie hq ho hh hl hfull)),
        fun bs => writes ((write bs).trans (Pkg.hostAccess_full hdie hq ho hh hl hfull))⟩
    · have rserved := read.trans (Pkg.hostAccess_served hdie hq hroom)
      have wserved (bs : List Byte) := (write bs).trans (Pkg.hostAccess_served hdie hq hroom)
      refine ⟨fun hb => ⟨reads ?_, fun bs => writes ?_⟩, fun hb => ⟨fun he bs => writes ?_, fun ho => ⟨fun he bs => writes ?_, fun hr he => reads ?_,
        fun hr he => reads ?_, fun hr => reads ?_⟩, fun ho => ⟨fun he bs => ?_, ?_⟩⟩⟩
      · rw [rserved, Pkg.serveHost_failed hb]
        rfl
      · rw [wserved, Pkg.serveHost_failed hb]
        rfl
      · subst he
        rw [wserved, Pkg.serveHost_discarded hb rfl]
        rfl
      · rw [wserved, Pkg.serveHost_uncached hb (.inr he) ho]
        rfl
      · rw [rserved, Pkg.serveHost_uncached hb (.inl rfl) ho, if_pos rfl, Pkg.hostUncached_read, hr, if_neg Bool.false_ne_true, if_neg he]
      · rw [rserved, Pkg.serveHost_uncached hb (.inl rfl) ho, if_pos rfl, Pkg.hostUncached_read, hr, if_neg Bool.false_ne_true, if_pos he]
      · rw [rserved, Pkg.serveHost_uncached hb (.inl rfl) ho, if_pos rfl, Pkg.hostUncached_read, if_pos hr]
      · intro q
        have served : s.pkg.cxlWrite hpa retries bs holds ecc =
            if q.2 = true then ((q.1.write a (part bs) .absent).hostHolds n line holds).asBefore p
            else q.1.hostWaits n ⟨a, (part bs).length, some (part bs), holds⟩ :=
          (write bs).trans (Pkg.hostAccess_asked (Pkg.hostAccess_served hdie hq hroom) (Pkg.serveHost_write hb rfl he ho))
        exact ⟨fun hq => writes (served.trans (if_pos hq)), fun hq => writes (served.trans (if_neg (ne_true_of_eq_false hq)))⟩
      · intro q x y
        have served : s.pkg.cxlRead hpa retries holds ecc =
            if q.2 = true then (y.answerHost n ⟨a, 64, none, holds⟩ (x.2 && ecc ≠ .parity)).asBefore p
            else q.1.hostWaits n ⟨a, 64, none, holds⟩ :=
          read.trans (Pkg.hostAccess_asked (Pkg.hostAccess_served hdie hq hroom) (Pkg.serveHost_read hb rfl ho))
        refine ⟨fun hq => reads (served.trans (if_neg (ne_true_of_eq_false hq))), fun hq hx he => reads ?_, fun hq hx => reads ?_⟩
        · rw [served, if_pos hq, hx, decide_eq_true he]
          rfl
        · have bad : (x.2 && decide (ecc ≠ .parity)) = false := by rcases hx with h | h <;> simp [h]
          rw [served, if_pos hq, bad]
          rfl
  · rw [Pkg.cxlRead, Pkg.cxlRead, lineOf_lineOf]
  · intro act ask q0 q
    have answered := Pkg.bisnpResponse_eq (data := data) (ecc := ecc) ha ho hs
    have runs {d : Pkg} (hd : s.pkg.bisnpResponse a inv data ecc = d) : RunsTo act s d :=
      State.inPower_runsTo (f := fun p => p.bisnpResponse a inv data ecc) hp rfl hd
    exact ⟨fun hq => runs (answered.trans (if_pos hq)), fun hq => runs (answered.trans (if_neg (ne_false_of_eq_true hq)))⟩
  · exact State.inPower_runsTo (f := fun p => p.hostSnoop a retries) hp rfl (if_pos hlink)

/-! Bench windows (R20, R177, R178). -/

section
variable {p : Pkg} {n lc off : Nat}

/-- R178: a bench window lies in no other range of the address map. -/
theorem Pkg.region_benchBase (hn : p.present n = true) (h8 : n < 8) (hlc : lc < 64) (hoff : off < 0x300000) :
    p.region (benchBase n lc + off) = .bench n lc off := by
  have hdie : (benchBase n lc + off - 0x100000000000) / 0x10000000 = n := by unfold benchBase; omega
  have hcore : (benchBase n lc + off - 0x100000000000) % 0x10000000 / 0x400000 = lc := by unfold benchBase; omega
  have hin : (benchBase n lc + off) % 0x400000 = off := by unfold benchBase; omega
  have hlow : 0x100000000000 ≤ benchBase n lc + off := by unfold benchBase; omega
  have hhigh : benchBase n lc + off < 0x100080000000 := by unfold benchBase; omega
  simp only [Pkg.region, hdie, hcore, hin, hn, decide_eq_true hoff, Bool.and_self, if_true]
  rw [if_neg (by omega), if_neg (by omega), if_pos (by simp only [Bool.and_eq_true, decide_eq_true_eq]; exact ⟨hlow, hhigh⟩)]

end

/-- Settles O29: a bench window's request is a host access whose address is in no memory. -/
theorem benchWindowEffects : Obligations.BenchWindowEffects := by
  intro s n lc off len ecc hp hn h8 hlc hoff p a read wr answer
  have region : p.region a = .bench n lc off := Pkg.region_benchBase hn h8 hlc hoff
  have owner : p.owner a = none := by rw [Pkg.owner, region]
  have hdie : p.hostDie a = some n := by rw [Pkg.hostDie, Pkg.homeDie, region]
  have range (hgood : ∀ key, p.phys n lc = some key → (p.core key).benchBad off len = false) : p.rangeBad a len = false := by
    rw [Pkg.rangeBad, region]
    cases hk : p.phys n lc with
    | none => simp only [hk]
    | some key => simp only [hk, hgood key hk]
  have reads {d : Pkg} (hd : p.hostAccess ⟨a, len, none, false⟩ ecc = d) : RunsTo read s d :=
    State.inPower_runsTo (f := fun p => p.benchWindow n lc off len none ecc) hp rfl hd
  have writes {bs : List Byte} {d : Pkg} (hd : p.hostAccess ⟨a, len, some bs, false⟩ ecc = d) : RunsTo (wr bs) s d :=
    State.inPower_runsTo (f := fun p => p.benchWindow n lc off len (some bs) ecc) hp rfl hd
  refine ⟨fun hq => ⟨reads (Pkg.hostAccess_waits hdie hq), fun bs => writes (Pkg.hostAccess_waits hdie hq)⟩, fun hq => ?_, fun hk => ?_⟩
  · have served (data : Option (List Byte)) := Pkg.hostAccess_served (r := ⟨a, len, data, false⟩) (ecc := ecc) hdie hq (.inl owner)
    refine ⟨fun hb => ⟨reads ?_, fun bs => writes ?_⟩, fun hb => ⟨fun he bs => writes ?_, fun he bs => ⟨fun key hk => writes ?_, fun hk => writes ?_⟩,
      fun key hk hbad => reads ?_, fun hgood => ⟨fun he => reads ?_, fun he => reads ?_⟩⟩⟩
    · rw [served, Pkg.serveHost_failed hb]
      rfl
    · rw [served, Pkg.serveHost_failed hb]
      rfl
    · subst he
      rw [served, Pkg.serveHost_discarded hb rfl]
      rfl
    · rw [served, Pkg.serveHost_uncached hb (.inr he) owner, if_pos rfl]
      simp only [Pkg.hostUncached, Pkg.write, region, hk]
    · rw [served, Pkg.serveHost_uncached hb (.inr he) owner, if_pos rfl]
      simp only [Pkg.hostUncached, Pkg.write, region, hk]
    · rw [served, Pkg.serveHost_uncached hb (.inl rfl) owner, if_pos rfl, Pkg.hostUncached_read, if_pos]
      · simp only [Pkg.noteWindow, region, hk, hbad, if_true]
      · simp only [Pkg.rangeBad, region, hk, hbad]
    · rw [served, Pkg.serveHost_uncached hb (.inl rfl) owner, if_pos rfl, Pkg.hostUncached_read, range hgood, if_neg Bool.false_ne_true, if_neg he]
    · rw [served, Pkg.serveHost_uncached hb (.inl rfl) owner, if_pos rfl, Pkg.hostUncached_read, range hgood, if_neg Bool.false_ne_true, if_pos he]
  · rw [Pkg.readByte, region]
    simp only [hk]

end Sys2Proof.Machine
end

section
/-! PROOFS. KERNEL, PEGSET, NOP and PHASE commands (R160, R347 to R350, R375). -/
namespace Sys2Proof.Machine

section
variable {p : Pkg} {k : Nat} {c : Cmd}

/-- A fired command of a type, not yet ended. -/
theorem Cmd.firedAs_of {ty : Nat} (ht : c.ty = ty) (hs : c.stage = .fired) (hf : c.fin = none) : c.firedAs ty = true := by
  simp only [Cmd.firedAs, ht, hs, hf, decide_true, Bool.and_self]

/-- R167: a KERNEL whose turn it is reaches its firing stage. -/
theorem Pkg.kernel_dispatches (hc : p.cmds.find k = some c) (hf : c.fin = none) (ht : c.ty = 1) (hs : c.stage = .fetched)
    (ho : p.orderOk k c = true) (hd : p.dispatchTurn k = true) (hr : p.fw.inReset = false) : p.kernel k = p.dispatch k := by
  simp only [Pkg.kernel, hc, hf, ht, hs, ho, hd, hr, decide_true, Bool.and_self, Bool.not_false, if_true]

theorem Pkg.pegsetSet_fired (hc : p.cmds.find k = some c) (hf : c.fin = none) (hs : c.stage = .fired) (ht : c.ty = 11)
    (hop : c.f 30 1 % 2 = 0) : p.pegsetSet k = (p.setDpeg (c.f 28 1 % 8) (c.f 29 1) (c.f 32 4)).finish k 0 0 0 := by
  simp only [Pkg.pegsetSet, hc, Cmd.firedAs_of ht hs hf, hop, decide_true, Bool.and_self, if_true]

theorem Pkg.pegsetAdd_fired (hc : p.cmds.find k = some c) (hf : c.fin = none) (hs : c.stage = .fired) (ht : c.ty = 11)
    (hop : c.f 30 1 % 2 = 1) : p.pegsetAdd k = (p.addDpeg (c.f 28 1 % 8) (c.f 29 1) (c.f 32 4)).finish k 0 0 0 := by
  simp only [Pkg.pegsetAdd, hc, Cmd.firedAs_of ht hs hf, hop, decide_true, Bool.and_self, if_true]

theorem Pkg.nop_fired (hc : p.cmds.find k = some c) (hf : c.fin = none) (hs : c.stage = .fired) (ht : c.ty = 12) : p.nop k = p.finish k 0 0 0 := by
  simp only [Pkg.nop, hc, Cmd.firedAs_of ht hs hf, if_true]

/-- R347: a BEGIN keeps the start of its phase. -/
theorem Pkg.phaseBegin_fired (hc : p.cmds.find k = some c) (hf : c.fin = none) (hs : c.stage = .fired) (ht : c.ty = 9)
    (he : c.f 28 1 / 16 % 2 = 0) : p.phaseBegin k =
      ({ p with fw := { p.fw with phases := p.fw.phases.set (c.f 28 1 % 16) { step := c.f 32 4, ftc := c.fire.getD 0, unlocked := c.idx = 1 } } }
        : Pkg).finish k 0 0 0 := by
  simp only [Pkg.phaseBegin, hc, Cmd.firedAs_of ht hs hf, Cmd.edge, Cmd.phase, he, decide_true, Bool.and_self, if_true]

/-- R348 to R350: an END stores the record of its phase in the ledger, once the tracker lets it in. -/
theorem Pkg.phaseEnd_fired (hc : p.cmds.find k = some c) (hf : c.fin = none) (hs : c.stage = .fired) (ht : c.ty = 9)
    (he : c.f 28 1 / 16 % 2 = 1) : p.phaseEnd k =
      let r := p.record c
      let place := if p.ledgerOn then some (p.ledgerAt (p.fld aLedgerHead fHS_LEDGER_HEAD_INDEX)) else none
      let ask := p.askAll (.command k) [] (match place with | some a => [(a, 64)] | none => [])
      let q : Pkg := { ask.1 with fw := { ask.1.fw with phases := ask.1.fw.phases.del (c.f 28 1 % 16) } }
      let q := match place with | some a => (q.write a r c.ids c.tag).bumpWrap aLedgerHead fHS_LEDGER_HEAD_INDEX | none => q
      if ask.2 = false then ask.1
      else if c.isShare = true then
        (q.updDie c.collDie (fun d => { d with collq := d.collq ++ [k] })).updCmd k
          (fun c => { c with stage := .queued, record := r, recAt := place, suspect := q.rd aSuspect })
      else q.finish k 0 0 0 := by
  simp only [Pkg.phaseEnd, hc, Cmd.firedAs_of ht hs hf, Cmd.edge, Cmd.phase, he, decide_true, Bool.and_self, if_true, Bool.not_eq_true'] <;> rfl

end

/-- Settles O30. -/
theorem controlCommandsRun : Obligations.ControlCommandsRun := by
  intro s k c hp hc hf p peg die
  refine ⟨fun ht hs ho hd hr => State.inPower_runsTo (f := fun p => p.kernel k) hp rfl (Pkg.kernel_dispatches hc hf ht hs ho hd hr), fun hs =>
    ⟨fun ht hop => State.inPower_runsTo (f := fun p => p.pegsetSet k) hp rfl (Pkg.pegsetSet_fired hc hf hs ht hop),
      fun ht hop => State.inPower_runsTo (f := fun p => p.pegsetAdd k) hp rfl (Pkg.pegsetAdd_fired hc hf hs ht hop),
      fun ht => State.inPower_runsTo (f := fun p => p.nop k) hp rfl (Pkg.nop_fired hc hf hs ht),
      fun ht he => State.inPower_runsTo (f := fun p => p.phaseBegin k) hp rfl (Pkg.phaseBegin_fired hc hf hs ht he), fun ht he => ?_⟩⟩
  intro r place ask q0 q
  have ends := Pkg.phaseEnd_fired hc hf hs ht he
  have runs {d : Pkg} (hd : p.phaseEnd k = d) : RunsTo (.phaseEnd k) s d := State.inPower_runsTo (f := fun p => p.phaseEnd k) hp rfl hd
  refine ⟨fun ha => runs (ends.trans (if_pos ha)), fun ha hsh => runs ?_, fun ha hsh => runs ?_⟩
  · exact ends.trans ((if_neg (ne_false_of_eq_true ha)).trans (if_neg (ne_true_of_eq_false hsh)))
  · exact ends.trans ((if_neg (ne_false_of_eq_true ha)).trans (if_pos hsh))

end Sys2Proof.Machine
end

section
/-! PROOFS. UPDATE: its start on a core, its two passes, its end (R169, R245 to R258). -/
namespace Sys2Proof.Machine

/-- R253 to R257: pass 2 of a shard that is not frozen, once its lines are there; `rank0`: the core that counts. -/
def Upd.apply (u : Upd) (k ticks seed rank0 : Nat) (c : Cmd) : Pkg :=
  let r : URec := ⟨c.record⟩
  match (u.norm c).2 with
  | none => (u.norm c).1.done k ticks 0
  | some x =>
    if (f32 x).special = true then
      let w := (u.norm c).1.bumpRec r 160
      { w with p := w.p.bumpWrap (rCORE_UPD_NONFIN.at (rank0 / 72) (rank0 % 72) 0) fCORE_UPD_NONFIN_COUNT }.done k ticks 3
    else
      let w := (u.norm c).1.pass2 r (r.scalars x) seed
      (if w.fault.isSome = true then w else w.put 0 0 (c.f 32 8 + 144)
        (toBytes 4 (r.f 144 4 + 1) ++ toBytes 4 (r.scalars x).p1.toNat ++ toBytes 4 (r.scalars x).p2.toNat)).done k ticks 0

section
variable {u : Upd} {k ticks seed rank0 : Nat} {c : Cmd} {x : Word}

theorem Upd.apply_unread (h : (u.norm c).2 = none) : u.apply k ticks seed rank0 c = (u.norm c).1.done k ticks 0 := by
  simp only [Upd.apply, h]

theorem Upd.apply_nonfinite (h : (u.norm c).2 = some x) (hs : (f32 x).special = true) : u.apply k ticks seed rank0 c =
    let w := (u.norm c).1.bumpRec ⟨c.record⟩ 160
    { w with p := w.p.bumpWrap (rCORE_UPD_NONFIN.at (rank0 / 72) (rank0 % 72) 0) fCORE_UPD_NONFIN_COUNT }.done k ticks 3 := by
  simp only [Upd.apply, h, hs, if_true]

theorem Upd.apply_updates (h : (u.norm c).2 = some x) (hs : (f32 x).special = false) : u.apply k ticks seed rank0 c =
    let r : URec := ⟨c.record⟩
    let w := (u.norm c).1.pass2 r (r.scalars x) seed
    (if w.fault.isSome = true then w else w.put 0 0 (c.f 32 8 + 144)
      (toBytes 4 (r.f 144 4 + 1) ++ toBytes 4 (r.scalars x).p1.toNat ++ toBytes 4 (r.scalars x).p2.toNat)).done k ticks 0 := by
  simp only [Upd.apply, h, hs, Bool.false_eq_true, if_false]

end

section
variable {p : Pkg} {k : Nat} {c : Cmd} {keys : List Nat}

/-- R250, R251: pass 1 on the cores of an UPDATE that runs on all of them. -/
theorem Pkg.statisticsPass_ready (ticks ix : Nat) (ecc : Ecc) (hc : p.cmds.find k = some c) (hr : p.updReady k c = some keys) (hp : c.f 31 1 = 1) :
    p.statisticsPass k ticks ix ecc =
      let q := p.updAsk c keys
      let f := q.1.fresh
      let u := f.1.updPass c keys ix ecc
      let r : URec := ⟨c.record⟩
      if q.2 = false then q.1
      else (if r.freeze then u.put f.2 0 (c.f 40 8 + 4 * r.f 84 4) (toBytes 4 0) else u.pass1 r f.2 (c.f 40 8 + 4 * r.f 84 4)).done k ticks 0 := by
  simp only [Pkg.statisticsPass, hc, hr, hp, ne_eq, not_true, if_false, Bool.not_eq_true']

/-- R253 to R257: pass 2, up to the shard's case. -/
theorem Pkg.applyPass_ready (ticks ix : Nat) (ecc : Ecc) (hc : p.cmds.find k = some c) (hr : p.updReady k c = some keys) (hp : c.f 31 1 = 2) :
    p.applyPass k ticks ix ecc =
      let q := p.updAsk c keys
      let f := q.1.fresh
      let u := f.1.updPass c keys ix ecc
      let r : URec := ⟨c.record⟩
      let rank0 := keys.getD 0 0
      if q.2 = false then q.1
      else if r.freeze = true then
        let w := u.bumpRec r 156
        { w with p := w.p.bumpWrap (rCORE_UPD_FROZEN.at (rank0 / 72) (rank0 % 72) 0) fCORE_UPD_FROZEN_COUNT }.done k ticks 0
      else u.apply k ticks f.2 rank0 c := by
  simp only [Pkg.applyPass, hc, hr, hp, ne_eq, not_true, if_false, Bool.not_eq_true', Nat.reduceEqDiff] <;> rfl

/-- R247: on a core that does not read the record, or of a command that has failed, an UPDATE just starts. -/
theorem Pkg.updStart_other {n lc key : Nat} {e : StartEntry} (ecc : Ecc) (hc : p.cmds.find e.cmd = some c) (h : e.rank ≠ 0 ∨ c.fail ≠ none) :
    p.updStart n lc key e ecc = p.updOn n lc key c e.cmd := by
  have hb : (decide (e.rank ≠ 0) || c.fail.isSome) = true := by
    rcases h with h | h
    · simp [h]
    · simp [Option.isSome_iff_ne_none.mpr h]
  simp only [Pkg.updStart, hc, hb, if_true]

/-- R247, R258: the core of rank 0 reads the record as it starts; what it is read as. -/
theorem Pkg.updStart_rank0 {n lc key : Nat} {e : StartEntry} {ecc : Ecc} {r : Pkg × Pull} (hc : p.cmds.find e.cmd = some c) (h0 : e.rank = 0)
    (hf : c.fail = none) (hr : p.pull n (.update key 0) 1 c.tag (c.f 32 8) 256 c.ids ecc = r) :
    p.updStart n lc key e ecc =
      match r.2 with
      | .parked => r.1
      | .bad cause b => (r.1.updOn n lc key c e.cmd).updFail e.cmd c key 0xFFFFFFFF cause b
      | .data bs =>
        let c' := { c with record := bs }
        let q := ((r.1.onKey key (fun q => q.countGth (r.1.isDdr (c.f 32 8)) c.ids 256 false)).updCmd e.cmd
          (fun c => { c with record := bs })).updOn n lc key c' e.cmd
        ((q.setKeys c').filter (fun x => (q.core x).upd.isSome && (q.core x).cmdNo = e.cmd)).foldl (fun p x => p.updRegs c' x) q := by
  have hb : (decide (e.rank ≠ 0) || c.fail.isSome) = false := by rw [h0, hf]; rfl
  simp only [Pkg.updStart, hc, hb, Bool.false_eq_true, if_false, hr]
  obtain ⟨q, got⟩ := r
  cases got <;> rfl

/-- R169: what stands at the head of a start queue, an UPDATE. -/
theorem Pkg.startNext_update {n lc key : Nat} {e : StartEntry} {es : List StartEntry} (ecc : Ecc) (hk : p.phys n lc = some key)
    (hq : (p.core key).startq = e :: es) (hu : e.upd = true) (hs : p.startable key = true) : p.startNext n lc ecc = p.updStart n lc key e ecc := by
  simp only [Pkg.startNext, hk, hq, hu, hs, if_true]

/-- R18, R170: the UPDATE of a command that has failed ends on its core. -/
theorem Pkg.endNext_update {n lc key t : Nat} (hk : p.phys n lc = some key) (hu : (p.core key).upd = some (k, t)) (hc : p.cmds.find k = some c)
    (hf : c.fail ≠ none) : p.endNext n lc = (p.endUpdOn c key 2).leave k (n * 64 + lc) := by
  simp only [Pkg.endNext, hk, hu, hc, Option.isSome_iff_ne_none.mpr hf, if_true]

end

/-- Settles O33: by the pass; of the start by the core's rank and what it reads. -/
theorem updatePassesRun : Obligations.UpdatePassesRun := by
  refine ⟨fun s k ticks ix ecc c keys hp hc hr => ?_, fun s n lc key e es c ecc hp hk hq hu hs hc => ?_, fun s n lc key t k c hp hk hu hc hf => ?_⟩
  · intro q f r u rank0 stat app
    have statistics {d : Pkg} (hd : s.pkg.statisticsPass k ticks ix ecc = d) : RunsTo stat s d :=
      State.inPower_runsTo (f := fun p => p.statisticsPass k ticks ix ecc) hp rfl hd
    have applies {d : Pkg} (hd : s.pkg.applyPass k ticks ix ecc = d) : RunsTo app s d :=
      State.inPower_runsTo (f := fun p => p.applyPass k ticks ix ecc) hp rfl hd
    refine ⟨fun hpass => ?_, fun hpass => ?_⟩
    · have pass := Pkg.statisticsPass_ready ticks ix ecc hc hr hpass
      exact ⟨fun hq => statistics (pass.trans (if_pos hq)), fun hq => statistics (pass.trans (if_neg (ne_false_of_eq_true hq)))⟩
    · have pass := Pkg.applyPass_ready ticks ix ecc hc hr hpass
      have admitted (hq : q.2 = true) := pass.trans (if_neg (ne_false_of_eq_true hq))
      have thawed (hq : q.2 = true) (hz : r.freeze = false) := (admitted hq).trans (if_neg (ne_true_of_eq_false hz))
      refine ⟨fun hq => applies (pass.trans (if_pos hq)), fun hq => ⟨fun hz => applies ((admitted hq).trans (if_pos hz)), fun hz hn => applies ?_,
        fun hz x hx => ⟨fun hsp => applies ?_, fun hsp => ⟨fun hw => applies ?_, fun hw => applies ?_⟩⟩⟩⟩
      · exact (thawed hq hz).trans (Upd.apply_unread hn)
      · exact (thawed hq hz).trans (Upd.apply_nonfinite hx hsp)
      · exact ((thawed hq hz).trans (Upd.apply_updates hx hsp)).trans
          (congrArg (fun w : Upd => w.done k ticks 0) (if_neg (by rw [show _ = none from hw]; exact Bool.false_ne_true)))
      · exact ((thawed hq hz).trans (Upd.apply_updates hx hsp)).trans
          (congrArg (fun w : Upd => w.done k ticks 0) (if_pos (Option.isSome_iff_ne_none.mpr hw)))
  · intro p go r
    have runs {d : Pkg} (hd : p.startNext n lc ecc = d) : RunsTo go s d := State.inPower_runsTo (f := fun p => p.startNext n lc ecc) hp rfl hd
    have start := Pkg.startNext_update ecc hk hq hu hs
    refine ⟨fun h => runs (start.trans (Pkg.updStart_other ecc hc h)), fun h0 hf => ?_⟩
    have reads := start.trans (Pkg.updStart_rank0 (r := r) hc h0 hf rfl)
    refine ⟨fun hr => runs ?_, fun cause b hr => runs ?_, fun bs hr => runs ?_⟩
    all_goals rw [reads, hr]
  · exact State.inPower_runsTo (f := fun p => p.endNext n lc) hp rfl (Pkg.endNext_update hk hu hc hf)

end Sys2Proof.Machine
end

section
/-! PROOFS. Gather-and-stream engines: taking a command, segments, gathers and dumps (R193, R210, R232, R377, R378, R432 to R434). -/
namespace Sys2Proof.Machine

section
variable {p : Pkg} {n k e : Nat} {c : Cmd}

/-- R340: class 3 goes after the other classes. -/
theorem Pkg.nextOf_eq (p : Pkg) (l : List Nat) :
    p.nextOf l = match l.filter (fun k => match p.cmds.find k with | some c => c.prio ≠ 3 | none => false) with
      | k :: _ => some k
      | [] => l.head? := by
  rw [Pkg.nextOf, ← List.head?_filter]
  generalize l.filter _ = m
  cases m <;> rfl

/-- R167, R340: a command of class 3 is taken at an arbitration point. -/
theorem Pkg.pointFor_cmd (hc : p.cmds.find k = some c) : p.pointFor (some k) = if c.prio = 3 ∧ p.ftc.now % 8 ≠ 0 then p.arbitrate else p := by
  simp only [Pkg.pointFor, Option.bind_some, hc, Bool.and_eq_true, decide_eq_true_eq]

/-- R210: the lowest free engine takes the next command that waits. -/
theorem Pkg.engineStart_free (hbusy : ∀ j, j < e → ((p.die n).engs.find j).isSome) (hfree : (p.die n).engs.find e = none) (he : e < 8) :
    p.engineStart n =
      let q := p.pointFor (p.nextOf (p.die n).engq)
      match q.nextOf (q.die n).engq with
      | none => q
      | some k =>
        (((q.updDie n (fun d => { d with engs := d.engs.set e k, engq := d.engq.filter (fun x => !(x = k)),
                                         engParked := d.engParked.filter (fun x => !(x = e)) })).useGrants (.engine (n * 8 + e))).taken k) := by
  have hfirst : (List.range 8).find? (fun e => ((p.die n).engs.find e).isNone) = some e :=
    range_find?_first e 8 _ (fun j hj => by simp [Option.isNone_eq_false_iff.mpr (hbusy j hj)]) (by rw [hfree]; rfl) he
  simp only [Pkg.engineStart, hfirst] <;> rfl

/-- R205: what was granted and is used changes dies alone. -/
theorem Pkg.useGrantsBy_ftc (p : Pkg) (mine : Requester → Bool) : (p.useGrantsBy mine).ftc = p.ftc := by
  refine foldl_inv (P := fun q : Pkg => q.ftc = p.ftc) (fun q n hq => ?_) _ rfl
  dsimp only
  split <;> exact hq

/-! What the engines' commands are, on their engine and with spaces that are not reserved. -/

theorem Pkg.ringCopy_on (ecc : Ecc) (hc : p.cmds.find k = some c) (he : p.engineOn c k = some e) (hs : c.badSpace = false) (ht : c.ty = 3) :
    p.ringCopy k ecc =
      match p.fab.reads.find? (fun r => r.cmd = k && r.data.isSome) with
      | some r => p.commitRead k r
      | none => if c.xfer.total ≤ c.prog then p.engineDone k else p.moveSegment c k e (c.xfer.src + c.row * c.xfer.srcStride) ecc := by
  simp only [Pkg.ringCopy, hc, he, hs, ht, ne_eq, not_true, if_false, Bool.false_eq_true] <;> rfl

/-- R193: the next segment of a row: of zeros where its index is the sentinel. -/
theorem Pkg.gatherRow_eq (p : Pkg) (c : Cmd) (k e : Nat) (ecc : Ecc) :
    p.gatherRow c k e ecc = if c.f 29 1 / 8 % 2 = 1 ∧ c.idx = 2 ^ (8 * c.idxLen) - 1 then p.zeroSegment c k e
      else p.moveSegment c k e ((c.xfer.src + c.idx * c.xfer.srcStride) % 2 ^ 48) ecc := by
  simp only [Pkg.gatherRow, Cmd.isSent, Bool.and_eq_true, decide_eq_true_eq]

/-- R192, R193, R378: a GATHER: its end, a row in progress, or the index of the next row, read as `r`. -/
theorem Pkg.engineGather_on {r : Pkg × Pull} (ecc : Ecc) (hc : p.cmds.find k = some c) (he : p.engineOn c k = some e) (hs : c.badSpace = false)
    (ht : c.ty = 4) (hd : c.xfer.dstSp ≠ 2) (hm : c.f 29 1 % 2 = 1)
    (hr : p.pull c.engDie (.engine (c.engDie * 8 + e)) 2 c.tag c.idxAt c.idxLen c.ids ecc = r) :
    p.engineGather k ecc =
      if c.xfer.total ≤ c.prog then p.engineDone k
      else if c.col ≠ 0 then p.gatherRow c k e ecc
      else
        match r.2 with
        | .parked => r.1.parkEngine c.engDie e
        | .bad cause _ => r.1.engineAbort k (if cause = 2 && ecc ≠ .crc then 1 else cause) c.row c.idxAt
        | .data bs =>
          if (!c.isSent (ofBytes bs) && c.f 60 4 ≠ 0 && c.f 60 4 ≤ ofBytes bs) = true then r.1.engineAbort k 3 c.row c.idxAt
          else (r.1.updCmd k (fun c => { c with idx := ofBytes bs })).gatherRow { c with idx := ofBytes bs } k e .keep := by
  have hbad : (c.badSpace || decide (c.xfer.dstSp = 2) || decide (c.f 29 1 % 2 = 0)) = false := by simp [hs, hd, hm]
  simp only [Pkg.engineGather, hc, he, ht, hbad, ne_eq, not_true, if_false, Bool.false_eq_true, hr]
  obtain ⟨q, got⟩ := r
  cases got <;> rfl

/-- R433: a DUMP that was not armed. -/
theorem Pkg.dump_unarmed (ecc : Ecc) (hc : p.cmds.find k = some c) (ht : c.ty = 10) (hf : c.firedAs 10 = true) :
    p.dump k ecc = ((p.bumpWrap aDump fOBS_DUMP_STATUS_SKIPPED).traceCmd c 11 1 (2 ^ 32 * c.f 32 4 + c.f 36 4)).finish k 0 0 0 := by
  simp only [Pkg.dump, hc, ht, hf, ne_eq, not_true, if_false, if_true]

/-- R434: a DUMP in progress. -/
theorem Pkg.dump_on (ecc : Ecc) (hc : p.cmds.find k = some c) (he : p.engineOn c k = some e) (hs : c.badSpace = false) (ht : c.ty = 10)
    (hf : c.firedAs 10 = false) (hg : 0 < c.prog) :
    p.dump k ecc = if c.xfer.total ≤ c.prog then p.engineDone k ecc
      else p.moveSegment c k e (c.xfer.src + c.row * c.xfer.srcStride) ecc := by
  simp only [Pkg.dump, hc, he, hs, ht, hf, ne_eq, not_true, if_false, Bool.false_eq_true, Nat.ne_of_gt hg]

/-! Segments. -/

/-- R232: a segment of local memory for local memory. -/
theorem Pkg.moveSegment_local {q : Pkg} {a b from' len : Nat} {bs : List Byte} {ecc : Ecc}
    (hlen : len = min (c.xfer.rowBytes - c.col) (256 - (from' + c.col) % 256)) (hsrc : p.space c.xfer.srcSp (from' + c.col) = .local' a)
    (hdst : p.space c.xfer.dstSp (c.xfer.dst + c.row * c.xfer.dstStride + c.col) = .local' b) (ha : p.wayBad c.engDie a = false)
    (hb : p.wayBad c.engDie b = false)
    (hroom : p.outstanding (.engine (c.engDie * 8 + e)) + (piecesOf a len).length + (piecesOf b len).length ≤ 512)
    (hr : p.pull c.engDie (.engine (c.engDie * 8 + e)) 2 c.tag a len c.ids ecc (piecesOf b len) ((p.homeDie b).getD c.engDie) = (q, .data bs)) :
    p.moveSegment c k e from' ecc = ((((q.sendWay c.engDie b bs.length c.ids).write b bs c.ids c.tag).updCmd k
      (fun c => { c with prog := c.prog + len, crc := bs.foldl crc32cByte c.crc })).progress c.job).engineDone k := by
  simp only [Pkg.moveSegment, ← hlen, hsrc, hdst, Pkg.spaceBad, Space.writes, Pkg.spaceDie, ha, hb, hr, Bool.false_or, Bool.false_and,
    Bool.or_self, Bool.false_eq_true, if_false, decide_eq_true_eq, Pkg.push]
  rw [if_neg (Nat.not_lt.mpr hroom)]

/-- R193: a segment of zeros for local memory. -/
theorem Pkg.zeroSegment_local {b : Nat} (hdst : p.space c.xfer.dstSp (c.xfer.dst + c.row * c.xfer.dstStride + c.col) = .local' b) :
    let len := min (c.xfer.rowBytes - c.col) 256
    let w : Requester := .engine (c.engDie * 8 + e)
    let r := p.askAll w [] (piecesOf b len)
    p.outstanding w + (piecesOf b len).length ≤ 512 →
    p.zeroSegment c k e =
      if p.wayBad c.engDie b = true then p.engineAbort k 4 c.row b
      else if r.2 = false then r.1.parkEngine c.engDie e
      else ((((r.1.sendWay c.engDie b len c.ids).write b (List.replicate len 0#8) c.ids c.tag).updCmd k
        (fun c => { c with prog := c.prog + len })).progress c.job).engineDone k := by
  intro len w r hroom
  have hfits : ¬ 512 < p.outstanding w + (piecesOf b len).length := Nat.not_lt.mpr hroom
  simp only [Pkg.zeroSegment, hdst, Pkg.spaceBad, Space.writes, Bool.false_or, Bool.false_and, decide_eq_true_eq, Pkg.push, List.length_replicate,
    Bool.not_eq_true']
  rw [if_neg hfits]

end

/-- Settles O34: each command by what it finds on its engine. -/
theorem engineCommandsRun : Obligations.EngineCommandsRun := by
  intro s hp p
  refine ⟨fun n e hbusy hfree he => ?_, fun k c hc => Pkg.pointFor_cmd hc, fun l => p.nextOf_eq l, fun k c e ecc hc he hs => ?_,
    fun k c ecc hc ht hf => State.inPower_runsTo (f := fun p => p.dump k ecc) hp rfl (Pkg.dump_unarmed ecc hc ht hf)⟩
  · intro q
    have start := Pkg.engineStart_free hbusy hfree he
    have runs {d : Pkg} (hd : p.engineStart n = d) : RunsTo (.engineStart n) s d := State.inPower_runsTo (f := fun p => p.engineStart n) hp rfl hd
    refine ⟨fun hn => runs ?_, fun k hn => runs ?_⟩
    · rw [start]
      dsimp only
      rw [show (p.pointFor _).nextOf _ = none from hn]
    · rw [start]
      dsimp only
      rw [show (p.pointFor _).nextOf _ = some k from hn]
      exact congrArg (fun t => (Pkg.useGrants _ _).updCmd k (fun c => { c with stage := .running, began := t.now })) (Pkg.useGrantsBy_ftc _ _)
  · intro x n w came
    have copies {d : Pkg} (hd : p.ringCopy k ecc = d) : RunsTo (.ringCopy k ecc) s d :=
      State.inPower_runsTo (f := fun p => p.ringCopy k ecc) hp rfl hd
    have gathers {d : Pkg} (hd : p.engineGather k ecc = d) : RunsTo (.engineGather k ecc) s d :=
      State.inPower_runsTo (f := fun p => p.engineGather k ecc) hp rfl hd
    have dumps {d : Pkg} (hd : p.dump k ecc = d) : RunsTo (.dump k ecc) s d := State.inPower_runsTo (f := fun p => p.dump k ecc) hp rfl hd
    refine ⟨fun ht => ?_, fun ht hd hm => ?_, fun ht hf hg => ?_, fun q a b bs from' hsrc hdst ha hb => ?_, fun q b hdst => ?_⟩
    · have copy := Pkg.ringCopy_on ecc hc he hs ht
      refine ⟨fun r hr => copies ?_, fun hr hend => copies ?_, fun hr hmore => copies ?_⟩
      · rw [copy, show List.find? _ _ = some r from hr]
      · rw [copy, show List.find? _ _ = none from hr]
        exact if_pos hend
      · rw [copy, show List.find? _ _ = none from hr]
        exact if_neg (Nat.not_le.mpr hmore)
    · intro row at' r
      have gather := Pkg.engineGather_on (r := r) ecc hc he hs ht hd hm rfl
      refine ⟨fun hend => gathers ?_, fun hmore hcol => gathers ?_, fun hmore hcol =>
        ⟨fun hr => gathers ?_, fun cause b hr => gathers ?_, fun bs hr => ?_⟩⟩
      · rw [gather, if_pos hend]
      · rw [gather, if_neg (Nat.not_le.mpr hmore), if_pos hcol]
        exact p.gatherRow_eq c k e ecc
      · rw [gather, if_neg (Nat.not_le.mpr hmore), if_neg (fun h => h hcol), hr]
      · rw [gather, if_neg (Nat.not_le.mpr hmore), if_neg (fun h => h hcol), hr]
        rfl
      · intro i sent
        have indexed := gather
        rw [if_neg (Nat.not_le.mpr hmore), if_neg (fun h => h hcol), hr] at indexed
        have hsent : c.isSent i = true ↔ sent := by simp only [Cmd.isSent, Bool.and_eq_true, decide_eq_true_eq]; rfl
        refine ⟨fun hn h0 hi => gathers (indexed.trans (if_pos ?_)), fun hin => gathers (indexed.trans ((if_neg ?_).trans ?_))⟩
        · simp only [Bool.and_eq_true, Bool.not_eq_true', decide_eq_true_eq]
          exact ⟨⟨Bool.eq_false_iff.mpr (fun h => hn (hsent.mp h)), h0⟩, hi⟩
        · simp only [Bool.and_eq_true, Bool.not_eq_true', decide_eq_true_eq]
          rintro ⟨⟨hs, h0⟩, hi⟩
          rcases hin with h | h | h
          · exact Bool.false_ne_true (hs.symm.trans (hsent.mpr h))
          · exact h0 h
          · exact Nat.not_le.mpr h hi
        · exact Pkg.gatherRow_eq _ _ k e .keep
    · have dump := Pkg.dump_on ecc hc he hs ht hf hg
      exact ⟨fun hend => dumps (dump.trans (if_pos hend)), fun hmore => dumps (dump.trans (if_neg (Nat.not_le.mpr hmore)))⟩
    · intro len r hroom hr
      exact Pkg.moveSegment_local (q := r.1) rfl hsrc hdst ha hb hroom (Prod.ext rfl hr)
    · intro len r hroom
      have zeros := Pkg.zeroSegment_local hdst hroom (k := k)
      refine ⟨fun hb => zeros.trans (if_pos hb), fun hb hr => ?_, fun hb hr => ?_⟩
      · exact zeros.trans ((if_neg (ne_true_of_eq_false hb)).trans (if_pos hr))
      · exact zeros.trans ((if_neg (ne_true_of_eq_false hb)).trans (if_neg (ne_false_of_eq_true hr)))

end Sys2Proof.Machine
end

section
/-! PROOFS. The scrub engine: FILL and SCRUB (R220, R221, R227 to R229). -/
namespace Sys2Proof.Machine

section
variable {p : Pkg} {k n : Nat} {c : Cmd}

/-- R220, R221: a FILL on its engine: up to 16 lines, unless the tracker refuses one of them. -/
theorem Pkg.fillCmd_on (hc : p.cmds.find k = some c) (hf : c.fin = none) (ho : p.owner (c.f 32 8) = some n)
    (hon : (p.scrubTake n k).scrubOn n k = true) (ht : c.ty = 5) :
    p.fillCmd k =
      let ls := c.nextLines
      let q := (p.scrubTake n k).askAll (.scrub n) [] (ls.map (fun l => (l, 64))) .read .fill
      let r := ((ls.foldl (Pkg.fillOne n (toBytes 8 (c.f 48 8)) c.ids) q.1).progress c.job).updCmd k (fun c => { c with prog := c.prog + ls.length })
      if q.2 = false then q.1.parkScrub n
      else if c.f 40 8 / 64 ≤ c.prog + ls.length then (r.dropCmd k).finish k 0 0 0 else r := by
  simp only [Pkg.fillCmd, hc, ho, ht, hf, hon, ne_eq, not_true, decide_false, Bool.not_true, Bool.or_self, Bool.false_eq_true, if_false,
    Bool.not_eq_true']

/-- R228: a SCRUB on its engine with lines left. -/
theorem Pkg.scrubCmd_lines (ecc : Ecc) (hc : p.cmds.find k = some c) (hf : c.fin = none) (ho : p.owner (c.f 32 8) = some n)
    (hon : (p.scrubTake n k).scrubOn n k = true) (ht : c.ty = 6) (hmore : c.prog < c.f 40 8 / 64) :
    p.scrubCmd k ecc =
      let ls := c.nextLines
      let q := ((p.scrubTake n k).meets ecc).askAll (.scrub n) (ls.map (fun l => (l, 64))) [] .stored
      if q.2 = false then q.1.parkScrub n
      else ((ls.foldl (Pkg.scrubOne n k (c.f 28 1 % 2 = 1) c.ids) q.1).progress c.job).updCmd k (fun c => { c with prog := c.prog + ls.length }) := by
  simp only [Pkg.scrubCmd, hc, ho, ht, hf, hon, hmore, ne_eq, not_true, decide_false, Bool.not_true, Bool.or_self, Bool.false_eq_true, if_false,
    if_true, Bool.not_eq_true']

/-- R229: one whose lines are all decoded puts its summary out. -/
theorem Pkg.scrubCmd_summary (ecc : Ecc) (hc : p.cmds.find k = some c) (hf : c.fin = none) (ho : p.owner (c.f 32 8) = some n)
    (hon : (p.scrubTake n k).scrubOn n k = true) (ht : c.ty = 6) (hend : c.f 40 8 / 64 ≤ c.prog) (ha : (p.scrubTake n k).awaits k = false) :
    p.scrubCmd k ecc = (p.scrubTake n k).putSummary n c k ecc := by
  simp only [Pkg.scrubCmd, hc, ho, ht, hf, hon, ha, Nat.not_lt.mpr hend, ne_eq, not_true, decide_false, Bool.not_true, Bool.or_self,
    Bool.false_eq_true, if_false]

/-- R229, R232: a summary for local memory. -/
theorem Pkg.putSummary_local {a : Nat} (ecc : Ecc) (hs : p.space (c.f 29 1) (c.f 48 8) = .local' a) :
    p.putSummary n c k ecc =
      let q := (p.meets ecc).askAll (.scrub n) [] (piecesOf a 128)
      if q.2 = false then q.1.parkScrub n
      else if ecc = .crc ∨ ecc = .parity then q.1.datapath ((p.homeDie a).getD n) 0
      else ((((q.1.sendWay n a c.summary.length c.ids).write a c.summary c.ids c.tag).progress c.job).dropCmd k).finish k 0 0 0 := by
  simp only [Pkg.putSummary, hs, Space.writes, Pkg.spaceDie, Pkg.push, Bool.false_and, Bool.false_eq_true, if_false, Bool.not_eq_true',
    Bool.or_eq_true, decide_eq_true_eq]

/-- R229, R357: one for the host's memory, which waits for the host link. -/
theorem Pkg.putSummary_host {a : Nat} (ecc : Ecc) (hs : p.space (c.f 29 1) (c.f 48 8) = .host a) :
    p.putSummary n c k ecc =
      if p.hostMem = false then p
      else
        let q := (p.meets ecc).askAll (.scrub n) [] []
        if q.2 = false then q.1.parkScrub n
        else if ecc = .crc ∨ ecc = .parity then q.1.datapath n 0
        else ((((q.1.hostWrite a c.summary).headSend n c.summary.length c.ids).progress c.job).dropCmd k).finish k 0 0 0 := by
  simp only [Pkg.putSummary, hs, Space.writes, Pkg.spaceDie, Pkg.push, Bool.true_and, Bool.not_eq_true', Bool.or_eq_true, decide_eq_true_eq]

end

/-- R221: a line that is filled reads as its pattern, eight times. -/
theorem Pkg.fillOne_mem (n : Nat) {pat : List Byte} (hp : pat.length = 8) (ids : Ids) (p : Pkg) (line : Nat) :
    (Pkg.fillOne n pat ids p line).mem.readN line 64 = pat ++ pat ++ pat ++ pat ++ pat ++ pat ++ pat ++ pat := by
  have hlen : (pat ++ pat ++ pat ++ pat ++ pat ++ pat ++ pat ++ pat).length = 64 := by simp only [List.length_append, hp]
  have hmem : (Pkg.fillOne n pat ids p line).mem =
      ((p.touch n line true).countHit n line).mem.write line (pat ++ pat ++ pat ++ pat ++ pat ++ pat ++ pat ++ pat) := by
    simp only [Pkg.fillOne]
    split <;> rfl
  rw [hmem, ← hlen]
  exact Mem.readN_write _ line _

/-- Settles O35. -/
theorem scrubEngineRuns : Obligations.ScrubEngineRuns := by
  intro s k n c ecc hp hc hf ho hon p ls pat
  have fills {d : Pkg} (hd : s.pkg.fillCmd k = d) : RunsTo (.fill k) s d := State.inPower_runsTo (f := fun p => p.fillCmd k) hp rfl hd
  have scrubs {d : Pkg} (hd : s.pkg.scrubCmd k ecc = d) : RunsTo (.scrub k ecc) s d :=
    State.inPower_runsTo (f := fun p => p.scrubCmd k ecc) hp rfl hd
  refine ⟨fun ht => ?_, fun ht hmore => ?_, fun ht hend ha a hs => ?_, fun ht hend ha a hs => ?_, rfl,
    fun p line => Pkg.fillOne_mem n (toBytes_length 8 _) c.ids p line⟩
  · intro q r
    have fill := Pkg.fillCmd_on hc hf ho hon ht
    refine ⟨fun hq => fills (fill.trans (if_pos hq)), fun hq hl => fills ?_, fun hq hl => fills ?_⟩
    · exact fill.trans ((if_neg (ne_false_of_eq_true hq)).trans (if_neg (Nat.not_le.mpr hl)))
    · exact fill.trans ((if_neg (ne_false_of_eq_true hq)).trans (if_pos hl))
  · intro q
    have scrub := Pkg.scrubCmd_lines ecc hc hf ho hon ht hmore
    exact ⟨fun hq => scrubs (scrub.trans (if_pos hq)), fun hq => scrubs (scrub.trans (if_neg (ne_false_of_eq_true hq)))⟩
  · intro q
    have sum := (Pkg.scrubCmd_summary ecc hc hf ho hon ht hend ha).trans (Pkg.putSummary_local ecc hs)
    refine ⟨fun hq => scrubs (sum.trans (if_pos hq)), fun hq he => scrubs ?_, fun hq h1 h2 => scrubs ?_⟩
    · exact sum.trans ((if_neg (ne_false_of_eq_true hq)).trans (if_pos he))
    · exact sum.trans ((if_neg (ne_false_of_eq_true hq)).trans (if_neg (not_or.mpr ⟨h1, h2⟩)))
  · intro q
    have sum := (Pkg.scrubCmd_summary ecc hc hf ho hon ht hend ha).trans (Pkg.putSummary_host ecc hs)
    refine ⟨fun hh => scrubs (sum.trans (if_pos hh)), fun hh hq h1 h2 => scrubs ?_⟩
    exact sum.trans ((if_neg (ne_false_of_eq_true hh)).trans ((if_neg (ne_false_of_eq_true hq)).trans (if_neg (not_or.mpr ⟨h1, h2⟩))))

end Sys2Proof.Machine
end

section
/-! PROOFS. Collectives: a stream's start, its steps, its end (R266 to R280, R285, R286). -/
namespace Sys2Proof.Machine

/-! The start of a stream (R267 to R269). -/

section
variable {p : Pkg} {n i k : Nat} {c : Cmd}

/-- R267, R340: the next collective takes a free stream. -/
theorem Pkg.streamStart_next (ecc : Ecc) (hidle : ∀ x ∈ (p.die n).streams, x.2.members ≠ [] ∨ x.2.parked = true)
    (hk : (p.pointFor (p.firstColl n)).nextColl n = some k)
    (hbusy : ∀ j, j < i → (((p.pointFor (p.firstColl n)).die n).streams.find j).isSome)
    (hfree : ((p.pointFor (p.firstColl n)).die n).streams.find i = none) (hi : i < 16)
    (hc : (p.pointFor (p.firstColl n)).cmds.find k = some c) :
    p.streamStart n ecc =
      ((((p.pointFor (p.firstColl n)).updDie n (fun d => { d with collq := d.collq.filter (fun x => !(x = k)),
                                                                  streams := d.streams.set i (Stream.start k 0 [] []) })).useGrants
        (streamReq n i)).taken k).streamBegin n i k c ecc := by
  have hnone : (p.die n).streams.find? (fun x => x.2.members.isEmpty && !x.2.parked) = none := by
    rw [List.find?_eq_none]
    intro x hx
    rcases hidle x hx with h | h <;> simp [h]
  have hfirst : (List.range 16).find? (fun i => (((p.pointFor (p.firstColl n)).die n).streams.find i).isNone) = some i :=
    range_find?_first i 16 _ (fun j hj => by simp [Option.isNone_eq_false_iff.mpr (hbusy j hj)]) (by rw [hfree]; rfl) hi
  simp only [Pkg.streamStart, hnone, hk, hfirst, hc]

/-- R487: a stream that waited for its group goes on. -/
theorem Pkg.streamStart_waiting {t : Stream} (ecc : Ecc)
    (ht : (p.die n).streams.find? (fun x => x.2.members.isEmpty && !x.2.parked) = some (i, t)) (hc : p.cmds.find t.cmd = some c) :
    p.streamStart n ecc = p.streamBegin n i t.cmd c ecc := by
  simp only [Pkg.streamStart, ht, hc]

/-- R268, R269: what the beginning of a collective is, by its group as it is read. -/
theorem Pkg.streamBegin_eq {g : Pkg × Except Bool (List Nat)} (ecc : Ecc)
    (hg : p.groupOf n (streamReq n i) c (p.rd64 aGroupBase % 2 ^ 48) c.collGroup ecc = g) :
    p.streamBegin n i k c ecc =
      match g.2 with
      | .error true => g.1.parkStream n i
      | .error false => g.1.haltStream n i k 1 0xFFFF 0xFFFFFFFF []
      | .ok ms =>
        match ms.findIdx? (fun m => m % 2 ^ 17 = memberEntry g.1.coord n) with
        | none => (g.1.dropCmd k).malformed k
        | some rank =>
          if c.collOp = 3 then (g.1.dropCmd k).malformed k
          else
            let mine := (g.1.die n).ready.filter (fun r => c.isTriple r.epoch r.group r.cid)
            let h := g.1.updDie n (fun d => { d with ready := d.ready.filter (fun r => !c.isTriple r.epoch r.group r.cid),
                                                     hung := d.hung.filter (fun h => !c.isTriple h.1 h.2.1 h.2.2) })
            match mine.findSome? ReadyRec.halted with
            | some x => h.haltStream n i k 4 x.1 x.2 ms
            | none =>
              ((h.updDie n (fun d => { d with streams := d.streams.set i (Stream.start k rank ms
                (mine.filterMap (fun r => ms.findIdx? (fun m => m % 2 ^ 17 = r.rank)))) })).updCmd k
                (fun c => { c with prog := ms.length })).sendReady n i c rank ms := by
  simp only [Pkg.streamBegin, hg]
  obtain ⟨q, r⟩ := g
  rcases r with (_ | _) | ms <;> rfl

end

/-! A stream's steps (R272 to R280). -/

section
variable {p : Pkg} {n i : Nat} {t : Stream} {c : Cmd} (ecc : Ecc)

/-- R272 to R274: the next step of the reduce part: blocks to be agreed first, codes, contributions. -/
theorem Pkg.reduceStep_agree (h : t.allReady = true ∧ t.due ≠ []) : p.reduceStep n i t c ecc = some (p.tryAgree n i) := by
  have hb : (t.allReady && !t.due.isEmpty) = true := by simp [h.1, h.2]
  simp only [Pkg.reduceStep, hb, if_true]

theorem Pkg.reduceStep_rest (h : ¬ (t.allReady = true ∧ t.due ≠ [])) : p.reduceStep n i t c ecc =
    match t.nextCodes c with
    | some (r, w) => some (p.sendCodes n i t c r w ecc)
    | none => match t.nextContrib with
      | some (r, b, code) => some (p.contribute n i t c r b code ecc)
      | none => none := by
  have hb : (t.allReady && !t.due.isEmpty) = false := by
    rw [Bool.eq_false_iff]
    intro hb
    simp only [Bool.and_eq_true, Bool.not_eq_true', List.isEmpty_eq_false_iff] at hb
    exact h hb
  simp only [Pkg.reduceStep, hb, Bool.false_eq_true, if_false] <;> rfl

theorem Pkg.reduceStep_codes {r w : Nat} (h : ¬ (t.allReady = true ∧ t.due ≠ [])) (hc : t.nextCodes c = some (r, w)) :
    p.reduceStep n i t c ecc = some (p.sendCodes n i t c r w ecc) := by
  rw [Pkg.reduceStep_rest ecc h, hc]

theorem Pkg.reduceStep_contribute {r b code : Nat} (h : ¬ (t.allReady = true ∧ t.due ≠ [])) (hc : t.nextCodes c = none)
    (hn : t.nextContrib = some (r, b, code)) : p.reduceStep n i t c ecc = some (p.contribute n i t c r b code ecc) := by
  rw [Pkg.reduceStep_rest ecc h, hc, hn]

theorem Pkg.reduceStep_none (h : ¬ (t.allReady = true ∧ t.due ≠ [])) (hc : t.nextCodes c = none) (hn : t.nextContrib = none) :
    p.reduceStep n i t c ecc = none := by
  rw [Pkg.reduceStep_rest ecc h, hc, hn]

/-- R285: the end of a reduction. -/
def Pkg.reduceEnd (p : Pkg) (t : Stream) : Pkg := if t.nonfin = 0 then p.streamEnd t.cmd 0 0 0 else p.streamEnd t.cmd 4 t.nonfin 0

variable (hs : p.streamCmd n i = some (t, c)) (hp : t.parked = false)
include hs hp

/-- R272 to R277: REDUCE. -/
theorem Pkg.reduce_eq (ho : c.collOp = 0) (hr : c.ranked = false) : p.reduce n i ecc =
    match p.reduceStep n i t c ecc with
    | some q => q
    | none => if t.reduced c = true then p.reduceEnd t else p := by
  simp only [Pkg.reduce, hs, hp, ho, hr, ne_eq, not_true, decide_false, Bool.or_self, Bool.false_eq_true, if_false, Pkg.reduceEnd] <;> rfl

/-- R278: RANK_ORDERED_REDUCE. -/
theorem Pkg.rankReduce_eq (hr : c.ranked = true) : p.rankReduce n i ecc =
    match p.grantNext n i t c with
    | some q => q
    | none => match t.nextRank with
      | some r => p.sendRank n i t c r ecc
      | none => if t.commits = t.n ∧ t.ackd.length = t.n then p.streamEnd t.cmd 0 0 0 else Pkg.commitDue n i ecc t.n p := by
  simp only [Pkg.rankReduce, hs, hp, hr, Bool.not_true, Bool.or_self, Bool.false_eq_true, if_false, Bool.and_eq_true, decide_eq_true_eq] <;> rfl

/-- R280: ALL_GATHER. -/
theorem Pkg.allGather_eq (ho : c.collOp = 1) : p.allGather n i ecc =
    match p.gatherStep n i t c ecc with
    | some q => q
    | none => if t.gathered c = true then p.streamEnd t.cmd 0 0 0 else p := by
  simp only [Pkg.allGather, hs, hp, ho, ne_eq, not_true, decide_false, Bool.or_self, Bool.false_eq_true, if_false] <;> rfl

/-- R266: ALL_REDUCE reduces first. -/
theorem Pkg.allReduce_step {q : Pkg} (ho : c.collOp = 2) (h : p.reduceStep n i t c ecc = some q) : p.allReduce n i ecc = q := by
  simp only [Pkg.allReduce, hs, hp, ho, h, ne_eq, not_true, decide_false, Bool.or_self, Bool.false_eq_true, if_false]

/-- R266: it gathers once every own block is agreed and applied. -/
theorem Pkg.allReduce_gather (ho : c.collOp = 2) (h : p.reduceStep n i t c ecc = none) (hl : t.own.length = c.shardBlocks t.n t.rank)
    (hb : ∀ b ∈ t.own, b.2.agreed.isSome = true ∧ b.2.applied.length = t.n) : p.allReduce n i ecc =
      match p.gatherStep n i t c ecc with
      | some q => q
      | none => if (t.reduced c && t.gathered c) = true then p.reduceEnd t else p := by
  have hown : (decide (t.own.length = c.shardBlocks t.n t.rank) && t.own.all (fun b => b.2.agreed.isSome && b.2.applied.length = t.n)) = true := by
    simpa [hl] using fun a b hm => hb (a, b) hm
  simp only [Pkg.allReduce, hs, hp, ho, h, hown, ne_eq, not_true, decide_false, Bool.or_self, Bool.false_eq_true, if_false, if_true,
    Pkg.reduceEnd] <;> rfl

end

/-! Codes, contributions, adds. -/

theorem foldl_max_eq (l : List (Nat × Nat)) (a : Nat) :
    (∀ x ∈ l, x.2 ≤ l.foldl (fun a x => max a x.2) a) ∧ a ≤ l.foldl (fun a x => max a x.2) a ∧
      (l.foldl (fun a x => max a x.2) a = a ∨ ∃ x ∈ l, x.2 = l.foldl (fun a x => max a x.2) a) := by
  induction l generalizing a with
  | nil => exact ⟨fun x hx => absurd hx List.not_mem_nil, Nat.le_refl _, .inl rfl⟩
  | cons y l ih =>
    obtain ⟨hle, hstart, hval⟩ := ih (max a y.2)
    simp only [List.foldl_cons, List.mem_cons]
    refine ⟨fun x hx => ?_, by omega, ?_⟩
    · rcases hx with rfl | hx
      · omega
      · exact hle x hx
    · rcases hval with h | ⟨x, hx, h⟩
      · rcases Nat.le_total a y.2 with hay | hay
        · exact .inr ⟨y, .inl rfl, by omega⟩
        · exact .inl (by omega)
      · exact .inr ⟨x, .inr hx, h⟩

/-- R272: a block is agreed on the greatest of its codes. -/
theorem OwnBlock.code_greatest (b : OwnBlock) : (∀ x ∈ b.codes, x.2 ≤ b.code) ∧ (b.codes ≠ [] → ∃ x ∈ b.codes, x.2 = b.code) := by
  obtain ⟨hle, -, hval⟩ := foldl_max_eq b.codes 0
  refine ⟨hle, fun hne => ?_⟩
  rcases hval with h | h
  · obtain ⟨x, hx⟩ := List.exists_mem_of_ne_nil _ hne
    refine ⟨x, hx, ?_⟩
    have := hle x hx
    rw [OwnBlock.code, h]
    omega
  · exact h

/-- R272, step 6: a contribution in full to a block of another owner, by what the tracker and the source block answer. -/
theorem Pkg.contribute_full {p : Pkg} {n i r b code : Nat} {t : Stream} {c : Cmd} {x : Pkg × Bool} {y : Pkg × Except Nat (List FV)} (ecc : Ecc)
    (hcode : code ≠ 255) (hk : c.topk = 0) (hr : r ≠ t.rank) (hbad : p.memberBad n c (t.members.getD r 0) = false)
    (hx : (p.meets ecc).collAsk n i (c.blockReads t.n r b) [] = x) (hy : x.1.srcBlock n c t.n r b ecc.later = y) :
    p.contribute n i t c r b code ecc =
      if x.2 = false then x.1
      else
        match y.2 with
        | .error cause => y.1.haltOwn n i cause (c.srcIndex t.n r b)
        | .ok vs => (y.1.updStream n i (fun s => { s with sentC := blockKey r b :: s.sentC })).collFrame n c 0x13 (t.members.getD r 0) b 0
            (segsOf 0 ((c.quantized t.n t.rank (c.srcIndex t.n r b) code vs).flatMap (fun m => toBytes 6 (intCode 48 m)))) := by
  have hw : c.contribWrites t.n r b = [] := by simp only [Cmd.contribWrites, hk, if_true]
  simp only [Pkg.contribute, hw, hk, hbad, hx, hy, decide_eq_false hcode, decide_eq_false hr, Bool.false_and, Bool.and_false,
    Bool.false_eq_true, if_false, List.append_nil, Bool.not_eq_true', if_neg hcode, if_true]
  obtain ⟨q, cause | vs⟩ := y <;> rfl

section
variable {p q : Pkg} {n i r b : Nat} {t : Stream} {c : Cmd} {ms : List Int} {nonfin : Bool}

/-- R237: an add that the destination refuses halts the stream. -/
theorem Pkg.applyTo_refused (hx : p.adder n (c.blockDst b) ms nonfin c.tag c.ids = (q, false)) :
    p.applyTo n i t c r b ms nonfin = q.haltOwn n i 2 (c.srcIndex t.n t.rank b) := by
  unfold Pkg.applyTo
  rw [hx]

/-- R272: the add of another member's contribution is acknowledged to it. -/
theorem Pkg.applyTo_acked (hx : p.adder n (c.blockDst b) ms nonfin c.tag c.ids = (q, true)) (hr : r ≠ t.rank)
    (hbad : (q.updStream n i (fun s => { s with own := s.own.upd b ⟨[], none, []⟩ (fun o =>
      { o with applied := if o.applied.contains r then o.applied else r :: o.applied }) })).memberBad n c (t.members.getD r 0) = false) :
    p.applyTo n i t c r b ms nonfin = (q.updStream n i (fun s => { s with own := s.own.upd b ⟨[], none, []⟩ (fun o =>
      { o with applied := if o.applied.contains r then o.applied else r :: o.applied }) })).collFrame n c 0x15 (t.members.getD r 0) b 0
        (toBytes 4 b) := by
  unfold Pkg.applyTo
  rw [hx]
  exact (if_neg hr).trans (if_neg (ne_true_of_eq_false hbad))

end

/-! O36. -/

/-- Settles O36: a stream's start, by what is free and what its group reads as; its steps, each the first that is ready; its end. -/
theorem collectivesRun : Obligations.CollectivesRun := by
  unfold Obligations.CollectivesRun
  intro s n ecc hp p
  refine ⟨?_, ?_, ?_, ?_, OwnBlock.code_greatest, ?_, ?_⟩
  · intro k i c hidle q hk hbusy hfree hi hc
    exact State.inPower_runsTo (f := fun p => p.streamStart n ecc) hp rfl (Pkg.streamStart_next ecc hidle hk hbusy hfree hi hc)
  · intro i t c ht hc
    exact State.inPower_runsTo (f := fun p => p.streamStart n ecc) hp rfl (Pkg.streamStart_waiting ecc ht hc)
  · intro q i k c g
    have begins := q.streamBegin_eq (n := n) (i := i) (k := k) (c := c) (g := g) ecc rfl
    refine ⟨fun h => ?_, fun h => ?_, fun ms h hrank => ?_, fun ms rank h hrank ho => ?_⟩
    · rw [begins, h]
    · rw [begins, h]
    · rw [begins, h]
      simp only [hrank]
    · rw [h] at begins
      simp only [hrank, if_neg ho] at begins
      intro mine h
      refine ⟨fun x hx => ?_, fun hx => ?_⟩
      · rw [begins, hx]
      · rw [hx] at begins
        intro r
        exact ⟨fun hbad => begins.trans (if_pos hbad), fun hgood => begins.trans (if_neg (ne_true_of_eq_false hgood))⟩
  · intro i t c hs hw ended mayAgree
    have reduces {d} (hd : p.reduce n i ecc = d) : RunsTo (.reduce n i ecc) s d :=
      State.inPower_runsTo (f := fun p => p.reduce n i ecc) hp rfl hd
    have ranks {d} (hd : p.rankReduce n i ecc = d) : RunsTo (.rankOrderedReduce n i ecc) s d :=
      State.inPower_runsTo (f := fun p => p.rankReduce n i ecc) hp rfl hd
    have gathers {d} (hd : p.allGather n i ecc = d) : RunsTo (.allGather n i ecc) s d :=
      State.inPower_runsTo (f := fun p => p.allGather n i ecc) hp rfl hd
    have reducesAll {d} (hd : p.allReduce n i ecc = d) : RunsTo (.allReduce n i ecc) s d :=
      State.inPower_runsTo (f := fun p => p.allReduce n i ecc) hp rfl hd
    refine ⟨fun ho hr => ?_, fun hr => ?_, fun ho => ?_, fun ho => ?_⟩
    · have step := Pkg.reduce_eq ecc hs hw ho hr
      refine ⟨fun h => reduces ?_, fun r w h hc => reduces ?_, fun r b code h hc hn => reduces ?_, fun h hc hn hdone => reduces ?_⟩
      · rw [step, Pkg.reduceStep_agree ecc h]
      · rw [step, Pkg.reduceStep_codes ecc h hc]
      · rw [step, Pkg.reduceStep_contribute ecc h hc hn]
      · rw [step, Pkg.reduceStep_none ecc h hc hn]
        exact if_pos hdone
    · have step := Pkg.rankReduce_eq ecc hs hw hr
      refine ⟨fun q hq => ranks ?_, fun hq => ⟨fun r hn => ranks ?_, fun hn hd ha => ranks ?_, fun hn hd => ranks ?_⟩⟩
      · rw [step, hq]
      · rw [step, hq, hn]
      · rw [step, hq, hn]
        exact if_pos ⟨hd, ha⟩
      · rw [step, hq, hn]
        exact if_neg (fun h => by omega)
    · have step := Pkg.allGather_eq ecc hs hw ho
      refine ⟨fun q hq => gathers ?_, fun hq hd => gathers ?_⟩
      · rw [step, hq]
      · rw [step, hq]
        exact if_pos hd
    · refine ⟨fun h => reducesAll ?_, fun r w h hc => reducesAll ?_, fun r b code h hc hn => reducesAll ?_, fun h hc hn hl hb => ?_⟩
      · exact Pkg.allReduce_step ecc hs hw ho (Pkg.reduceStep_agree ecc h)
      · exact Pkg.allReduce_step ecc hs hw ho (Pkg.reduceStep_codes ecc h hc)
      · exact Pkg.allReduce_step ecc hs hw ho (Pkg.reduceStep_contribute ecc h hc hn)
      · have step := Pkg.allReduce_gather ecc hs hw ho (Pkg.reduceStep_none ecc h hc hn) hl hb
        refine ⟨fun q hq => reducesAll ?_, fun hq hr hg => reducesAll ?_⟩
        · rw [step, hq]
        · rw [step, hq]
          exact if_pos (by rw [hr, hg]; rfl)
  · intro q i t c r b code hcode hk hr hbad x y
    have contributes := q.contribute_full (x := x) (y := y) ecc hcode hk hr hbad rfl rfl
    refine ⟨fun hx => contributes.trans (if_pos hx), fun hx cause hy => ?_, fun hx vs hy => ?_⟩
    · rw [contributes, if_neg (ne_false_of_eq_true hx), hy]
    · rw [contributes, if_neg (ne_false_of_eq_true hx), hy]
  · intro q i t c r b ms nonfin x y
    exact ⟨fun hx => Pkg.applyTo_refused (Prod.ext rfl hx), fun hx hr hbad => Pkg.applyTo_acked (Prod.ext rfl hx) hr hbad⟩

end Sys2Proof.Machine
end

section
/-! PROOFS. Frames: their routes, their arrival, and the flood of ABORTs (R302 to R328). -/
namespace Sys2Proof.Machine

/-! O39: the next hop of a frame (R310, R311, R313). -/

section
variable {p : Pkg} {f : Frame} {from? : Option Nat}

theorem Pkg.nextHop_here_eq (h : p.route f.bank f.dst % 8 = 4) : p.nextHop f from? = if f.dst = p.coord then .ok none else .error 4 := by
  simp only [Pkg.nextHop, h, if_true]

theorem Pkg.nextHop_none (h : 5 ≤ p.route f.bank f.dst % 8) : p.nextHop f from? = .error 1 := by
  simp only [Pkg.nextHop, if_neg (show ¬ p.route f.bank f.dst % 8 = 4 by omega), h, if_true]

/-- R310: a route through one of the four ports. -/
theorem Pkg.nextHop_port (h : p.route f.bank f.dst % 8 < 4) : p.nextHop f from? =
    if f.hops ≤ 1 then .error 3
    else if p.open' (p.route f.bank f.dst % 8) = false then .error 2
    else .ok (some (p.route f.bank f.dst % 8, if p.route f.bank f.dst / 8 % 2 = 1 ||
      (f.vc = 1 && (match from? with | some q => decide (q / 2 = p.route f.bank f.dst % 8 / 2) | none => false)) then 1 else 0)) := by
  simp only [Pkg.nextHop, if_neg (show ¬ p.route f.bank f.dst % 8 = 4 by omega), if_neg (show ¬ 5 ≤ p.route f.bank f.dst % 8 by omega),
    Bool.not_eq_true'] <;> rfl

end

/-- R311: a virtual channel given by a flag. -/
theorem flagVc (b : Bool) : (if b then 1 else 0) ≤ 1 ∧ ((if b then 1 else 0) = 1 ↔ b = true) := by
  cases b <;> decide

/-- R311: whether a frame stays on virtual channel 1, by the dateline and by its dimension. -/
theorem stays_iff {from? : Option Nat} {port vc : Nat} {d : Prop} [Decidable d] :
    (decide d || (decide (vc = 1) && (match from? with | some q => decide (q / 2 = port / 2) | none => false))) = true ↔
      d ∨ (vc = 1 ∧ ∃ q, from? = some q ∧ q / 2 = port / 2) := by
  cases from? with
  | none => simp
  | some q => simp

/-- Settles O39: by the route's port, then by the hops left and the port's state; the virtual channel by the dateline and the dimension. -/
theorem framesRoute : Obligations.FramesRoute := by
  unfold Obligations.FramesRoute
  intro p f from? e port
  refine ⟨fun h hd => (Pkg.nextHop_here_eq h).trans (if_pos hd), fun h hd => (Pkg.nextHop_here_eq h).trans (if_neg hd), Pkg.nextHop_none,
    fun h hh => (Pkg.nextHop_port h).trans (if_pos hh), fun h hh ho => ?_, fun h hh ho => ?_⟩
  · rw [Pkg.nextHop_port h, if_neg (Nat.not_le.mpr hh)]
    exact if_pos ho
  · have hop := Pkg.nextHop_port (from? := from?) h
    rw [if_neg (Nat.not_le.mpr hh), if_neg (ne_false_of_eq_true ho)] at hop
    exact ⟨_, hop, (flagVc _).1, (flagVc _).2.trans stays_iff⟩

/-! O38: the arrival of a frame (R302, R305, R306, R313, R328). -/

/-- R203: a frame stands behind the requests that wait in its die's receive queue. -/
theorem Pkg.behind_iff (q : Pkg) (f : Frame) :
    q.behind f = true ↔ tcOf f.ty = 2 ∧ ∃ y ∈ q.fab.inbox, y.1 = 4 ∧ tcOf y.2.ty = 2 ∧ y.2.dstDie = f.dstDie := by
  simp only [Pkg.behind, Pkg.queueOf, Bool.and_eq_true, decide_eq_true_eq, Bool.not_eq_true', List.isEmpty_eq_false_iff, ne_eq,
    List.map_eq_nil_iff, List.filter_eq_nil_iff, Classical.not_forall, Classical.not_not, exists_prop, and_assoc]

theorem RunsTo.trans {i : Instr} {s : State} {p q : Pkg} (h : RunsTo i s p) (e : p = q) : RunsTo i s q := e ▸ h

section
variable {s : State} {port : Nat} {f : Frame}

/-- What a frame of a type that this package takes comes to, wherever it comes from. -/
theorem arrives_runs {i : Instr} {ty : Nat} {act : Pkg → Pkg} (hp : s.pkg.powered = true)
    (he : exec i s = s.inPower i (fun p => p.arrive port f ty act)) (hty : f.ty = ty) :
    let p := s.pkg
    let q := p.countRx port (flowGroup f (p.tport port).upGroups) f
    let stuck := (∃ y ∈ q.fab.inbox, y.1 = port ∧ sameVc y.2 f = true) ∨ q.mayLeave port f = false
    ((5 ≤ port → RunsTo i s (p.leaveInput (port - 5) f act)) ∧
      (port < 4 → p.open' port = false → RunsTo i s p) ∧
      (port < 4 → p.open' port = true →
        (stuck → RunsTo i s { q with fab := { q.fab with inbox := q.fab.inbox ++ [(port, f)] } }) ∧
        (¬ stuck → RunsTo i s (q.leaveInput port f act)))) ∧
    (port = 4 → p.fw.inReset = true → RunsTo i s p) ∧
    (port = 4 → p.fw.inReset = false → p.jobAborted f.job = true → RunsTo i s p.discard) ∧
    (port = 4 → p.fw.inReset = false → p.jobAborted f.job = false → RunsTo i s (act (if p.heard f then p.progress f.job else p))) := by
  intro p q stuck
  obtain ⟨hfree, hshut, hwire, hreset, hhere⟩ := arrive_runs hp he hty
  obtain ⟨hstays, hleaves⟩ := Pkg.fromWire_cases p port f act
  refine ⟨⟨hfree, hshut, fun h ho => ⟨fun hs => ?_, fun hs => ?_⟩⟩, hreset, fun h hr ha => ?_, fun h hr ha => ?_⟩
  · exact (hwire h ho).trans (hstays hs)
  · exact (hwire h ho).trans (hleaves hs)
  · have hd : p.accept f act = p.discard := if_pos ha
    exact (hhere h hr).trans hd
  · have hd : p.accept f act = act (if p.heard f then p.progress f.job else p) := if_neg (ne_true_of_eq_false ha)
    exact (hhere h hr).trans hd

end

/-- Settles O38: a frame is on a port, in an input buffer, or here; each command that takes a frame arrives alike. -/
theorem framesArrive : Obligations.FramesArrive := by
  unfold Obligations.FramesArrive
  intro s port f ecc hp p takes effect discarded queued arrives
  refine ⟨?_, fun hr => ?_, fun q i act => ?_, fun q => q.behind_iff f⟩
  · simp only [takes, List.forall_mem_cons, List.not_mem_nil, false_imp_iff, implies_true, and_true]
    refine ⟨?_, ?_, ?_, ?_, ?_, ?_, ?_, ?_, ?_, ?_, ?_, ?_, ?_, ?_, ?_, ?_, ?_, ?_, ?_⟩
    all_goals exact fun hty => arrives_runs hp rfl hty
  · obtain ⟨hfree, hshut, hwire⟩ := forward_runs (port := port) hp hr
    obtain ⟨hstays, hleaves⟩ := Pkg.fromWire_cases p port f (fun p => p.enqueue f)
    exact ⟨hfree, hshut, fun h ho => ⟨fun hs => (hwire h ho).trans (hstays hs), fun hs => (hwire h ho).trans (hleaves hs)⟩⟩
  · intro ours here
    obtain ⟨hours, hothers⟩ := q.leaveInput_cases i f act
    refine ⟨hours, fun ho => ?_⟩
    obtain ⟨hgoes, hlost, hends⟩ := hothers ho
    refine ⟨hgoes, hlost, fun hn => ?_⟩
    obtain ⟨hreset, hwaits, hacts⟩ := hends hn
    refine ⟨hreset, hwaits, fun hr hb ha => (hacts hr hb).trans ?_⟩
    exact if_neg (ne_true_of_eq_false ha)

/-! O42: ABORTs (R325 to R327). -/

section
variable {p : Pkg} {port : Nat} {f : Frame}

/-- R325, R326: an ABORT on an open port or in an input buffer. -/
theorem Pkg.abortFrame_eq (ht : f.ty = 0x20) (ho : port < 4 → p.open' port = true) :
    p.abortFrame port f =
      let q := if port < 4 then (p.countRx port (flowGroup f (p.tport port).upGroups) f).freeUnits port f f.vc
        else if port = 4 then p else p.freeUnits (port - 5) f f.vc
      let origin := f.aux % 2 ^ 14
      if f.hops = 0 || q.fab.keys.any (fun k => k.1 = f.job && k.2.1 = origin && k.2.2.1 = f.seq) then q
      else ((q.rememberKey f.job origin f.seq).flood f (some (if 5 ≤ port then port - 5 else port))).takeAbort f.job origin := by
  by_cases hw : port < 4
  · have hopen : (decide (f.ty ≠ 0x20) || (decide (port < 4) && !p.open' port)) = false := by simp [ht, ho hw]
    simp only [Pkg.abortFrame, hopen, Bool.false_eq_true, if_false, if_pos hw, if_neg (show ¬ port = 4 by omega), if_neg (show ¬ 5 ≤ port by omega)]
  · have hopen : (decide (f.ty ≠ 0x20) || (decide (port < 4) && !p.open' port)) = false := by simp [ht, hw]
    by_cases hh : port = 4
    · simp only [Pkg.abortFrame, hopen, Bool.false_eq_true, if_false, if_neg hw, if_pos hh]
    · simp only [Pkg.abortFrame, hopen, Bool.false_eq_true, if_false, if_neg hw, if_neg hh, if_pos (show 5 ≤ port by omega)]

theorem Pkg.abortFrame_shut (hw : port < 4) (ho : p.open' port = false) : p.abortFrame port f = p := by
  have hshut : (decide (f.ty ≠ 0x20) || (decide (port < 4) && !p.open' port)) = true := by simp [hw, ho]
  simp only [Pkg.abortFrame, hshut, if_true]

/-- R326: an ABORT goes out on the other open ports. -/
theorem Pkg.flood_eq (q : Pkg) (f : Frame) (from' : Nat) : q.flood f (some from') = (List.range 4).foldl (fun q i =>
    if i ≠ from' ∧ q.open' i = true then q.output i ⟨4, 0, { f with hops := f.hops - 1, vc := 0 }⟩ else q) q := by
  simp only [Pkg.flood, ne_eq, Option.some.injEq, Bool.and_eq_true, decide_eq_true_eq]

theorem Pkg.keyExpiry_first {k : Nat × Nat × Nat × Nat} {ks : List (Nat × Nat × Nat × Nat)} (h : p.fab.keys = k :: ks) :
    p.keyExpiry = { p.until (k.2.2.2 + 10000000) with fab := { (p.until (k.2.2.2 + 10000000)).fab with
      keys := removeFirst (fun x => x = k) (p.until (k.2.2.2 + 10000000)).fab.keys } } := by
  simp only [Pkg.keyExpiry, h]

theorem Pkg.keyExpiry_none (h : p.fab.keys = []) : p.keyExpiry = p := by
  simp only [Pkg.keyExpiry, h]

end

/-- Settles O42: an ABORT by whether its key is remembered or its hops are used up; the oldest key's expiry. -/
theorem abortsFlood : Obligations.AbortsFlood := by
  unfold Obligations.AbortsFlood
  intro s hp p
  refine ⟨fun port f ht => ?_, Pkg.flood_eq, fun job origin seq => rfl, fun entry o => ?_, fun k ks hk => ?_, fun hk => ?_⟩
  · intro q from' origin seen
    have runs {d} (hd : p.abortFrame port f = d) : RunsTo (.abort port f) s d :=
      State.inPower_runsTo (f := fun p => p.abortFrame port f) hp rfl hd
    exact ⟨fun hw ho => runs (Pkg.abortFrame_shut hw ho), fun ho hs => runs ((Pkg.abortFrame_eq ht ho).trans (if_pos hs)),
      fun ho hs => runs ((Pkg.abortFrame_eq ht ho).trans (if_neg (ne_true_of_eq_false hs)))⟩
  · exact State.inPower_runsTo (f := fun p => p.access (rFAB_ABORT.at 0 0 0) 4 (16 + entry % 16) o) hp rfl rfl
  · exact State.inPower_runsTo (f := fun p => p.keyExpiry) hp rfl (Pkg.keyExpiry_first hk)
  · exact State.inPower_runsTo (f := fun p => p.keyExpiry) hp rfl (Pkg.keyExpiry_none hk)

end Sys2Proof.Machine
end

section
/-! PROOFS. Milnik's events and answers (R459 to R466). -/
namespace Sys2Proof.Machine

section
variable {m : Milnik}

/-- R463, R464: a record is closed at its time, or at once where that has passed. -/
theorem Milnik.close_powered (hp : m.powered = true) (ok : Bool) :
    m.close ok =
      let t := max (60000 * ((m.mtime - m.spanMs) / 60000 + 1)) m.mtime
      let u := { m with mtime := t, us := 0 }
      let prev := if m.last.isEmpty then toBytes 48 0 else Config.sha384 m.last
      let r := milnikSigned (u.head 1 (m.seq + 1) (min (m.spanMs + (t - m.mtime)) 60000) ++ prev)
      { u with
        seq := m.seq + 1, spanMs := 0, gap := false, overrange := false, lineFault := 0, last := r
        flash := if ok then m.flash.set ((m.seq + 1) % 131072) r else m.flash, stored := if ok then r else m.stored
        flashFault := m.flashFault || !ok, flashNext := !ok, ram := ((m.seq + 1, r) :: m.ram).take 64 } :=
  if_neg (by rw [hp]; exact Bool.false_ne_true)

theorem Milnik.refresh_powered (hp : m.powered = true) :
    m.refresh = { m with liveGen := (m.liveGen + 2) % 2 ^ 32, live := m.head 1 (m.seq + 1) m.spanMs } :=
  if_neg (by rw [hp]; exact Bool.false_ne_true)

theorem Milnik.countLine_fault (hp : m.powered = true) (n : Nat) (counts : Tbl Nat) :
    m.countLine n counts true = { m with lineFault := m.lineFault ||| 2 ^ n } := by
  simp only [Milnik.countLine, hp, Bool.not_true, Bool.false_eq_true, if_false, if_true]

theorem Milnik.countLine_counts (hp : m.powered = true) (n : Nat) (counts : Tbl Nat) :
    m.countLine n counts false = { m with ops := counts.foldl (fun t e => t.upd e.1 0 (fun x => (x + e.2) % 2 ^ 128)) m.ops } := by
  simp only [Milnik.countLine, hp, Bool.not_true, Bool.false_eq_true, if_false]

/-- R460, R463: a sample, after the record whose time has come. -/
theorem Milnik.sample_powered (hp : m.powered = true) (vi : List (Nat × Nat)) :
    m.sample vi = (if 60000 * ((m.mtime - m.spanMs) / 60000 + 1) ≤ m.mtime then m.close true else m).sampleAll vi :=
  if_neg (by rw [hp]; exact Bool.false_ne_true)

/-- R460: one rail's energy. -/
theorem Milnik.sampleRail_present {r : Nat} (h : m.railPresent r = true) (mv ma : Nat) :
    m.sampleRail r (mv, ma) = { m with
      residue := m.residue.set r ((m.residue.getD r 0 + mv * ma) % 1000000)
      energy := m.energy.set r ((m.energy.getD r 0 + (m.residue.getD r 0 + mv * ma) / 1000000) % 2 ^ 64)
      overrange := m.overrange || (if r < 8 then 780000 else 48000) < ma } :=
  if_pos h

theorem Milnik.sampleRail_absent {r : Nat} (h : m.railPresent r = false) (mv ma : Nat) : m.sampleRail r (mv, ma) = m :=
  if_neg (ne_true_of_eq_false h)

/-- R463: a power-up starts from the record stored last. -/
theorem Milnik.powerUp_eq (h : m.powered = false) : m.powerUp = { m with
    powered := true, boots := (m.boots + 1) % 2 ^ 32, gap := true, spanMs := 0, us := 0, overrange := false, lineFault := 0
    flashFault := false, flashNext := false, ram := [], residue := [], seq := recordField m.stored 8 8, last := m.stored
    energy := (List.range 24).map (fun r => (r, recordField m.stored (64 + 8 * r) 8))
    ops := (List.range 16).map (fun i => (i, recordField m.stored (256 + 16 * i) 16)) } :=
  if_neg (ne_true_of_eq_false h)

/-! RECORD (R465). -/

theorem Milnik.recordOf_ram {seq : Nat} {e : Nat × List Byte} (h : m.ram.find? (fun e => e.1 = seq) = some e) : m.recordOf seq = e.2 := by
  simp only [Milnik.recordOf, h]

theorem Milnik.recordOf_flash {seq : Nat} {r : List Byte} (h : m.ram.find? (fun e => e.1 = seq) = none)
    (hr : m.flash.find (seq % 131072) = some r) : m.recordOf seq = if recordField r 8 8 = seq then r else [] := by
  simp only [Milnik.recordOf, h, hr]

theorem Milnik.recordOf_none {seq : Nat} (h : m.ram.find? (fun e => e.1 = seq) = none) (hr : m.flash.find (seq % 131072) = none) :
    m.recordOf seq = [] := by
  simp only [Milnik.recordOf, h, hr]

end

/-- An event of Milnik alone. -/
theorem State.meter_eq {s : State} {f : Milnik → Milnik} {m : Milnik} (h : f s.mtr = m) : s.meter f = .next { s with mtr := m } :=
  by
  subst h
  rfl

/-- An answer of Milnik's port. -/
theorem State.answer_eq {s : State} {f : Milnik → List Byte} {b : List Byte} (hp : s.mtr.powered = true) (h : f s.mtr = b) :
    s.answer f = .next { s with pkg := s.pkg.emit (.meter b) } :=
  h ▸ if_pos hp

theorem State.countingLine_present {s : State} {n : Nat} {m : Milnik} (framing : Bool) (hn : s.pkg.present n = true)
    (h : s.mtr.countLine n (s.pkg.die n).line framing = m) :
    s.countingLine n framing = .next { s with mtr := m, pkg := s.pkg.updDie n (fun d => { d with line := [] }) } :=
  h ▸ if_pos hn

/-- Settles O55: each event of Milnik by what it is on a meter with power; its port's answers; its power-up. -/
theorem meterActs : Obligations.MeterActs := by
  unfold Obligations.MeterActs
  intro s m
  refine ⟨fun hp => ⟨State.meter_eq rfl, fun ok => ?_, ?_, fun n hn => ?_, fun vi => ?_, fun r mv ma => ?_, ?_⟩, fun hp => ?_⟩
  · exact State.meter_eq (f := fun m => m.close ok) (Milnik.close_powered hp ok)
  · exact State.meter_eq (f := fun m => m.refresh) (Milnik.refresh_powered hp)
  · exact ⟨State.countingLine_present true hn (Milnik.countLine_fault hp n _), State.countingLine_present false hn (Milnik.countLine_counts hp n _)⟩
  · exact State.meter_eq (f := fun m => m.sample vi) (Milnik.sample_powered hp vi)
  · exact ⟨fun h => Milnik.sampleRail_present h mv ma, fun h => Milnik.sampleRail_absent h mv ma⟩
  · have answers {f : Milnik → List Byte} {b} (h : f m = b) := State.answer_eq (s := s) hp h
    exact ⟨answers (f := fun m => m.ident) rfl, fun off len => answers (f := fun _ => Milnik.cert off len) rfl,
      fun nonce => answers (f := fun m => m.quote nonce) rfl, fun seq e h => answers (f := fun m => m.recordOf seq) (Milnik.recordOf_ram h),
      fun seq r h hr => answers (f := fun m => m.recordOf seq) (Milnik.recordOf_flash h hr),
      fun seq h hr => answers (f := fun m => m.recordOf seq) (Milnik.recordOf_none h hr)⟩
  · exact State.meter_eq (f := fun m => m.powerUp) (Milnik.powerUp_eq hp)

end Sys2Proof.Machine
end

section
/-! PROOFS. The board's events (R471 to R484). -/
namespace Sys2Proof.Machine

/-! What a cold reset leaves (R475, R481, R482). -/

theorem Tbl.find_mapVals {α β : Type} (t : Tbl α) (f : α → β) (n : Nat) :
    Tbl.find (t.map (fun e => (e.1, f e.2))) n = (t.find n).map f := by
  induction t with
  | nil => rfl
  | cons e t ih =>
    obtain ⟨k, v⟩ := e
    simp only [List.map_cons, Tbl.find]
    split
    · rfl
    · exact ih

section
variable (p : Pkg) (b : Bool)

/-- R482: the registers stand at their reset values, but for MEM_LOST. -/
theorem Pkg.coldReset_rd {a : Nat} (h : a ≠ aReset) : (p.coldReset b).rd a = resetWord a := by
  have hregs : (p.coldReset b).regs = Tbl.set [] aReset (putFld (resetWord aReset) fHS_RESET_STATUS_MEM_LOST 1) := rfl
  rw [Pkg.rd, hregs, Tbl.getD, Tbl.find_set_ne _ _ (Ne.symm h)]
  rfl

theorem Pkg.coldReset_memLost : (p.coldReset b).fld aReset fHS_RESET_STATUS_MEM_LOST = 1 :=
  Pkg.fld_setFld _ aReset 1 fHS_RESET_STATUS_MEM_LOST (by decide)

/-- R475, R482: of a die its fuses stay, and its voltage starts anew. -/
def Die.cold (d : Die) : Die := { d.cleared with baseMv := 750, setMv := 750 }

theorem Pkg.coldReset_dies : (p.coldReset b).dies = p.dies.map (fun e => (e.1, e.2.cold)) :=
  List.map_map

theorem Pkg.coldReset_die (n : Nat) :
    ((p.coldReset b).die n).pegs = [] ∧ ((p.coldReset b).die n).bcache = [] ∧ ((p.coldReset b).die n).fused = (p.die n).fused := by
  simp only [Pkg.die, Tbl.getD, Pkg.coldReset_dies, Tbl.find_mapVals]
  cases p.dies.find n with
  | none => exact ⟨rfl, rfl, rfl⟩
  | some d => exact ⟨rfl, rfl, rfl⟩

end

/-! Bring-up, and the host port (R356, R480, R483). -/

/-- R356: the link trains at x16 or x8 and 64 or 32 GT/s, and stays down otherwise. -/
theorem HostPort.train_eq (h : HostPort) (speed width : Nat) : h.train speed width =
    { h with
      speed := if (speed = 1 ∨ speed = 2) ∧ (width = 8 ∨ width = 16) then speed else 0
      width := if (speed = 1 ∨ speed = 2) ∧ (width = 8 ∨ width = 16) then width else 0 } := by
  simp only [HostPort.train, Bool.and_eq_true, Bool.or_eq_true, decide_eq_true_eq]
  split <;> rfl

/-- R356: while CXL_PERST_N is low it does not train. -/
theorem HostPort.train_perst (h : HostPort) (perstN : Bool) (speed width : Nat) : h.train (if perstN then speed else 0) width =
    { h with
      speed := if perstN = true ∧ (speed = 1 ∨ speed = 2) ∧ (width = 8 ∨ width = 16) then speed else 0
      width := if perstN = true ∧ (speed = 1 ∨ speed = 2) ∧ (width = 8 ∨ width = 16) then width else 0 } := by
  rw [HostPort.train_eq]
  cases perstN <;> simp

section
variable {p : Pkg} {o : BringUp}

/-- R480, R483: the release of PKG_RST_N. -/
theorem Pkg.bringUp_release (hw : p.board.pwrok = true) (hr : p.board.rstN = false) : p.bringUp o =
    let q := { p with board := { p.board with rstN := true }, ftc := { p.ftc with now := p.rd64 (rFTC_INIT.at 0 0 0) }
                      port := p.port.train (if p.board.perstN then o.speed else 0) o.width }
    let q := q.wr (rHS_STRAPS.at 0 0 0) (putFlds 0#32 [(fHS_STRAPS_X, o.x), (fHS_STRAPS_Y, o.y), (fHS_STRAPS_FW_WAIT, flag01 o.fwWait),
      (fHS_STRAPS_MGT_DEF, flag01 o.mgtDef), (fHS_STRAPS_TEST_N, flag01 o.testN)])
    let q := ((q.setFld aCoord fFAB_COORD_PX o.x).setFld aCoord fFAB_COORD_PY o.y).bootRom
    if q.fw.waiting then q else q.toReady o := by
  simp only [Pkg.bringUp, hw, hr, Bool.not_true, Bool.not_false, Bool.false_eq_true, if_false, if_true]

theorem Pkg.bringUp_goesOn (hw : p.board.pwrok = true) (hr : p.board.rstN = true) (hb : p.fw.booted = false) :
    p.bringUp o = if p.fw.running.isSome then p.toReady o else p := by
  simp only [Pkg.bringUp, hw, hr, hb, Bool.not_true, Bool.not_false, Bool.and_true, Bool.false_eq_true, if_false]

/-- R319: at the release the FTC of a grandmaster starts at FTC_INIT, and so does any other, where it is 0. -/
theorem Pkg.ftcStart (h : p.isGM = true ∨ p.rd64 (rFTC_INIT.at 0 0 0) = 0) :
    (if p.isGM then p.rd64 (rFTC_INIT.at 0 0 0) else 0) = p.rd64 (rFTC_INIT.at 0 0 0) := by
  split
  · rfl
  · next hg => exact (h.resolve_left hg).symm

end

/-- A field of one bit. -/
theorem getLsbD_eq_bits (v : Word) (i : Nat) : v.getLsbD i = decide (bits v i 1 = 1) := by
  rw [bits, BitVec.getLsbD, Nat.testBit_eq_decide_div_mod_eq, Nat.shiftRight_eq_div_pow, Nat.pow_one]

/-- R484: HS_POWER_STATUS shows the pin. -/
theorem Pkg.ownWord_vrAlert (p : Pkg) : (p.ownWord aPower).getLsbD fHS_POWER_STATUS_VR_ALERT.lo = p.board.vrAlert := by
  have hloc : locOf (aPower / 4 * 4) = some ⟨.hs, 0, 0, 0x604⟩ := by decide
  have hreg : (decide (0xF0000 ≤ aPower / 4 * 4) && decide (aPower / 4 * 4 < 0x100000)) = false := by decide
  have hlive (v : Word) : p.liveHs 0x604 v = putFld v fHS_POWER_STATUS_VR_ALERT (flag01 p.board.vrAlert) := rfl
  simp only [Pkg.ownWord, hloc, hreg, Bool.false_eq_true, if_false, hlive]
  rw [getLsbD_eq_bits, show (1 : Nat) = fHS_POWER_STATUS_VR_ALERT.w from rfl, bits_putFld _ _ _ (by decide)]
  cases p.board.vrAlert <;> rfl

/-! Lost clocks (R479). -/

section
variable {p : Pkg}

/-- R479: HS_POWER_STATUS shows the clock; then what the loss of it does. -/
theorem Pkg.clkLost_eq (hp : p.powered = true) (c : Clk) : p.clkLost c =
    let q := p.setFld aPower fHS_POWER_STATUS_CLK_LOST (p.fld aPower fHS_POWER_STATUS_CLK_LOST ||| 2 ^ c.bit)
    match c with
    | .cxl => q.linkLost
    | .ftc => q.ftcLoss
    | .fab n => (List.range 4).foldl (fun p i => (List.range (groupCount p.board.dies)).foldl (fun p g =>
        if groupDie p.board.dies i g = n then p.laneGroupDown i g else p) p) q
    | .hbm n => ({ q with board := { q.board with clkGone := (3, n) :: q.board.clkGone } }).scrambleMem (hbmBase n) (hbmBase (n + 1))
    | .ddr n => ({ q with board := { q.board with clkGone := (4, n) :: q.board.clkGone } }).scrambleMem (ddrBase n) (ddrBase (n + 1)) :=
  if_neg (by rw [hp]; exact Bool.false_ne_true)

/-- R356: the release of CXL_PERST_N. -/
theorem Pkg.perstRelease_eq (hn : p.board.perstN = false) (sp w : Nat) : p.perstRelease sp w =
    let q : Pkg := { p with board := { p.board with perstN := true } }
    if p.powered then { q with port := p.port.train sp w } else q :=
  if_neg (ne_true_of_eq_false hn)

end

/-- Settles O54: each event of the board by what the package is when it comes. -/
theorem boardEventsAct : Obligations.BoardEventsAct := by
  unfold Obligations.BoardEventsAct
  intro s p
  refine ⟨?_, fun b => ⟨?_, rfl, rfl, rfl, rfl, rfl, fun a ha => Pkg.coldReset_rd p b ha, Pkg.coldReset_memLost p b, rfl, rfl, rfl, rfl,
    Pkg.coldReset_die p b, rfl, rfl, rfl, rfl, rfl, rfl⟩, fun o hw hr hg => ?_, fun o hw hr hb => ?_, ?_, fun sp w hn => ?_, fun hw => ?_,
    fun on => ?_, rfl, fun hp => ?_, fun hp hv out => ?_⟩
  · exact State.always_runsTo (f := fun p => p.pwrok) rfl rfl
  · exact State.put_afterwards _ _ _
  · intro trains q
    have runs {d} (hd : p.bringUp o = d) : RunsTo (.bringUp o) s d := State.always_runsTo (f := fun p => p.bringUp o) rfl hd
    have release := Pkg.bringUp_release (o := o) hw hr
    rw [HostPort.train_perst, ← Pkg.ftcStart hg] at release
    exact ⟨fun hf => runs (release.trans (if_pos hf)), fun hf => runs (release.trans (if_neg (ne_true_of_eq_false hf)))⟩
  · have runs {d} (hd : p.bringUp o = d) : RunsTo (.bringUp o) s d := State.always_runsTo (f := fun p => p.bringUp o) rfl hd
    have goesOn := Pkg.bringUp_goesOn (o := o) hw hr hb
    exact ⟨fun hi => runs (goesOn.trans (if_pos hi)), fun hi => runs (goesOn.trans (if_neg (by rw [hi]; exact Bool.false_ne_true)))⟩
  · exact State.always_runsTo (f := fun p => p.hostPortReset) rfl rfl
  · intro trains
    have runs {d} (hd : p.perstRelease sp w = d) : RunsTo (.perstRelease sp w) s d :=
      State.always_runsTo (f := fun p => p.perstRelease sp w) rfl hd
    have release := Pkg.perstRelease_eq hn sp w
    rw [HostPort.train_eq] at release
    exact ⟨fun hp => runs (release.trans (if_pos hp)), fun hp => runs (release.trans (if_neg (ne_true_of_eq_false hp)))⟩
  · exact State.always_runsTo (f := fun p => p.thermTrip) rfl (if_pos hw)
  · exact ⟨State.always_runsTo (f := fun p => p.vrAlert on) rfl rfl, Pkg.ownWord_vrAlert _⟩
  · intro lost
    have runs {c d} (hd : p.clkLost c = d) : RunsTo (.clkLost c) s d := State.always_runsTo (f := fun p => p.clkLost c) rfl hd
    exact ⟨runs (Pkg.clkLost_eq hp .cxl), runs (Pkg.clkLost_eq hp .ftc), fun n => ⟨runs (Pkg.clkLost_eq hp (.hbm n)),
      runs (Pkg.clkLost_eq hp (.ddr n)), runs (Pkg.clkLost_eq hp (.fab n))⟩⟩
  · exact State.byFirmware_runsTo (f := fun p => p.pmbusPoll out) hp hv rfl rfl

end Sys2Proof.Machine
end

section
/-! PROOFS. Power: control periods, rails, gating, admission, ungating (R49 to R64, R476). -/
namespace Sys2Proof.Machine

section
variable {p : Pkg} {n c : Nat}

/-! The control period (R50 to R53, R63). -/

/-- R50: what a control period notes of a die before it moves its voltage: the beat rate read, and the AVS bus. -/
def Pkg.periodStart (p : Pkg) (n : Nat) (t : Telemetry) : Pkg :=
  (p.wr (rCD_BEAT_RATE.at n 0 0) (BitVec.ofNat 32 (65536 * (t.fastest % 65536) + t.slowest % 65536))).updDie n
    (fun d => { d with oldVctrl := none })

def Pkg.missedAfter (p : Pkg) (n : Nat) (t : Telemetry) : Nat := if t.answered then 0 else ((p.periodStart n t).die n).avsMissed + 1

/-- R63: a die that stays behind the others is raised. -/
def Pkg.slowAfter (p : Pkg) (n : Nat) (t : Telemetry) : Nat :=
  if 100 * t.rate < 97 * t.others then ((p.periodStart n t).die n).slowFor + 1 else 0

def Pkg.raisingAfter (p : Pkg) (n : Nat) (t : Telemetry) : Bool :=
  let d := (p.periodStart n t).die n
  (d.raising || 16 ≤ p.slowAfter n t) && 100 * t.rate < 97 * t.others && d.baseMv + 10 * p.trim n < 850 && t.predicted ≤ allocation p.board.dies

def Pkg.periodDie (p : Pkg) (n : Nat) (t : Telemetry) : Die :=
  { (p.periodStart n t).die n with
    avsMissed := p.missedAfter n t, slowFor := p.slowAfter n t, raising := p.raisingAfter n t, tj := t.tj }

/-- A control period, by the mode of its die. -/
theorem Pkg.controlPeriod_eq (t : Telemetry) (hn : p.present n = true) (hr : p.fw.inReset = false) : p.controlPeriod n t =
    let r := (p.periodStart n t).setVrFail n (3 ≤ p.missedAfter n t)
    let d := p.periodDie n t
    let alloc := allocation p.board.dies
    if r.fixedMode n = true then
      (if alloc < t.power then r.bumpSat (rCD_VSTATUS.at n 0 0) fCD_VSTATUS_OVER_ALLOC else r).updDie n (fun _ => { d with
        raising := false, slowFor := 0, setMv := if t.answered then clampTo 550 850 (r.vfixed n + 10 * p.trim n) else d.setMv
        fwCeil := if 3 ≤ p.missedAfter n t then 50 else if 100 < t.tj then max 50 (d.fwCeil - 5) else min 255 (d.fwCeil + 5) })
    else
      let v := nextBase d t alloc (p.trim n)
      r.updDie n (fun _ => { d with
        baseMv := v, setMv := if t.answered then min 850 (v + 10 * p.trim n) else d.setMv
        fwCeil := if 3 ≤ p.missedAfter n t then 50 else nextCeil d.fwCeil (v = 550 && (alloc < t.power || 100 < t.tj)) }) := by
  have hb : (!p.present n || p.fw.inReset) = false := by rw [hn, hr]; rfl
  simp only [Pkg.controlPeriod, hb, Bool.false_eq_true, if_false, nextCeil, decide_eq_true_eq] <;> rfl

/-! The governor (R57 to R61, R64). -/

/-- R57: a request behind all earlier points goes last. -/
theorem Pkg.govAsk_last (w : Bool) (h : ∀ r ∈ (p.die n).gov, r.point < (p.ftc.now + 7) / 8) :
    p.govAsk n c w = p.updDie n (fun d => { d with gov := d.gov ++ [⟨c, w, (p.ftc.now + 7) / 8⟩] }) := by
  have hbefore : ∀ r ∈ (p.die n).gov, (decide (r.point < p.point) || (decide (r.point = p.point) &&
      decide (((p.die n).logical r.core).getD 64 ≤ ((p.die n).logical c).getD 64))) = true :=
    fun r hr => by rw [show p.point = (p.ftc.now + 7) / 8 from rfl, decide_eq_true (h r hr), Bool.true_or]
  have htake := List.takeWhile_append_of_pos (l₂ := []) hbefore
  have hdrop := List.dropWhile_append_of_pos (l₂ := []) hbefore
  simp only [List.append_nil, List.takeWhile_nil, List.dropWhile_nil] at htake hdrop
  simp only [Pkg.govAsk, Pkg.updDie, htake, hdrop]
  rfl

/-- R57: an idle core asks to be gated. -/
theorem Pkg.gateDown_idle (hc : c < 72) (hn : p.present n = true) (hi : (p.core (coreKey n c)).idle = true)
    (hw : (p.core (coreKey n c)).pwr = .awake)
    (hg : (p.die n).oldGate.getD (p.fld (rCD_GOV_CTRL.at n 0 0) fCD_GOV_CTRL_IDLE_GATE) ≠ 0) (ht : p.fw.tests.find (coreKey n c) = none) :
    p.gateDown n c = (p.setCore (coreKey n c) { p.core (coreKey n c) with pwr := .gateQueued }).govAsk n c false := by
  refine if_pos ?_
  rw [decide_eq_true hc, hn, hi, decide_eq_true hw, ht, decide_eq_true (show p.idleGate n ≠ 0 from hg)]
  rfl

/-- R64: from an admission on the settings that are committed are in force. -/
theorem Pkg.govN_committed (q : Pkg) (n : Nat) (f : Die → Die) (hf : ∀ d, (f d).oldSlew = none) :
    (q.updDie n f).govN n = max 1 (min 4 (max 12 (q.fld (rCD_GOV_CTRL.at n 0 0) fCD_GOV_CTRL_SLEW) * 2 / 25)) := by
  have hd : ((q.updDie n f).die n).oldSlew = none := by rw [Pkg.die_updDie, if_pos rfl, hf]
  rw [Pkg.govN, hd]
  rfl

section
variable {r : GovReq} {rs : List GovReq} (hg : (p.die n).gov = r :: rs)
include hg

/-- R61: a core that has work again withdraws its request. -/
theorem Pkg.admission_withdrawn (hw : r.wake = false) (hq : (p.core (coreKey n r.core)).pwr ≠ .gateQueued) :
    p.admission n = p.updDie n (fun d => { d with gov := rs }) := by
  have hb : (!r.wake && decide ((p.core (coreKey n r.core)).pwr ≠ .gateQueued)) = true := by rw [hw, decide_eq_true hq]; rfl
  simp only [Pkg.admission, hg, hb, if_true]

/-- R57, R59, R64: the first request at its spacing and its point. -/
theorem Pkg.admission_due (h : r.wake = true ∨ (p.core (coreKey n r.core)).pwr = .gateQueued) : p.admission n =
    let q := p.until (max (p.die n).govNext (8 * r.point))
    if (q.die n).gov.head? ≠ some r then q
    else
      let q1 := q.updDie n (fun d => { d with gov := d.gov.drop 1, oldGate := none, oldSlew := none })
      let q2 := q1.updDie n (fun d => { d with govNext := q.ftc.now + 1000 / max 1 (min 4 (max 12 (q.fld (rCD_GOV_CTRL.at n 0 0) fCD_GOV_CTRL_SLEW) * 2 / 25)) })
      q2.setCore (coreKey n r.core) { q2.core (coreKey n r.core) with pwr := if r.wake then .ungating q.ftc.now else .gated } := by
  have hb : (!r.wake && decide ((p.core (coreKey n r.core)).pwr ≠ .gateQueued)) = false := by
    rcases h with h | h
    · rw [h]; rfl
    · rw [h]; simp
  simp only [Pkg.admission, hg, hb, Bool.false_eq_true, if_false,
    Pkg.govN_committed _ n (fun d => { d with gov := d.gov.drop 1, oldGate := none, oldSlew := none }) (fun _ => rfl)]

end

/-- R60: the wake takes 800 ns. -/
theorem Pkg.ungate_eq {t : Nat} (h : (p.core (coreKey n c)).pwr = .ungating t) : p.ungate n c =
    (p.until (t + 800)).setCore (coreKey n c) { (p.until (t + 800)).core (coreKey n c) with pwr := .ramp } := by
  simp only [Pkg.ungate, h]

end

/-- Settles O53: a control period by the die's mode; faults; the governor's requests by what has become of the core. -/
theorem powerEventsAct : Obligations.PowerEventsAct := by
  unfold Obligations.PowerEventsAct
  intro s n c hp p key
  refine ⟨fun t hv hn hr => ?_, fun hn => ⟨?_, ?_, ?_, ?_⟩, ?_, fun hc hn hi hw hg ht => ?_, fun w h => Pkg.govAsk_last w h, fun r rs hg => ?_,
    fun t ht => ?_, fun hr => ?_⟩
  · intro alloc trim q d missed slow raising r d'
    have runs {x} (hx : p.controlPeriod n t = x) : RunsTo (.controlPeriod n t) s x :=
      State.byFirmware_runsTo (f := fun p => p.controlPeriod n t) hp hv rfl hx
    have period := Pkg.controlPeriod_eq t hn hr
    refine ⟨fun hm => ?_, fun hm => runs (period.trans (if_pos hm))⟩
    exact runs (period.trans (if_neg (ne_true_of_eq_false hm)))
  · exact State.inPower_runsTo (f := fun p => p.droopOf n) hp rfl (if_pos hn)
  · exact State.inPower_runsTo (f := fun p => p.railUnder n) hp rfl (if_pos hn)
  · exact State.inPower_runsTo (f := fun p => p.railOver n) hp rfl (if_pos hn)
  · exact State.inPower_runsTo (f := fun p => p.thermalOf n) hp rfl (if_pos hn)
  · exact State.inPower_runsTo (f := fun p => p.ceilingWindow n) hp rfl rfl
  · exact State.inPower_runsTo (f := fun p => p.gateDown n c) hp rfl (Pkg.gateDown_idle hc hn hi hw hg ht)
  · intro k q t q1 spacing q2
    have runs {x} (hx : p.admission n = x) : RunsTo (.admission n) s x := State.inPower_runsTo (f := fun p => p.admission n) hp rfl hx
    refine ⟨fun h => ?_, fun hw hq => runs (Pkg.admission_withdrawn hg hw hq)⟩
    have due := Pkg.admission_due hg h
    refine ⟨fun hh => runs (due.trans (if_neg (fun hne => hne hh))), fun hh => runs (due.trans (if_pos hh))⟩
  · exact State.inPower_runsTo (f := fun p => p.ungate n c) hp rfl (Pkg.ungate_eq ht)
  · exact State.inPower_runsTo (f := fun p => p.rowGroupRamp n c) hp rfl (if_pos hr)

end Sys2Proof.Machine
end

section
/-! PROOFS. Management requests, the firmware protocol, attestation and DOE (R364, R438 to R456). -/
namespace Sys2Proof.Machine

/-! Management requests (R440 to R442, R456). -/

section
variable {p : Pkg} {ch : Chan} {tag : Nat}

section
variable (hd : ch ≠ .doe) (hh : p.hears ch = true)
include hd hh

/-- R438, R439: a channel of the management port that is heard. -/
theorem Pkg.heardManagement : (decide (ch = .doe) || !p.hears ch) = false := by
  rw [decide_eq_false hd, hh]
  rfl

/-- R440: a read of registers, by its TYPE and its count. -/
theorem Pkg.regRead_eq (m : Milnik) (off n ty : Nat) : p.regRead m ch tag off n ty =
    if ty = 0 ∨ 7 < ty then p.respond ch ty 1 tag []
    else if n = 0 ∨ 256 < n then p.respond ch 1 2 tag []
    else (Pkg.readRegs m ch.origin (off / 4 * 4) n p []).1.respond ch 1 0 tag (Pkg.readRegs m ch.origin (off / 4 * 4) n p []).2 := by
  simp only [Pkg.regRead, Pkg.heardManagement hd hh, Bool.false_eq_true, if_false, Bool.or_eq_true, decide_eq_true_eq]

theorem Pkg.regWrite_eq (off : Nat) (ws : List Word) : p.regWrite ch tag off ws =
    if ws = [] ∨ 256 < ws.length then p.respond ch 2 2 tag [] else Pkg.writeRegs ch.origin tag ws (off / 4 * 4) p := by
  simp only [Pkg.regWrite, Pkg.heardManagement hd hh, Bool.false_eq_true, if_false, Bool.or_eq_true, decide_eq_true_eq, List.isEmpty_iff]

/-- R441: event records, all or none. -/
theorem Pkg.evtRead_eq (first n : Nat) : p.evtRead ch tag first n =
    if n = 0 ∨ 16 < n then p.respond ch 4 2 tag []
    else if ((List.range n).filterMap (fun i => p.fw.record (first + i))).length = n then
      p.respond ch 4 0 tag (((List.range n).filterMap (fun i => p.fw.record (first + i))).flatMap Event.bytes)
    else p.respond ch 4 4 tag [] := by
  simp only [Pkg.evtRead, Pkg.heardManagement hd hh, Bool.false_eq_true, if_false, Bool.or_eq_true, decide_eq_true_eq]

/-- R456: journal entries, all or none. -/
theorem Pkg.jrnlRead_eq (first n : Nat) : p.jrnlRead ch tag first n =
    let es := (List.range n).filterMap (fun i => p.areaNow.good.find? (fun e => e.seq = (first + i) % 2 ^ 32))
    if n = 0 ∨ 32 < n then p.respond ch 5 2 tag []
    else if es.length = n then p.respond ch 5 0 tag (es.flatMap JEntry.bytes)
    else p.respond ch 5 4 tag [] := by
  simp only [Pkg.jrnlRead, Pkg.heardManagement hd hh, Bool.false_eq_true, if_false, Bool.or_eq_true, decide_eq_true_eq]

end

/-- R442: an acknowledged record is dropped, and a waiting one goes out. -/
theorem Pkg.eventAck_eq {k seq : Nat} (hh : p.hears .udp = true)
    (hu : p.fw.unacked.any (fun u => u.1 = k && u.2.1 = seq && u.2.2 ≠ 0) = true) : p.eventAck k seq =
      (p.updFw (fun f => { f with unacked := f.unacked.filter (fun u => !(u.1 = k && u.2.1 = seq)) })).sendWaiting k := by
  refine if_neg ?_
  rw [hh, hu]
  exact Bool.false_ne_true

theorem Pkg.neighbourDiscovery_eq (hh : p.hears .udp = true) (a : Nat) :
    p.neighbourDiscovery a = if a = p.netAddr then p.emit (.net 0 (toBytes 16 p.netAddr)) else p := by
  simp only [Pkg.neighbourDiscovery, hh, Bool.true_and, decide_eq_true_eq]

end

/-- Settles O51: each request by its TYPE and count; acknowledgements, solicitations and echo requests that the port hears. -/
theorem managementAnswers : Obligations.ManagementAnswers := by
  unfold Obligations.ManagementAnswers
  intro s ch tag hp p
  refine ⟨fun hd ht hh => ⟨fun off n ty hty => ?_, fun off n ty h0 h7 => ⟨fun hn => ?_, fun h0' hn => ?_⟩, fun off ws => ⟨fun hw => ?_, fun hw hl => ?_⟩,
    fun first => ⟨?_, ?_⟩, fun first n h0 => ⟨fun hn => ?_, fun hn => ?_, fun hn => ?_, fun hn => ?_⟩⟩,
    fun hh => ⟨fun k seq hu => ?_, ?_, fun a ha => ?_, fun data => ?_⟩, fun hv a => ?_, fun up => ?_⟩
  · exact State.request_runsTo (f := fun p => p.regRead s.mtr ch tag off n ty) hp ht rfl ((Pkg.regRead_eq hd hh _ off n ty).trans (if_pos hty))
  · refine State.request_runsTo (f := fun p => p.regRead s.mtr ch tag off n ty) hp ht rfl ((Pkg.regRead_eq hd hh _ off n ty).trans ?_)
    exact (if_neg (by omega)).trans (if_pos hn)
  · refine State.request_runsTo (f := fun p => p.regRead s.mtr ch tag off n ty) hp ht rfl ((Pkg.regRead_eq hd hh _ off n ty).trans ?_)
    exact (if_neg (by omega)).trans (if_neg (by omega))
  · exact State.request_runsTo (f := fun p => p.regWrite ch tag off ws) hp ht rfl ((Pkg.regWrite_eq hd hh off ws).trans (if_pos hw))
  · exact State.request_runsTo (f := fun p => p.regWrite ch tag off ws) hp ht rfl
      ((Pkg.regWrite_eq hd hh off ws).trans (if_neg (not_or.mpr ⟨hw, Nat.not_lt.mpr hl⟩)))
  · exact State.request_runsTo (f := fun p => p.evtRead ch tag first 0) hp ht rfl ((Pkg.evtRead_eq hd hh first 0).trans (if_pos (.inl rfl)))
  · exact State.request_runsTo (f := fun p => p.jrnlRead ch tag first 0) hp ht rfl ((Pkg.jrnlRead_eq hd hh first 0).trans (if_pos (.inl rfl)))
  · have reads {d} (h : p.evtRead ch tag first n = d) : RunsTo (.evtRead ch tag first n) s d :=
      State.request_runsTo (f := fun p => p.evtRead ch tag first n) hp ht rfl h
    have within := (Pkg.evtRead_eq (tag := tag) hd hh first n).trans (if_neg (by omega))
    intro es
    exact ⟨fun hl => reads (within.trans (if_pos hl)), fun hl => reads (within.trans (if_neg hl))⟩
  · exact State.request_runsTo (f := fun p => p.evtRead ch tag first n) hp ht rfl ((Pkg.evtRead_eq hd hh first n).trans (if_pos (.inr hn)))
  · have reads {d} (h : p.jrnlRead ch tag first n = d) : RunsTo (.jrnlRead ch tag first n) s d :=
      State.request_runsTo (f := fun p => p.jrnlRead ch tag first n) hp ht rfl h
    have within := (Pkg.jrnlRead_eq (tag := tag) hd hh first n).trans (if_neg (by omega))
    intro es
    exact ⟨fun hl => reads (within.trans (if_pos hl)), fun hl => reads (within.trans (if_neg hl))⟩
  · exact State.request_runsTo (f := fun p => p.jrnlRead ch tag first n) hp ht rfl ((Pkg.jrnlRead_eq hd hh first n).trans (if_pos (.inr hn)))
  · exact State.inPower_runsTo (f := fun p => p.eventAck k seq) hp rfl (Pkg.eventAck_eq hh hu)
  · exact State.inPower_runsTo (f := fun q => q.neighbourDiscovery p.netAddr) hp rfl ((Pkg.neighbourDiscovery_eq hh _).trans (if_pos rfl))
  · exact State.inPower_runsTo (f := fun p => p.neighbourDiscovery a) hp rfl ((Pkg.neighbourDiscovery_eq hh a).trans (if_neg ha))
  · exact State.inPower_runsTo (f := fun p => p.icmpEcho data) hp rfl (if_pos hh)
  · exact State.inPower_runsTo (f := fun p => p.entdaa a) hp rfl (if_pos hv)
  · exact State.inPower_runsTo (f := fun p => p.mgtLink up) hp rfl (if_pos hp)

/-! The firmware protocol (R444 to R449). -/

section
variable {p : Pkg} {ch : Chan} {tag : Nat} (hh : p.fwHears ch = true)
include hh

theorem Pkg.heardFirmware : ¬ (!p.fwHears ch) = true := by
  rw [hh]
  exact Bool.false_ne_true

theorem Pkg.fwBegin_eq (len : Nat) : p.fwBegin ch tag len =
    if p.fw.transfer.any (fun t => !(t.chan = ch)) then p.fwReply ch tag 4 []
    else if 2 ^ 24 < len then p.fwReply ch tag 3 []
    else (p.updFw (fun f => { f with transfer := some ⟨ch, len, []⟩ })).fwReply ch tag 0 [] :=
  if_neg (Pkg.heardFirmware hh)

theorem Pkg.fwData_none (ht : p.fw.transfer = none) (off : Nat) (bs : List Byte) : p.fwData ch tag off bs = p.fwReply ch tag 6 [] := by
  simp only [Pkg.fwData, if_neg (Pkg.heardFirmware hh), ht]

theorem Pkg.fwEnd_none (ht : p.fw.transfer = none) (w : FlashWrite) : p.fwEnd ch tag w = p.fwReply ch tag 6 [] := by
  simp only [Pkg.fwEnd, if_neg (Pkg.heardFirmware hh), ht]

section
variable {t : Transfer} (ht : p.fw.transfer = some t)
include ht

theorem Pkg.fwData_other (hc : t.chan ≠ ch) (off : Nat) (bs : List Byte) : p.fwData ch tag off bs = p.fwReply ch tag 4 [] := by
  simp only [Pkg.fwData, if_neg (Pkg.heardFirmware hh), ht, if_pos hc]

theorem Pkg.fwEnd_other (hc : t.chan ≠ ch) (w : FlashWrite) : p.fwEnd ch tag w = p.fwReply ch tag 4 [] := by
  simp only [Pkg.fwEnd, if_neg (Pkg.heardFirmware hh), ht, if_pos hc]

/-- R447: DATA fills the buffer where its bytes lie in it. -/
theorem Pkg.fwData_own (hc : t.chan = ch) {off : Nat} {bs : List Byte} (hb : bs ≠ []) (hl : bs.length ≤ (if ch = .doe then 4096 else 1024)) :
    p.fwData ch tag off bs =
      if t.length < off + bs.length then p.fwReply ch tag 3 []
      else (p.updFw (fun f => { f with transfer := some { t with buf := t.buf.setRun off bs } })).fwReply ch tag 0 [] := by
  have hchan : ¬ t.chan ≠ ch := fun h => h hc
  simp only [Pkg.fwData, if_neg (Pkg.heardFirmware hh), ht, if_neg hchan, List.isEmpty_eq_false_iff.mpr hb, Bool.false_or,
    decide_eq_false (Nat.not_lt.mpr hl), decide_eq_true_eq]

/-- R448: END checks the image, and runs it or writes it to flash. -/
theorem Pkg.fwEnd_own (hc : t.chan = ch) (w : FlashWrite) : p.fwEnd ch tag w =
    let st := imageStatus p.fw.revoked p.fw.minSvn t.bytes
    let q := p.updFw (fun f => { f with transfer := none })
    if st ≠ 0 then q.fwReply ch tag st []
    else if p.fw.waiting then (q.fwReply ch tag 0 []).runImage (Image.ofBytes t.bytes) true
    else
      match w with
      | .cut => q.updFw (fun f => { f with image := none })
      | _ =>
        let r := ((q.updFw (fun f => { f with image := if w = .good then some (Image.ofBytes t.bytes) else none })).fwReply ch tag
          (if w = .good then 0 else 5) []).fresh
        r.1.jput 4 ch.jorigin 4 false (Image.ofBytes t.bytes).version (Config.freeNat r.2 % 2 ^ 32) := by
  have hchan : ¬ t.chan ≠ ch := fun h => h hc
  cases w <;> simp only [Pkg.fwEnd, if_neg (Pkg.heardFirmware hh), ht, if_neg hchan] <;> rfl

end

/-- R449: LOCK_SVN of the running image. -/
theorem Pkg.lockSvn_running {i : Image} (hw : p.fw.waiting = false) (hr : p.fw.bootRam = false) (hi : p.fw.running = some i) :
    p.lockSvn ch tag = ((p.updFw (fun f => { f with minSvn := max p.fw.minSvn i.svn })).jput 4 ch.jorigin 4 false i.version
      (max p.fw.minSvn i.svn)).fwReply ch tag 0 [] := by
  simp only [Pkg.lockSvn, if_neg (Pkg.heardFirmware hh), hw, hr, hi, Bool.or_false, Bool.false_eq_true, if_false]

theorem Pkg.lockSvn_refused (h : p.fw.waiting = true ∨ p.fw.bootRam = true) : p.lockSvn ch tag = p.fwReply ch tag 6 [] := by
  have hb : (p.fw.waiting || p.fw.bootRam) = true := by rcases h with h | h <;> simp [h]
  simp only [Pkg.lockSvn, if_neg (Pkg.heardFirmware hh), hb, if_true]

end

/-! Attestation and DOE (R364, R450 to R452). -/

section
variable {p : Pkg}

theorem Pkg.getCert_eq {ch : Chan} {tag off len : Nat} (hh : p.hears ch = true) (hv : p.served = true) (h0 : 0 < len) (hl : len ≤ 1024) :
    p.getCert ch tag off len = p.attReply ch tag 0
      ((if off = 0 then toBytes 4 Config.deviceChain.length else []) ++ (Config.deviceChain.drop off).take len) := by
  have hlen : (decide (len = 0) || decide (1024 < len)) = false := by
    rw [decide_eq_false (by omega), decide_eq_false (by omega)]
    rfl
  simp only [Pkg.getCert, hh, hv, hlen, Bool.not_true, Bool.or_self, Bool.false_eq_true, if_false]

theorem Pkg.served_heard (hl : p.linkUp = true) (hv : p.served = true) : ¬ (!p.linkUp || !p.served) = true := by
  rw [hl, hv]
  exact Bool.false_ne_true

theorem Pkg.doeDiscovery_eq (hl : p.linkUp = true) {i k : Nat} (hk : p.doeProtocols[i]? = some k) : p.doeDiscovery i =
    p.emit (.doe (doeName k ++ toBytes 1 (if i + 1 < p.doeProtocols.length then i + 1 else 0))) := by
  have hne : p.doeProtocols.isEmpty = false := by
    cases h : p.doeProtocols with
    | nil => simp [h] at hk
    | cons x l => rfl
  simp only [Pkg.doeDiscovery, hl, hne, hk, Bool.not_true, Bool.or_self, Bool.false_eq_true, if_false]

theorem Pkg.doeProtocols_served (hw : p.fw.waiting = false) (hv : p.served = true) : p.doeProtocols = List.range 5 := by
  rw [Pkg.doeProtocols, hw, hv]
  rfl

theorem Pkg.doeProtocols_waiting (hw : p.fw.waiting = true) : p.doeProtocols = [0, 3] := by
  rw [Pkg.doeProtocols, hw]
  rfl

end

/-- Settles O52: each request by the transfer that is open and the state of the firmware. -/
theorem firmwareProtocolAnswers : Obligations.FirmwareProtocolAnswers := by
  unfold Obligations.FirmwareProtocolAnswers
  intro s ch tag hp ht p
  refine ⟨fun hh => ⟨fun len => ?_, fun off bs w hn => ⟨?_, ?_⟩, fun off bs w t hx hc => ⟨?_, ?_⟩, fun off bs t hx hc hb hl => ?_, fun t hx hc => ?_, ?_,
    fun i hw hr hi => ?_, fun h => ?_⟩, fun hh hv => ⟨fun off len h0 hl => ?_, fun nonce mask => ?_⟩,
    fun hl hv hw => ⟨fun i hi => ?_, ?_, fun on => ?_⟩, fun hl hw => ⟨?_, ?_⟩⟩
  · have begins {d} (h : p.fwBegin ch tag len = d) : RunsTo (.firmwareBegin ch tag len) s d :=
      State.request_runsTo (f := fun p => p.fwBegin ch tag len) hp ht rfl h
    have eq := Pkg.fwBegin_eq (tag := tag) hh len
    refine ⟨fun h => begins (eq.trans (if_pos h)), fun h => ?_⟩
    have free := eq.trans (if_neg (ne_true_of_eq_false h))
    exact ⟨fun hl => begins (free.trans (if_pos hl)), fun hl => begins (free.trans (if_neg (Nat.not_lt.mpr hl)))⟩
  · exact State.request_runsTo (f := fun p => p.fwData ch tag off bs) hp ht rfl (Pkg.fwData_none hh hn off bs)
  · exact State.request_runsTo (f := fun p => p.fwEnd ch tag w) hp ht rfl (Pkg.fwEnd_none hh hn w)
  · exact State.request_runsTo (f := fun p => p.fwData ch tag off bs) hp ht rfl (Pkg.fwData_other hh hx hc off bs)
  · exact State.request_runsTo (f := fun p => p.fwEnd ch tag w) hp ht rfl (Pkg.fwEnd_other hh hx hc w)
  · have fills {d} (h : p.fwData ch tag off bs = d) : RunsTo (.firmwareData ch tag off bs) s d :=
      State.request_runsTo (f := fun p => p.fwData ch tag off bs) hp ht rfl h
    have eq := Pkg.fwData_own (tag := tag) hh hx hc (off := off) hb hl
    exact ⟨fun h => fills (eq.trans (if_neg (Nat.not_lt.mpr h))), fun h => fills (eq.trans (if_pos h))⟩
  · intro st img q
    have ends (w) {d} (h : p.fwEnd ch tag w = d) : RunsTo (.firmwareEnd ch tag w) s d :=
      State.request_runsTo (f := fun p => p.fwEnd ch tag w) hp ht rfl h
    have eq (w) := Pkg.fwEnd_own (tag := tag) hh hx hc w
    refine ⟨fun h w => ends w ((eq w).trans (if_pos h)), fun h hw w => ?_, fun h hw => ?_⟩
    · exact ends w ((eq w).trans ((if_neg (fun hne => hne h)).trans (if_pos hw)))
    · have kept (w) := (eq w).trans ((if_neg (fun hne => hne h)).trans (if_neg (ne_true_of_eq_false hw)))
      exact ⟨ends .good (kept .good), ends .cut (kept .cut), ends .bad (kept .bad)⟩
  · exact State.request_runsTo (f := fun p => p.fwStatus ch tag) hp ht rfl (if_neg (Pkg.heardFirmware hh))
  · exact State.request_runsTo (f := fun p => p.lockSvn ch tag) hp ht rfl (Pkg.lockSvn_running hh hw hr hi)
  · exact State.request_runsTo (f := fun p => p.lockSvn ch tag) hp ht rfl (Pkg.lockSvn_refused hh h)
  · exact State.request_runsTo (f := fun p => p.getCert ch tag off len) hp ht rfl (Pkg.getCert_eq hh hv h0 hl)
  · refine State.request_runsTo (f := fun p => p.getMeas ch tag nonce mask) hp ht rfl (if_neg ?_)
    rw [hh, hv]
    exact Bool.false_ne_true
  · have names := Pkg.doeProtocols_served hw hv
    have found : p.doeProtocols[i]? = some i := by rw [names, List.getElem?_range hi]
    have next : (if i + 1 < p.doeProtocols.length then i + 1 else 0) = if i = 4 then 0 else i + 1 := by
      rw [names, List.length_range]
      split <;> split <;> omega
    exact State.inPower_runsTo (f := fun p => p.doeDiscovery i) hp rfl (next ▸ Pkg.doeDiscovery_eq hl found)
  · exact State.inPower_runsTo (f := fun p => p.cdat) hp rfl (if_neg (Pkg.served_heard hl hv))
  · exact State.inPower_runsTo (f := fun p => p.ideKm on) hp rfl (if_neg (Pkg.served_heard hl hv))
  · refine State.inPower_runsTo (f := fun p => p.doeDiscovery 0) hp rfl ((Pkg.doeDiscovery_eq hl (k := 0) ?_).trans ?_) <;>
      rw [Pkg.doeProtocols_waiting hw] <;> rfl
  · refine State.inPower_runsTo (f := fun p => p.doeDiscovery 1) hp rfl ((Pkg.doeDiscovery_eq hl (k := 3) ?_).trans ?_) <;>
      rw [Pkg.doeProtocols_waiting hw] <;> rfl

end Sys2Proof.Machine
end

section
/-! PROOFS. Package resets, known-answer tests and rebinding, and what firmware does by itself (R16 to R18, R329, R391 to R413, R424, R454). -/
namespace Sys2Proof.Machine

/-! O48: package resets (R408 to R413). -/

section
variable {p : Pkg}

/-- R412: the third reset within an hour that the host did not ask for drains the package. -/
theorem Pkg.packageReset_drains {cause : Nat} (held : List (Nat × List Byte)) (o : BringUp) (hc : p.fw.resetReq = some cause) (h77 : cause ≠ 0x77)
    (hr : 2 ≤ (p.fw.readies.filter (fun t => p.ftc.now < t + 3600 * ticksPerSecond)).length) :
    p.packageReset held o = (p.updFw (fun f => { f with resetReq := none })).drainFlag cause := by
  have hb : (decide (cause ≠ 0x77) && decide (2 ≤ (p.fw.readies.filter (fun t => p.ftc.now < t + 3600 * ticksPerSecond)).length)) = true := by
    rw [decide_eq_true h77, decide_eq_true hr]
    rfl
  simp only [Pkg.packageReset, hc]
  exact if_pos hb

/-- R410 to R413: the steps of a reset that runs. -/
theorem Pkg.packageReset_runs {cause : Nat} (held : List (Nat × List Byte)) (o : BringUp) (hc : p.fw.resetReq = some cause)
    (h : cause = 0x77 ∨ (p.fw.readies.filter (fun t => p.ftc.now < t + 3600 * ticksPerSecond)).length < 2) :
    p.packageReset held o =
      let q := (p.setFld aReset fHS_RESET_STATUS_CAUSE cause).setFld aReset fHS_RESET_STATUS_READY 0
      let q := (q.bumpSat aReset fHS_RESET_STATUS_COUNT).setFld aReset fHS_RESET_STATUS_LOST 0
      let q := (if cause = 0x77 then q.event { Event.blank 0x77 with action := 8 } else q).updFw (fun f => { f with inReset := true })
      let q := (List.range 16).foldl (fun p k =>
        if p.fld (aJob k) fFAB_JOB_STATE = 1 then p.sendAbort (p.fld (aJob k) fFAB_JOB_JOB) else p) q
      let q : Pkg := { q with cores := q.cores.map (fun e => (e.1, { e.2 with seq := { e.2.seq with stopping := true } })) }
      let q := (Pkg.transit q.fab.inbox.length q).allOut
      let q := (q.snapshot cause).shavings o.shaved
      let q := ((q.cmds.map Prod.fst).foldl (fun r k => r.finish k 9 cause p.ftc.now) q).writeEntries
      let q := if q.cmds.isEmpty then q else q.setFld aReset fHS_RESET_STATUS_LOST 1
      (q.quiesce held).settle.reboot o none := by
  have hb : (decide (cause ≠ 0x77) && decide (2 ≤ (p.fw.readies.filter (fun t => p.ftc.now < t + 3600 * ticksPerSecond)).length)) = false := by
    rw [Bool.and_eq_false_iff, decide_eq_false_iff_not, decide_eq_false_iff_not]
    exact h.imp (fun h hne => hne h) Nat.not_le.mpr
  simp only [Pkg.packageReset, hc]
  exact if_neg (ne_true_of_eq_false hb)

/-- R409: the firmware watchdog's reset. -/
theorem Pkg.fwWatchdog_runs (held : List (Nat × List Byte)) (o : BringUp) (h : p.fw.running.isSome = true) :
    p.fwWatchdog held o =
      let q := (p.setFld aReset fHS_RESET_STATUS_CAUSE 0x76).setFld aReset fHS_RESET_STATUS_READY 0
      let q := ((q.bumpSat aReset fHS_RESET_STATUS_COUNT).setFld aReset fHS_RESET_STATUS_LOST 1).setFld aReset fHS_RESET_STATUS_FLASH_SHAV 0
      (q.quiesce held).reboot o (some { Event.blank 0x76 with action := 8, ftc := p.ftc.now }) := by
  refine if_neg ?_
  rw [Option.isNone_eq_false_iff.mpr h]
  exact Bool.false_ne_true

/-- R357: the host link's retries, and its loss. -/
theorem Pkg.hostLink_up (h : p.linkUp = true) (k : Nat) (lost : Bool) :
    p.hostLink k lost = if lost then (p.retried k).linkLost else p.retried k :=
  if_neg (by rw [h]; exact Bool.false_ne_true)

theorem Pkg.linkLost_up (h : p.linkUp = true) :
    p.linkLost = ({ p with port := { p.port with speed := 0, width := 0, ide := false } }).packageFault 0x75 none :=
  if_neg (by rw [h]; exact Bool.false_ne_true)

end

/-- Settles O48: a reset by how many there were; the watchdog's; faults of dovetails; the host link. -/
theorem packageResetsRun : Obligations.PackageResetsRun := by
  unfold Obligations.PackageResetsRun
  intro s held o hp p
  refine ⟨fun hv cause hc => ?_, fun h => ?_, fun n hn => ?_, fun hv => ?_, fun k hl => ?_, fun k lost hl => ?_⟩
  · intro recent start
    have resets {d} (h : p.packageReset held o = d) : RunsTo (.packageReset held o) s d :=
      State.byFirmware_runsTo (f := fun p => p.packageReset held o) hp hv rfl h
    exact ⟨fun h77 hr => resets (Pkg.packageReset_drains held o hc h77 hr), fun h => resets (Pkg.packageReset_runs held o hc h)⟩
  · exact State.inPower_runsTo (f := fun p => p.fwWatchdog held o) hp rfl (Pkg.fwWatchdog_runs held o h)
  · exact State.inPower_runsTo (f := fun p => p.dovetailFail n) hp rfl (if_pos hn)
  · exact State.byFirmware_runsTo (f := fun p => p.startStall) hp hv rfl rfl
  · refine ⟨State.inPower_runsTo (f := fun p => p.hostLink k false) hp rfl (Pkg.hostLink_up hl k false), ?_⟩
    exact State.inPower_runsTo (f := fun p => p.hostLink k true) hp rfl ((Pkg.hostLink_up hl k true).trans (Pkg.linkLost_up hl))
  · refine State.inPower_runsTo (f := fun p => p.hostLink k lost) hp rfl (if_pos ?_)
    rw [hl]
    rfl

/-! O49: known-answer tests, fences, rebinding (R16 to R18, R392 to R399). -/

section
variable {p : Pkg} {n c : Nat}

theorem Pkg.testTurn_iff : p.testTurn n c = true ↔ p.testable n c = true ∧ ∀ x, x < c → p.testable n x = true → p.dueAt n x ≠ p.dueAt n c := by
  simp only [Pkg.testTurn, Bool.and_eq_true, Bool.not_eq_true', List.any_eq_false, List.mem_range, decide_eq_true_eq, not_and, ne_eq]

/-- R393: a test from its due time on. -/
theorem Pkg.rotationTest_due {t : Nat} (ht : p.testTurn n c = true) (hd : p.dueAt n c = some t) : p.rotationTest n c =
    if ((p.until t).core (coreKey n c)).pwr ≠ .awake then (p.until t).wake (coreKey n c)
    else ((p.until t).setFld (rCD_KAT_STATUS.at n 0 0) fCD_KAT_STATUS_LAST c).updFw (fun f => { f with
      tests := f.tests.set (coreKey n c) ⟨false, (p.until t).ftc.now, (p.until t).core (coreKey n c)⟩
      due := f.due.set (coreKey n c) ⟨(p.until t).ftc.now, 1, 1⟩ }) := by
  simp only [Pkg.rotationTest, hd, ht, Bool.not_true, Bool.false_eq_true, if_false]

theorem Pkg.rotationTest_notDue (ht : p.testTurn n c = false) : p.rotationTest n c = p := by
  cases hd : p.dueAt n c with
  | none => simp only [Pkg.rotationTest, hd]
  | some t => simp only [Pkg.rotationTest, hd, ht, Bool.not_false, if_true]

/-- A test that ends has left the tests, and its core is noted as tested. -/
def Pkg.tested (p : Pkg) (n c : Nat) : Pkg := (p.updFw (fun f => { f with tests := f.tests.del (coreKey n c) })).noteTested n c

/-- R395: a failed test counts. -/
def Pkg.failedTest (p : Pkg) (n c : Nat) : Pkg := (p.tested n c).bumpSat (rCD_KAT_FAILS.at n 0 0) fCD_KAT_FAILS_COUNT

section
variable {t : Test} (ht : p.fw.tests.find (coreKey n c) = some t)
include ht

theorem Pkg.rotationTestEnd_passed (group : Option Nat) : p.rotationTestEnd n c true group =
    ((p.tested n c).setCore (coreKey n c) (((p.tested n c).core (coreKey n c)).restored t.saved)).updFw (fun f =>
      { f with passed := f.passed.set (coreKey n c) (p.tested n c).ftc.now }) := by
  simp only [Pkg.rotationTestEnd, ht, if_true] <;> rfl

/-- R396: a failed core that no logical core is bound to is fenced. -/
theorem Pkg.rotationTestEnd_unbound (group : Option Nat) (hl : ((p.failedTest n c).die n).logical c = none) : p.rotationTestEnd n c false group =
    let r := ((p.failedTest n c).fence n c).event { Event.blank 0x13 with die := n, pcore := c, action := 1 }
    match group with
    | some g => r.bypass n c g
    | none => r := by
  simp only [Pkg.rotationTestEnd, ht, Bool.false_eq_true, if_false]
  rw [show ((((p.updFw (fun f => { f with tests := f.tests.del (coreKey n c) })).noteTested n c).bumpSat (rCD_KAT_FAILS.at n 0 0)
    fCD_KAT_FAILS_COUNT).die n).logical c = none from hl]
  rfl

/-- R396, R397: a failed core that is bound is fenced, and its logical core moves or stays unbound. -/
theorem Pkg.rotationTestEnd_bound {lc : Nat} (group : Option Nat) (hl : ((p.failedTest n c).die n).logical c = some lc) :
    p.rotationTestEnd n c false group =
      let q := p.failedTest n c
      let r := ((q.fence n c).replace n lc c 0x12 (((p.tested n c).core (coreKey n c)).restored t.saved)).katFail n lc c
        (if ((q.fence n c).nextSpare n).isSome then 3 else 49) (max (q.fw.passed.getD (coreKey n c) 0) (q.fw.boundAt.getD (coreKey n c) 0))
      match group with
      | some g => r.bypass n c g
      | none => r.updFw (fun f => { f with fullTests := f.fullTests.set (coreKey n c) ⟨r.ftc.now, false⟩ }) := by
  simp only [Pkg.rotationTestEnd, ht, Bool.false_eq_true, if_false]
  rw [show ((((p.updFw (fun f => { f with tests := f.tests.del (coreKey n c) })).noteTested n c).bumpSat (rCD_KAT_FAILS.at n 0 0)
    fCD_KAT_FAILS_COUNT).die n).logical c = some lc from hl]
  rfl

end

/-- R16, R397: a logical core moves to the next spare, or stays unbound. -/
theorem Pkg.replace_spare {q : Pkg} {lc sp : Nat} (reason : Nat) (src : Core) (h : q.nextSpare n = some sp) :
    q.replace n lc c reason src = q.moveCore n lc sp src (some c) := by
  simp only [Pkg.replace, h]

theorem Pkg.replace_none {q : Pkg} {lc : Nat} (reason : Nat) (src : Core) (h : q.nextSpare n = none) :
    q.replace n lc c reason src = q.unbind n lc c reason := by
  simp only [Pkg.replace, h]

section
variable {ft : FullTest} (hf : p.fw.fullTests.find (coreKey n c) = some ft)
include hf

/-- R398, R399: a full test that passed. -/
theorem Pkg.fullTestEnd_passed (group : Option Nat) : p.fullTestEnd n c true group =
    let q := p.updFw (fun f => { f with fullTests := f.fullTests.del (coreKey n c) })
    if ft.bypassed = false then q.unreproduced n
    else if q.short (coreKey n c) (q.core (coreKey n c)).kerf then q
    else (q.unfence n c).updFw (fun f => { f with passed := f.passed.set (coreKey n c) q.ftc.now, due := f.due.set (coreKey n c) ⟨ft.since, 1, 1⟩ }) := by
  simp only [Pkg.fullTestEnd, hf, if_true, Bool.not_eq_true']

theorem Pkg.fullTestEnd_failed (group : Option Nat) : p.fullTestEnd n c false group =
    let q := p.updFw (fun f => { f with fullTests := f.fullTests.del (coreKey n c) })
    match group with
    | some g => if ft.bypassed then q else q.bypass n c g
    | none => q := by
  simp only [Pkg.fullTestEnd, hf, Bool.false_eq_true, if_false] <;> rfl

end

section
variable {lc : Nat} (hn : p.present n = true) (hl : lc < 64) (hd : p.dueRebind n lc = true)
  (ho : (List.range lc).any (fun x => p.dueRebind n x) = false)
include hn hl hd ho

theorem Pkg.rebind_due : (!p.present n || decide (64 ≤ lc) || !p.dueRebind n lc || (List.range lc).any (fun x => p.dueRebind n x)) = false := by
  rw [hn, decide_eq_false (Nat.not_le.mpr hl), hd, ho]
  rfl

/-- R17: a waiting rebinding of a bound core. -/
theorem Pkg.rebind_bound {old : Nat} (hb : (p.die n).bind.find lc = some old) : p.rebind n lc =
    let q := p.updFw (fun f => { f with tests := f.tests.del (coreKey n old), rebindAfter := f.rebindAfter.del (coreKey n old) })
    q.replace n lc old 0x11 (q.core (coreKey n old)) := by
  simp only [Pkg.rebind, Pkg.rebind_due hn hl hd ho, Bool.false_eq_true, if_false, hb]

theorem Pkg.rebind_unbound {sp : Nat} (hb : (p.die n).bind.find lc = none) (hs : p.nextSpare n = some sp) :
    p.rebind n lc = p.moveCore n lc sp (p.core (coreKey n sp)) none := by
  simp only [Pkg.rebind, Pkg.rebind_due hn hl hd ho, Bool.false_eq_true, if_false, hb, hs]

end

end

/-- Settles O49: a test by its turn and its core's power, its end by the verdict and the binding; a full test; a rebinding. -/
theorem testsAndRebindRun : Obligations.TestsAndRebindRun := by
  unfold Obligations.TestsAndRebindRun
  intro s n c g hp hv p key
  have tests {d} (h : p.rotationTest n c = d) : RunsTo (.rotationTest n c) s d :=
    State.byFirmware_runsTo (f := fun p => p.rotationTest n c) hp hv rfl h
  have testEnds {pass group d} (h : p.rotationTestEnd n c pass group = d) : RunsTo (.rotationTestEnd n c pass group) s d :=
    State.byFirmware_runsTo (f := fun p => p.rotationTestEnd n c pass group) hp hv rfl h
  have fullEnds {pass group d} (h : p.fullTestEnd n c pass group = d) : RunsTo (.fullTestEnd n c pass group) s d :=
    State.byFirmware_runsTo (f := fun p => p.fullTestEnd n c pass group) hp hv rfl h
  refine ⟨fun ht t hd => ?_, fun ht => tests (Pkg.rotationTest_notDue ht), Pkg.testTurn_iff, fun t ht => ?_, fun ft hf => ?_, fun lc hn hl hd ho => ?_⟩
  · have due := Pkg.rotationTest_due ht hd
    exact ⟨fun hw => tests (due.trans (if_pos hw)), fun hw => tests (due.trans (if_neg (fun hne => hne hw)))⟩
  · intro q whole failed
    refine ⟨testEnds (Pkg.rotationTestEnd_passed ht none), fun hl => ?_, fun lc hl => ?_⟩
    · exact ⟨testEnds (Pkg.rotationTestEnd_unbound ht none hl), testEnds (Pkg.rotationTestEnd_unbound ht (some g) hl)⟩
    · have bound (group) := Pkg.rotationTestEnd_bound ht group hl
      intro wf ends
      refine ⟨fun sp hs => ?_, fun hs => ?_⟩
      · have spare : (((p.failedTest n c).fence n c).nextSpare n) = some sp := hs
        simp only [spare, Pkg.replace_spare _ _ spare, Option.isSome_some, if_true] at bound
        exact ⟨testEnds (bound (some g)), testEnds (bound none)⟩
      · have spare : (((p.failedTest n c).fence n c).nextSpare n) = none := hs
        simp only [spare, Pkg.replace_none _ _ spare, Option.isSome_none, Bool.false_eq_true, if_false] at bound
        exact ⟨testEnds (bound (some g)), testEnds (bound none)⟩
  · have passed := Pkg.fullTestEnd_passed hf none
    have failed (group) := Pkg.fullTestEnd_failed hf group
    refine ⟨fun hb => fullEnds (passed.trans (if_pos hb)), fun hb hs => ?_, fun hb hs => ?_, fun hb => ?_, fun hb => ?_, fullEnds (failed none)⟩
    · exact fullEnds (passed.trans ((if_neg (ne_false_of_eq_true hb)).trans (if_pos hs)))
    · exact fullEnds (passed.trans ((if_neg (ne_false_of_eq_true hb)).trans (if_neg (ne_true_of_eq_false hs))))
    · exact fullEnds ((failed (some g)).trans (if_neg (ne_true_of_eq_false hb)))
    · exact fullEnds ((failed (some g)).trans (if_pos hb))
  · have rebinds {d} (h : p.rebind n lc = d) : RunsTo (.rebind n lc) s d :=
      State.byFirmware_runsTo (f := fun p => p.rebind n lc) hp hv rfl h
    refine ⟨fun old hb => ?_, fun hb sp hs => rebinds (Pkg.rebind_unbound hn hl hd ho hb hs)⟩
    have bound := Pkg.rebind_bound hn hl hd ho hb
    exact ⟨fun sp hs => rebinds (bound.trans (Pkg.replace_spare _ _ hs)), fun hs => rebinds (bound.trans (Pkg.replace_none _ _ hs))⟩

end Sys2Proof.Machine
end

section
/-! PROOFS. What firmware does by itself: the watchdog, a drain, the journal's flash, samples (R329, R391, R401, R424, R442, R454, R455). -/
namespace Sys2Proof.Machine

section
variable {p : Pkg}

/-! The watchdog, a drain, errors and replays (R329, R386, R391, R401, R442). -/

/-- R401: the watchdog's check, which may end jobs. -/
theorem Pkg.jobWatchdog_eq (p : Pkg) : p.jobWatchdog =
    let q := p.until (100000000 * (p.ftc.now / 100000000 + 1))
    let kept : Tbl Nat := q.fw.jobFtc.filter (fun e => q.jobsNow.contains e.1)
    let seen := q.jobsNow.foldl (fun (t : Tbl Nat) j => match t.find j with | some _ => t | none => t.set j q.ftc.now) kept
    let r := q.updFw (fun f => { f with jobFtc := seen })
    let limit := r.fld (rHS_WDOG.at 0 0 0) fHS_WDOG_LIMIT
    if limit = 0 ∨ r.fw.inReset = true then r
    else (q.jobsNow.filter (fun j => r.fw.jobFtc.getD j 0 + 1000000 * limit ≤ r.ftc.now)).foldl Pkg.hang r := by
  simp only [Pkg.jobWatchdog, Bool.or_eq_true, decide_eq_true_eq] <;> rfl

/-- R329: an abort whose job has no command left is reported. -/
theorem Pkg.abortDone_eq {job : Nat} (h : p.fw.abortPend.contains job = true) : p.abortDone job =
    if p.cmds.any (fun e => e.2.job = job) = false then
      (p.updFw (fun f => { f with abortPend := f.abortPend.filter (fun j => !(j = job)) })).event { Event.blank 0x92 with job := job }
    else p := by
  simp only [Pkg.abortDone, h, Bool.true_and, Bool.not_eq_true']

/-- R391: the end of a drain. -/
theorem Pkg.drained_eq (h : p.fw.draining = true) : p.drained =
    let q := if (List.range 4).all (fun i => (p.tport i).out.isEmpty) then p else p.after 10000000
    let q := (List.range 4).foldl (fun p i => (p.setFld (rFAB_PORT_CTRL.at 0 0 i) fFAB_PORT_CTRL_DISABLE 1).portCtrl i) q
    ((q.updFw (fun f => { f with draining := false })).setFld aHealth fHS_HEALTH_DRAINED 1).event (Event.blank 0x94) :=
  if_neg (by rw [h]; exact Bool.false_ne_true)

/-- R386: correctable errors of a controller that are new. -/
theorem Pkg.memCE_eq {n m : Nat} (hn : p.present n = true) (hm : m < 4) : p.memCE n m =
    let now := p.fld (rMEM_ECC_CORR.at n m 0) fMEM_ECC_CORR_COUNT
    let seen := p.fw.ceSeen.getD (n * 4 + m) 0
    let q := p.updFw (fun f => { f with ceSeen := f.ceSeen.set (n * 4 + m) now })
    if seen < now then q.event { Event.blank 0x32 with die := n, unit := m, detail := now - seen } else q := by
  refine if_neg ?_
  rw [hn, decide_eq_false (Nat.not_le.mpr hm)]
  exact Bool.false_ne_true

/-- R442: an unacknowledged record goes out again. -/
theorem Pkg.eventResend_eq {k seq : Nat} (he : p.fld (rMGT_NET_CTRL.at 0 0 0) fMGT_NET_CTRL_EN = 1)
    (hu : p.fw.unacked.any (fun u => u.1 = k && u.2.1 = seq && u.2.2 ≠ 0) = true) : p.eventResend k seq =
      ((p.until (p.fw.sentAt.getD (k * 2 ^ 32 + seq % 2 ^ 32) 0 + 1000000000)).updFw (fun f => { f with unacked := f.unacked.map (fun u =>
        if u.1 = k && u.2.1 = seq then (k, seq, u.2.2 + 1) else u) })).sendEvent k seq := by
  refine if_pos ?_
  rw [decide_eq_true he, hu]
  rfl

/-! The journal's flash (R454, R455). -/

theorem Pkg.flushOne_compacting (h : p.fw.compacting = true) : p.flushOne = p := by
  unfold Pkg.flushOne
  split
  · rfl
  · exact if_pos (by rw [h]; rfl)

/-- R454: the first buffered entry goes to the area in use, where it has room. -/
theorem Pkg.flushOne_room {e : JEntry} {es : List JEntry} (hb : p.fw.jbuf = e :: es) (hc : p.fw.compacting = false)
    (hr : p.areaNow.bytes + 32 ≤ areaBytes) : p.flushOne =
      (p.setArea { p.areaNow with entries := p.areaNow.entries ++ [e.bytes] }).updFw
        (fun f => { f with jbuf := es ++ f.jwait.take 1, jwait := f.jwait.drop 1 }) := by
  simp only [Pkg.flushOne, hb, hc, Bool.false_or, decide_eq_false (Nat.not_lt.mpr hr), Bool.false_eq_true, if_false]

/-- R455: an area that is nearly full is copied into the other one. -/
theorem Pkg.compaction_starts (h : p.fw.compacting = false) : p.compaction =
    if areaBytes < p.areaNow.bytes + 0x100000 then (p.setOther p.areaNow.next).updFw (fun f => { f with compacting := true }) else p :=
  if_pos (by rw [h]; rfl)

/-- R455: then the other area is marked, and the old one erased. -/
theorem Pkg.compaction_goesOn (h : p.fw.compacting = true) : p.compaction =
    if p.areaOther.marker = [] then (p.setOther (p.areaOther.marked p.ftc.now)).updFw (fun f => { f with activeArea := !f.activeArea })
    else (p.setOther .erased).updFw (fun f => { f with compacting := false }) := by
  simp only [Pkg.compaction, h, Bool.not_true, Bool.false_eq_true, if_false, List.isEmpty_iff]

/-! Samples (R424). -/

theorem Pkg.sampling_iff : p.sampling = false ↔ p.fld aSmpCtrl fOBS_SMP_CTRL_INTERVAL = 0 ∨ p.fld aSmpCtrl fOBS_SMP_CTRL_SIZE_LOG2 = 0 := by
  simp only [Pkg.sampling, Bool.and_eq_false_iff, decide_eq_false_iff_not, ne_eq, Classical.not_not]

theorem Pkg.sampleTick_new {t : Nat} (h : p.sampleTick = some t) (ho : p.oldTick = none) :
    t = (p.ftc.now / sampleStep (p.fld aSmpCtrl fOBS_SMP_CTRL_INTERVAL) + 1) * sampleStep (p.fld aSmpCtrl fOBS_SMP_CTRL_INTERVAL) := by
  simp only [Pkg.sampleTick, ho] at h
  split at h
  · exact (Option.some.inj h).symm
  · cases h

/-- R424: a sample at its tick, under the fields in effect until then. -/
def Pkg.atSample (p : Pkg) (t : Nat) : Pkg := (p.until t).updFw (fun f => { f with smpOld := none })

section
variable {t : Nat} (h : p.sampleTick = some t)
include h

theorem Pkg.sample_off (ho : (p.atSample t).sampling = false) (late : Bool) : p.sample late = p.atSample t := by
  simp only [Pkg.sample, h]
  exact if_pos (congrArg not ho)

theorem Pkg.sample_late (ho : (p.atSample t).sampling = true) : p.sample true = (p.atSample t).dropSample := by
  simp only [Pkg.sample, h, if_true]
  exact if_neg (ne_true_of_eq_false (congrArg not ho))

theorem Pkg.sample_taken (ho : (p.atSample t).sampling = true) : p.sample false =
    ((p.atSample t).updFw (fun f => { f with smpSeq := (f.smpSeq + 1) % 2 ^ 32, lastSample := (p.atSample t).sampleRecord })).putSample
      (p.atSample t).sampleRecord := by
  simp only [Pkg.sample, h, Bool.false_eq_true, if_false]
  exact if_neg (ne_true_of_eq_false (congrArg not ho))

end

end

/-- Settles O50: each of firmware's acts by the conditions under which it has something to do. -/
theorem firmwareActs : Obligations.FirmwareActs := by
  unfold Obligations.FirmwareActs
  intro s hp hv p
  refine ⟨?_, fun job hj => ?_, fun hd => ?_, fun n m hn hm => ?_, fun k hk => ?_, ?_, fun n => ?_, fun e es hb => ⟨Pkg.flushOne_room hb, Pkg.flushOne_compacting⟩,
    fun hc => ?_, fun hc => ?_, fun late hn => ?_, fun t ht => ?_⟩
  · intro q jobs kept seen r limit stalled
    have checks {d} (h : p.jobWatchdog = d) : RunsTo .jobWatchdog s d := State.byFirmware_runsTo (f := fun p => p.jobWatchdog) hp hv rfl h
    exact ⟨fun h => checks (p.jobWatchdog_eq.trans (if_pos h)),
      fun hl hr => checks (p.jobWatchdog_eq.trans (if_neg (not_or.mpr ⟨hl, ne_true_of_eq_false hr⟩)))⟩
  · have ends {d} (h : p.abortDone job = d) : RunsTo (.abortDone job) s d := State.byFirmware_runsTo (f := fun p => p.abortDone job) hp hv rfl h
    have eq := Pkg.abortDone_eq hj
    exact ⟨fun h => ends (eq.trans (if_pos h)), fun h => ends (eq.trans (if_neg (ne_false_of_eq_true h)))⟩
  · exact State.byFirmware_runsTo (f := fun p => p.drained) hp hv rfl (Pkg.drained_eq hd)
  · have notes {d} (h : p.memCE n m = d) : RunsTo (.memCe n m) s d := State.byFirmware_runsTo (f := fun p => p.memCE n m) hp hv rfl h
    have eq := Pkg.memCE_eq hn hm
    exact ⟨fun h => notes (eq.trans (if_neg (Nat.not_lt.mpr h))), fun h => notes (eq.trans (if_pos h))⟩
  · exact State.byFirmware_runsTo (f := fun p => p.dtReplay k) hp hv rfl (if_neg (Nat.ne_of_gt hk))
  · intro k seq q he hu
    exact State.byFirmware_runsTo (f := fun p => p.eventResend k seq) hp hv rfl (Pkg.eventResend_eq he hu)
  · exact State.byFirmware_runsTo (f := fun p => p.journalFlush n) hp hv rfl rfl
  · have compacts {d} (h : p.compaction = d) : RunsTo .compaction s d := State.byFirmware_runsTo (f := fun p => p.compaction) hp hv rfl h
    have eq := Pkg.compaction_starts hc
    exact ⟨fun h => compacts (eq.trans (if_pos h)), fun h => compacts (eq.trans (if_neg (Nat.not_lt.mpr h)))⟩
  · have compacts {d} (h : p.compaction = d) : RunsTo .compaction s d := State.byFirmware_runsTo (f := fun p => p.compaction) hp hv rfl h
    have eq := Pkg.compaction_goesOn hc
    exact ⟨fun h => compacts (eq.trans (if_pos h)), fun h => compacts (eq.trans (if_neg h))⟩
  · refine State.inPower_runsTo (f := fun p => p.sample late) hp rfl ?_
    simp only [Pkg.sample, show s.pkg.sampleTick = none from hn]
    rfl
  · intro q r
    have samples {late d} (h : p.sample late = d) : RunsTo (.sample late) s d := State.inPower_runsTo (f := fun p => p.sample late) hp rfl h
    refine ⟨Pkg.sampleTick_new ht, fun late h => samples (Pkg.sample_off ht (Pkg.sampling_iff.mpr h) late), fun hi hz => ?_⟩
    have on : q.sampling = true := Bool.of_not_eq_false (fun h => (Pkg.sampling_iff.mp h).elim hi hz)
    exact ⟨samples (Pkg.sample_late ht on), samples (Pkg.sample_taken ht on)⟩

end Sys2Proof.Machine
end

section
/-! PROOFS. What triggers do: COMMIT, HOST_RESET, RING_CTX_LOAD; the journal's entries (R40, R368, R408, R453). -/
namespace Sys2Proof.Machine

/-! The journal's entries (R453). -/

theorem ofBytes_toBytes (n x : Nat) : ofBytes (toBytes n x) = x % 2 ^ (8 * n) := by
  induction n generalizing x with
  | zero => simp [toBytes, ofBytes, Nat.mod_one]
  | succ n ih =>
    simp only [toBytes, ofBytes, ih, BitVec.toNat_ofNat]
    rw [show 8 * (n + 1) = 8 + 8 * n by omega, Nat.pow_add, Nat.mod_mul]

theorem drop_toBytes {n k : Nat} (x : Nat) (h : n ≤ k) : (toBytes n x).drop k = [] :=
  List.drop_eq_nil_of_le (by rw [toBytes_length]; exact h)

theorem take_toBytes {n k : Nat} (x : Nat) (h : n ≤ k) : (toBytes n x).take k = toBytes n x :=
  List.take_of_length_le (by rw [toBytes_length]; exact h)

theorem JEntry.bytes_length (e : JEntry) : e.bytes.length = 32 := by
  simp only [JEntry.bytes, List.length_append, toBytes_length]

theorem JEntry.parse_bytes (e : JEntry) (hs : e.seq < 2 ^ 32) (hf : e.ftc < 2 ^ 64) (hk : e.kind < 256) (ho : e.origin < 256)
    (hz : e.size < 256) (ha : e.off < 2 ^ 32) (hv : e.value < 2 ^ 64) : JEntry.parse e.bytes = some e := by
  have hlen := e.bytes_length
  have hp : decide ((if e.persist = true then 1 else 0) % 2 = 1) = e.persist := by cases e.persist <;> rfl
  unfold JEntry.parse
  simp only [hlen]
  simp only [decide_true, bytes, List.append_assoc, List.drop_append, Nat.reduceLeDiff, drop_toBytes, toBytes_length, Nat.reduceSub,
    Nat.add_one_sub_one, List.nil_append, Std.le_refl, take_toBytes, ofBytes_toBytes, Nat.reduceMul,
    Nat.reducePow, List.take_append, Bool.true_and,
    decide_eq_true_eq, List.drop_zero, List.take_zero, List.append_nil, Nat.zero_sub, Nat.mul_one, Nat.reduceDvd, Nat.mod_mod_of_dvd, Option.ite_none_right_eq_some,
    Option.some.injEq]
  refine ⟨Nat.mod_eq_of_lt (BitVec.isLt _), ?_⟩
  have hmods : e.seq % 4294967296 = e.seq ∧ e.ftc % 18446744073709551616 = e.ftc ∧ e.kind % 256 = e.kind ∧ e.origin % 256 = e.origin ∧
      e.size % 256 = e.size ∧ e.off % 4294967296 = e.off ∧ e.value % 18446744073709551616 = e.value := by omega
  obtain ⟨h1, h2, h3, h4, h5, h6, h7⟩ := hmods
  rw [hp, h1, h2, h3, h4, h5, h6, h7]

/-! Words that store nothing (R34). -/

section
variable {p : Pkg}

/-- R34: a write of a word of the headstock without stored bits is what it triggers. -/
theorem Pkg.applyWord_trigger {a wo st rs : Nat} (ha : a < 0x100000) (hw : wordSpec a = some ⟨0, 0, 0, wo, st, rs⟩) (v : Word) :
    p.applyWord a v = p.written ⟨.hs, 0, 0, a⟩ a (p.rd a) v := by
  have hloc : locOf a = some ⟨.hs, 0, 0, a⟩ := if_pos ha
  have hmsix : (decide (0x180000 ≤ a) && decide (a < 0x188000)) = false := by
    rw [decide_eq_false (by omega)]
    rfl
  simp only [Pkg.applyWord, hloc, hmsix, hw]
  rfl

/-- R40: a write of COMMIT commits its block. -/
theorem Pkg.applyWord_commit {k : Nat} (hk : k < 16) : p.applyWord (0x200 + 4 * k) 1#32 = p.commit k := by
  by_cases h67 : k = 6 ∨ k = 7
  · have hnone : (decide (16 ≤ k) || decide (k = 6) || decide (k = 7) || (decide (8 ≤ k) && !p.present (k - 8))) = true := by
      rcases h67 with rfl | rfl <;> rfl
    have hword : wordSpec (0x200 + 4 * k) = none := by rcases h67 with rfl | rfl <;> rfl
    have hloc : locOf (0x200 + 4 * k) = some ⟨.hs, 0, 0, 0x200 + 4 * k⟩ := if_pos (by omega)
    have hmsix : (decide (0x180000 ≤ 0x200 + 4 * k) && decide (0x200 + 4 * k < 0x188000)) = false := by
      rw [decide_eq_false (by omega)]
      rfl
    rw [show p.commit k = p from if_pos hnone]
    simp only [Pkg.applyWord, hloc, hmsix, hword]
    rfl
  · have hwords : ∀ k, k < 16 → k ≠ 6 → k ≠ 7 → wordSpec (0x200 + 4 * k) = some ⟨0, 0, 0, 1, 0, 0⟩ := by decide
    rw [Pkg.applyWord_trigger (by omega) (hwords k hk (fun h => h67 (.inl h)) (fun h => h67 (.inr h)))]
    have hgo : ¬ 0x200 + 4 * k = 0x538 := by omega
    have hrange : (decide (0x200 ≤ 0x200 + 4 * k) && decide (0x200 + 4 * k < 0x240)) = true := by
      rw [decide_eq_true (by omega), decide_eq_true (by omega)]
      rfl
    simp only [Pkg.written, if_neg hgo, hrange, if_true]
    rw [show (0x200 + 4 * k - 0x200) / 4 = k by omega]
    rfl

/-- R40: what a commit is, for a block that is there. -/
theorem Pkg.commit_eq {k : Nat} (h : k < 6 ∨ (8 ≤ k ∧ k < 16 ∧ p.present (k - 8) = true)) : p.commit k =
    let mine := p.shadow.filter (fun e => clampAt e.1 = k)
    let r := mine.foldl Pkg.commitWord { p with shadow := p.shadow.filter (fun e => !(clampAt e.1 = k)) }
    let switch := mine.any (fun e => e.1 = rFAB_RT_SWITCH.at 0 0 0 || e.1 = rFAB_RT_AT.at 0 0 0 || e.1 = rFAB_RT_AT.at 0 0 0 + 4)
    (if switch then r.commitSwitch else r).bumpWrap (rHS_CLAMP.at 0 0 k) fHS_CLAMP_COUNT := by
  have hb : (decide (16 ≤ k) || decide (k = 6) || decide (k = 7) || (decide (8 ≤ k) && !p.present (k - 8))) = false := by
    rcases h with h | ⟨h8, h16, hp⟩
    · rw [decide_eq_false (by omega), decide_eq_false (by omega), decide_eq_false (by omega), decide_eq_false (by omega)]
      rfl
    · rw [decide_eq_false (by omega), decide_eq_false (by omega), decide_eq_false (by omega), hp, decide_eq_true h8]
      rfl
  exact if_neg (by rw [hb]; exact Bool.false_ne_true)

/-- R408: 0xA5 to GO. -/
theorem Pkg.applyWord_hostReset (p : Pkg) : p.applyWord 0x538 0xA5#32 = p.hostReset := by
  have hw : wordSpec 0x538 = some ⟨0, 0, 0, 255, 0, 0⟩ := by decide
  rw [Pkg.applyWord_trigger (by decide) hw]
  rfl

theorem Pkg.hostReset_asks (hr : p.fw.inReset = false) (hq : p.fw.resetReq = none) :
    p.hostReset = { p with fw := { p.fw with resetReq := some 0x77 } } := by
  simp only [Pkg.hostReset, Pkg.wantReset, hr, hq, Bool.false_or, ne_eq, not_true, decide_false, Bool.false_eq_true, if_false]

theorem Pkg.hostReset_merged (h : p.fw.inReset = true ∨ p.fw.resetReq ≠ none) :
    p.hostReset = p.event { Event.blank 0x77 with action := 8 } := by
  have hb : (p.fw.inReset || decide (p.fw.resetReq ≠ none)) = true := by
    rw [Bool.or_eq_true, decide_eq_true_eq]
    exact h
  exact if_pos hb

/-! RING_CTX_LOAD (R367, R368). -/

theorem Pkg.ctxLoad_ring {r : Nat} (h : r < 2 ^ 15) : p.ctxLoad r = p.loadRing r := by
  simp only [Pkg.ctxLoad, show r / 2 ^ 31 % 2 = 0 by omega, show r / 2 ^ 29 % 4 = 0 by omega, show r % 2 ^ 15 = r by omega, if_true]

theorem Pkg.ctxLoad_stopRing {r : Nat} (h : r < 2 ^ 15) : p.ctxLoad (2 ^ 29 + r) = p.stopRing r := by
  simp only [Pkg.ctxLoad, show (2 ^ 29 + r) / 2 ^ 31 % 2 = 0 by omega, show (2 ^ 29 + r) / 2 ^ 29 % 4 = 1 by omega,
    show (2 ^ 29 + r) % 2 ^ 15 = r by omega, if_true, Nat.one_ne_zero, if_false]

theorem Pkg.ctxLoad_cq {c : Nat} (h : c < 2 ^ 12) : p.ctxLoad (2 ^ 31 + c) = p.loadCq c := by
  simp only [Pkg.ctxLoad, show (2 ^ 31 + c) / 2 ^ 31 % 2 = 1 by omega, show (2 ^ 31 + c) / 2 ^ 29 % 4 = 0 by omega,
    show (2 ^ 31 + c) % 2 ^ 12 = c by omega, if_true, Nat.one_ne_zero, if_false]

theorem Pkg.ctxLoad_stopCq {c : Nat} (h : c < 2 ^ 12) : p.ctxLoad (2 ^ 31 + 2 ^ 29 + c) = p.stopCq c := by
  simp only [Pkg.ctxLoad, show (2 ^ 31 + 2 ^ 29 + c) / 2 ^ 31 % 2 = 1 by omega, show (2 ^ 31 + 2 ^ 29 + c) / 2 ^ 29 % 4 = 1 by omega,
    show (2 ^ 31 + 2 ^ 29 + c) % 2 ^ 12 = c by omega, if_true, Nat.one_ne_zero, if_false]

theorem Pkg.named_err (q : Pkg) (kind op i : Nat) (err : Bool) :
    (q.named kind op i err).fld aCtxStatus fRING_CTX_STATUS_ERR = if err then 1 else 0 := by
  rw [Pkg.named, Pkg.fld_setFld _ _ _ _ (by decide)]
  cases err <;> rfl

theorem Pkg.ring_of_rings {q : Pkg} {rs : Tbl Ring} (r : Nat) (x : Ring) (h : q.rings = rs.set r x) : q.ring r = x := by
  rw [Pkg.ring, h, Tbl.getD, Tbl.find_set_self]
  rfl

theorem Pkg.cq_of_cqs {q : Pkg} {cs : Tbl Cq} (c : Nat) (x : Cq) (h : q.cqs = cs.set c x) : q.cq c = x := by
  rw [Pkg.cq, h, Tbl.getD, Tbl.find_set_self]
  rfl

/-- R368: a ring's context is loaded where the host's memory is reached and the ring is not in use. -/
theorem Pkg.loadRing_ring (p : Pkg) (r : Nat) : (p.loadRing r).ring r =
    if p.hostMem && !(p.ring r).en then
      { en := true, base := p.hostField (p.ringCtx r) 8, size := clampTo 4 16 (p.hostField (p.ringCtx r + 8) 1)
        prio := p.hostField (p.ringCtx r + 9) 1 % 4, cq := p.hostField (p.ringCtx r + 10) 2 % 4096
        head := p.hostField (p.ringCtx r + 12) 4, tail := p.hostField (p.ringCtx r + 12) 4 }
    else p.ring r := by
  cases he : (p.ring r).en <;> cases hm : p.hostMem <;> simp only [Pkg.loadRing, he, hm, Bool.not_true, Bool.not_false, Bool.and_true,
    Bool.and_false, Bool.false_eq_true, if_false, if_true]
  case false.true => exact Pkg.ring_of_rings r _ rfl
  all_goals rfl

theorem Pkg.loadRing_err (p : Pkg) (r : Nat) : (p.loadRing r).fld aCtxStatus fRING_CTX_STATUS_ERR = if (p.ring r).en then 1 else 0 := by
  cases he : (p.ring r).en <;> cases hm : p.hostMem <;> simp only [Pkg.loadRing, he, hm, Bool.not_true, Bool.not_false, Bool.false_eq_true,
    if_false, if_true, Pkg.named_err]

theorem Pkg.loadCq_cq (p : Pkg) (c : Nat) : (p.loadCq c).cq c =
    if p.hostMem && !(p.cq c).en then
      { en := true, base := p.hostField (p.cqCtx c) 8, size := clampTo 6 16 (p.hostField (p.cqCtx c + 8) 1)
        vector := p.hostField (p.cqCtx c + 10) 2, intCount := max 1 (p.hostField (p.cqCtx c + 12) 2)
        intTime := p.hostField (p.cqCtx c + 14) 2, n := 0, head := 0, uncovered := 0, since := 0 }
    else p.cq c := by
  cases he : (p.cq c).en <;> cases hm : p.hostMem <;> simp only [Pkg.loadCq, he, hm, Bool.not_true, Bool.not_false, Bool.and_true,
    Bool.and_false, Bool.false_eq_true, if_false, if_true]
  case false.true => exact Pkg.cq_of_cqs c _ rfl
  all_goals rfl

theorem Pkg.loadCq_err (p : Pkg) (c : Nat) : (p.loadCq c).fld aCtxStatus fRING_CTX_STATUS_ERR = if (p.cq c).en then 1 else 0 := by
  cases he : (p.cq c).en <;> cases hm : p.hostMem <;> simp only [Pkg.loadCq, he, hm, Bool.not_true, Bool.not_false, Bool.false_eq_true,
    if_false, if_true, Pkg.named_err]

end

/-- Settles O46: what a write of each trigger does, through the words without stored bits; an entry's bytes field by field. -/
theorem triggersAct : Obligations.TriggersAct := by
  unfold Obligations.TriggersAct
  refine ⟨fun p k hk => Pkg.applyWord_commit hk, fun p k hk => ?_, fun p => ⟨fun hr hq => ?_, fun h => ?_⟩, fun p r hr => ?_, fun p c hc => ?_,
    fun e => ⟨e.bytes_length, e.parse_bytes⟩⟩
  · intro q mine r switch
    have commits := Pkg.commit_eq hk
    exact ⟨fun hs => commits.trans (congrArg (fun q : Pkg => q.bumpWrap (rHS_CLAMP.at 0 0 k) fHS_CLAMP_COUNT) (if_neg (ne_true_of_eq_false hs))),
      fun hs => commits.trans (congrArg (fun q : Pkg => q.bumpWrap (rHS_CLAMP.at 0 0 k) fHS_CLAMP_COUNT) (if_pos hs))⟩
  · exact p.applyWord_hostReset.trans (Pkg.hostReset_asks hr hq)
  · exact p.applyWord_hostReset.trans (Pkg.hostReset_merged h)
  · intro loaded a
    rw [Pkg.ctxLoad_ring hr, Pkg.ctxLoad_stopRing hr]
    exact ⟨p.loadRing_ring r, p.loadRing_err r, Pkg.ring_of_rings r _ rfl⟩
  · intro loaded a
    rw [Pkg.ctxLoad_cq hc, Pkg.ctxLoad_stopCq hc]
    exact ⟨p.loadCq_cq c, p.loadCq_err c, Pkg.cq_of_cqs c _ rfl⟩

end Sys2Proof.Machine
end

section
/-! PROOFS. Register writes at the arbiter, configuration space, HDM decoders (R41, R356, R453, R454). -/
namespace Sys2Proof.Machine

/-! HDM decoders (R356, R360, log 13). -/

theorem hdmSlot_hdmOff {i : Nat} (f : HdmField) (hi : i < 4) : hdmSlot (hdmOff i f) = some (i, f, false) := by
  have hall : ∀ i, i < 4 → ∀ f ∈ [HdmField.base, .size, .skip, .commit], hdmSlot (hdmOff i f) = some (i, f, false) := by decide
  exact hall i hi f (by cases f <;> decide)

theorem hdmSlot_skipHigh {i : Nat} (hi : i < 4) : hdmSlot (hdmOff i .skip + 4) = some (i, .skip, true) := by
  have hall : ∀ i, i < 4 → hdmSlot (hdmOff i .skip + 4) = some (i, .skip, true) := by decide
  exact hall i hi

theorem hdmOff_base_aligned (i : Nat) : hdmOff i .base / 8 * 8 = hdmOff i .base := by
  simp only [hdmOff, aHdm]
  omega

theorem hdmOff_size_aligned (i : Nat) : hdmOff i .size / 8 * 8 = hdmOff i .size := by
  simp only [hdmOff, aHdm]
  omega

theorem hdmOff_commit_aligned (i : Nat) : hdmOff i .commit / 4 * 4 = hdmOff i .commit := by
  simp only [hdmOff, aHdm]
  omega

section
variable {p : Pkg} {i : Nat} (v : Nat)

/-- R41: a write outside the decoders is one of one or two registers. -/
theorem Pkg.takeWrite_register {w : Nat} (h : hdmSlot w = none) (wide : Bool) : p.takeWrite w wide v =
    if wide then (p.applyWord w (BitVec.ofNat 32 v)).applyWord (w + 4) (BitVec.ofNat 32 (v / 2 ^ 32)) else p.applyWord w (BitVec.ofNat 32 v) := by
  simp only [Pkg.takeWrite, h, Option.isSome_none, Bool.false_eq_true, if_false]

variable (hi : i < 4)
include hi

theorem Pkg.takeWrite_hdmBase : p.takeWrite (hdmOff i .base) true v = p.hdmSet i .base v := by
  simp only [Pkg.takeWrite, Pkg.hdmPuts, hdmSlot_hdmOff .base hi, Option.isSome_some, if_true]

theorem Pkg.takeWrite_hdmSize : p.takeWrite (hdmOff i .size) true v = p.hdmSet i .size v := by
  simp only [Pkg.takeWrite, Pkg.hdmPuts, hdmSlot_hdmOff .size hi, Option.isSome_some, if_true]

theorem Pkg.takeWrite_hdmSkip : p.takeWrite (hdmOff i .skip) false v =
    p.hdmSet i .skip ((p.hdmAt i).skip / 2 ^ 32 * 2 ^ 32 + v % 2 ^ 32) := by
  simp only [Pkg.takeWrite, Pkg.hdmPuts, Pkg.hdmPut, hdmSlot_hdmOff .skip hi, Option.isSome_some, if_true, Bool.false_eq_true, if_false, Hdm.field]

theorem Pkg.takeWrite_hdmSkipHigh : p.takeWrite (hdmOff i .skip + 4) false v =
    p.hdmSet i .skip ((p.hdmAt i).skip % 2 ^ 32 + 2 ^ 32 * (v % 2 ^ 32)) := by
  simp only [Pkg.takeWrite, Pkg.hdmPuts, Pkg.hdmPut, hdmSlot_skipHigh hi, Option.isSome_some, if_true, Hdm.field]

theorem Pkg.takeWrite_hdmCommit : p.takeWrite (hdmOff i .commit) false v = p.hdmSet i .commit (v / 2 ^ 9) := by
  simp only [Pkg.takeWrite, Pkg.hdmPuts, Pkg.hdmPut, hdmSlot_hdmOff .commit hi, Option.isSome_some, if_true]

omit hi

/-- R360: a committed decoder stands. -/
theorem Pkg.hdmSet_committed (h : (p.hdmAt i).committed = true) : p.hdmSet i .base v = p ∧ p.hdmSet i .size v = p ∧ p.hdmSet i .skip v = p :=
  ⟨if_pos h, if_pos h, if_pos h⟩

theorem Pkg.hdmSet_open (h : (p.hdmAt i).committed = false) :
    let put (x : Hdm) : Pkg := { p with port := { p.port with hdm := p.port.hdm.set i x } }
    p.hdmSet i .base v = put { p.hdmAt i with base := v % 2 ^ 64 / 2 ^ 28 * 2 ^ 28 } ∧
    p.hdmSet i .size v = put { p.hdmAt i with size := v % 2 ^ 64 / 2 ^ 28 * 2 ^ 28 } ∧
    p.hdmSet i .skip v = put { p.hdmAt i with skip := v % 2 ^ 64 / 2 ^ 28 * 2 ^ 28 } :=
  ⟨if_neg (ne_true_of_eq_false h), if_neg (ne_true_of_eq_false h), if_neg (ne_true_of_eq_false h)⟩

/-- R360: a decoder commits after those before it. -/
theorem Pkg.hdmSet_commit : p.hdmSet i .commit v =
    if v % 2 = 0 then { p with port := { p.port with hdm := p.port.hdm.set i { p.hdmAt i with committed := false } } }
    else if ∀ j, j < i → (p.hdmAt j).committed = true then
      { p with port := { p.port with hdm := p.port.hdm.set i { p.hdmAt i with committed := true } } }
    else p := by
  simp only [Pkg.hdmSet, List.all_eq_true, List.mem_range]

end

/-! Configuration space (R356). -/

theorem Pkg.cfgWrite_up {p : Pkg} (h : p.linkUp = true) (f : CfgField) (b : Bool) : p.cfgWrite f b = { p with port := match f with
    | .memSpace => { p.port with memSpace := b }
    | .busMaster => { p.port with busMaster := b }
    | .cacheEn => { p.port with cacheEn := b }
    | .memEn => { p.port with memEn := b }
    | .msixEn => { p.port with msixEn := b } } := by
  refine (if_neg ?_).trans ?_
  · rw [h]
    exact Bool.false_ne_true
  · cases f <;> rfl

theorem Pkg.barWrite_up {p : Pkg} (h : p.linkUp = true) (two : Bool) (v : Nat) : p.barWrite two v =
    if two then { p with port := { p.port with bar2 := v % 2 ^ 64 / 2 ^ 19 * 2 ^ 19 } }
    else { p with port := { p.port with bar0 := v % 2 ^ 64 / 2 ^ 26 * 2 ^ 26 } } :=
  if_neg (by rw [h]; exact Bool.false_ne_true)

theorem portCtrl_aligned (i : Nat) : rFAB_PORT_CTRL.at 0 0 i / 4 * 4 = rFAB_PORT_CTRL.at 0 0 i := by
  have hat : rFAB_PORT_CTRL.at 0 0 i = 0x200010 + 4 * i := rfl
  rw [hat]
  omega

theorem ctxLoad_aligned : aCtxLoad / 4 * 4 = aCtxLoad := by decide

/-- R453: the command of the host's write to a field of a decoder. -/
theorem exec_hdm (s : State) {i : Nat} (hi : i < 4) (f : HdmField) (v : Nat) {g : Pkg → Pkg}
    (hg : ∀ p : Pkg, (match f with
      | .commit => p.access (hdmOff i .commit) 4 (2 ^ 9 * (v % 2)) .bar0
      | .skip => (p.access (hdmOff i .skip) 4 v .bar0).access (hdmOff i .skip + 4) 4 (v / 2 ^ 32) .bar0
      | f => p.access (hdmOff i f) 8 v .bar0) = g p) :
    exec (.registerWrite (.hdm i f v)) s = s.inPower (.registerWrite (.hdm i f v)) g := by
  have runs : exec (.registerWrite (.hdm i f v)) s = s.inPower (.registerWrite (.hdm i f v)) (fun p => p.hdmWrite i f v) := rfl
  have hw : (fun p : Pkg => p.hdmWrite i f v) = g := by
    funext p
    rw [← hg p]
    refine (if_neg (Nat.not_le.mpr hi)).trans ?_
    cases f <;> rfl
  rw [runs, hw]

/-- Settles O45: each command that writes a register is one access of the arbiter; configuration space; the decoders by their state. -/
theorem registerWritesArrive : Obligations.RegisterWritesArrive := by
  unfold Obligations.RegisterWritesArrive
  intro s o off k i v hp hk hi p writes full
  refine ⟨?_, ?_, fun q w hw => ⟨?_, ?_⟩, fun hl b => ?_, fun hl => ?_, fun q => ?_⟩
  · intro x hx
    simp only [writes, List.mem_cons, List.not_mem_nil, or_false] at hx
    rcases hx with rfl | rfl | rfl | rfl | rfl | rfl | rfl | rfl | rfl | rfl | rfl | rfl
    · intro w
      refine access_runs (i := .commit k o) (o := o) (off := 0x200 + 4 * (k % 16)) (v := 1) (size := 4) hp w rfl rfl ?_ rfl rfl rfl
      rw [Nat.mod_eq_of_lt hk]
      show (0x200 + 4 * k) / 4 * 4 = 0x200 + 4 * k
      omega
    · intro w
      exact access_runs (i := .hostReset o) (o := o) (off := 0x538) (v := 0xA5) (size := 4) hp w rfl rfl (show 0x538 / 4 * 4 = 0x538 by decide) rfl rfl rfl
    · intro w
      refine access_runs (i := .retrain i v o) (o := o) (off := rFAB_PORT_CTRL.at 0 0 (i % 4)) (v := v ||| 0x100) (size := 4) hp w rfl rfl ?_
        rfl rfl rfl
      rw [Nat.mod_eq_of_lt hi]
      exact portCtrl_aligned i
    · intro w
      refine access_runs (i := .commandRingLoad v o) (o := o) (off := aCtxLoad) (v := v % 2 ^ 15) (size := 4) hp w rfl rfl ctxLoad_aligned ?_ rfl rfl
      exact Nat.mod_eq_of_lt (show v % 2 ^ 15 < 2 ^ 32 by omega)
    · intro w
      refine access_runs (i := .commandRingDisable v o) (o := o) (off := aCtxLoad) (v := 2 ^ 29 + v % 2 ^ 15) (size := 4) hp w rfl rfl ctxLoad_aligned ?_ rfl rfl
      exact Nat.mod_eq_of_lt (show 2 ^ 29 + v % 2 ^ 15 < 2 ^ 32 by omega)
    · intro w
      refine access_runs (i := .completionRingLoad v o) (o := o) (off := aCtxLoad) (v := 2 ^ 31 + v % 2 ^ 12) (size := 4) hp w rfl rfl ctxLoad_aligned ?_ rfl rfl
      exact Nat.mod_eq_of_lt (show 2 ^ 31 + v % 2 ^ 12 < 2 ^ 32 by omega)
    · intro w
      refine access_runs (i := .completionRingDisable v o) (o := o) (off := aCtxLoad) (v := 2 ^ 31 + 2 ^ 29 + v % 2 ^ 12) (size := 4) hp w rfl rfl
        ctxLoad_aligned ?_ rfl rfl
      exact Nat.mod_eq_of_lt (show 2 ^ 31 + 2 ^ 29 + v % 2 ^ 12 < 2 ^ 32 by omega)
    · intro w
      exact access_runs (i := .registerWrite (.bar off 4 v o)) (o := o) (off := off) (v := v) (size := 4) hp w rfl rfl rfl rfl rfl rfl
    · intro w
      exact access_runs (i := .registerWrite (.bar off 8 v o)) (o := o) (off := off) (v := v) (size := 8) hp w rfl rfl rfl rfl rfl rfl
    · intro w
      exact access_runs (size := 8) hp w (exec_hdm s hi .base v (fun _ => rfl)) rfl (hdmOff_base_aligned i) rfl rfl rfl
    · intro w
      exact access_runs (size := 8) hp w (exec_hdm s hi .size v (fun _ => rfl)) rfl (hdmOff_size_aligned i) rfl rfl rfl
    · intro w
      refine access_runs (size := 4) hp w (exec_hdm s hi .commit v (fun _ => rfl)) rfl (hdmOff_commit_aligned i) ?_ rfl rfl
      exact Nat.mod_eq_of_lt (show 2 ^ 9 * (v % 2) < 2 ^ 32 by omega)
  · exact State.inPower_runsTo hp (exec_hdm s hi .skip v (fun _ => rfl)) rfl
  · exact Pkg.takeWrite_register v hw false
  · exact Pkg.takeWrite_register v hw true
  · have sets (f : CfgField) {d} (h : p.cfgWrite f b = d) : RunsTo (.registerWrite (.cfg f b)) s d :=
      State.inPower_runsTo (f := fun p => p.cfgWrite f b) hp rfl h
    exact ⟨sets .memSpace (Pkg.cfgWrite_up hl _ b), sets .busMaster (Pkg.cfgWrite_up hl _ b), sets .cacheEn (Pkg.cfgWrite_up hl _ b),
      sets .memEn (Pkg.cfgWrite_up hl _ b), sets .msixEn (Pkg.cfgWrite_up hl _ b)⟩
  · exact ⟨State.inPower_runsTo (f := fun p => p.barWrite false v) hp rfl (Pkg.barWrite_up hl false v),
      State.inPower_runsTo (f := fun p => p.barWrite true v) hp rfl (Pkg.barWrite_up hl true v)⟩
  · intro d put v28
    rw [Pkg.takeWrite_hdmBase v hi, Pkg.takeWrite_hdmSize v hi, Pkg.takeWrite_hdmSkip v hi, Pkg.takeWrite_hdmSkipHigh v hi,
      Pkg.takeWrite_hdmCommit v hi]
    refine ⟨fun h => ?_, fun h => ?_, fun hv hb => ?_, fun hv hb => ?_, fun hv => ?_⟩
    · exact ⟨(Pkg.hdmSet_committed v h).1, (Pkg.hdmSet_committed v h).2.1, (Pkg.hdmSet_committed _ h).2.2, (Pkg.hdmSet_committed _ h).2.2⟩
    · exact ⟨(Pkg.hdmSet_open v h).1, (Pkg.hdmSet_open v h).2.1, (Pkg.hdmSet_open _ h).2.2, (Pkg.hdmSet_open _ h).2.2⟩
    · rw [Pkg.hdmSet_commit, if_neg (by omega)]
      exact if_pos hb
    · rw [Pkg.hdmSet_commit, if_neg (by omega)]
      obtain ⟨j, hj, hc⟩ := hb
      exact if_neg (fun h => ne_true_of_eq_false hc (h j hj))
    · rw [Pkg.hdmSet_commit]
      exact if_pos hv

end Sys2Proof.Machine
end

section
/-! PROOFS. What the package's services leave as they are: the command table and the FTC. Registers, counters, events, memory through the bench
caches, the fabric's outputs and traces neither enter, end nor change a command, and no time passes in them. -/
namespace Sys2Proof.Machine

/-- What runs: the command table and the FTC. -/
def Pkg.run (p : Pkg) : Tbl Cmd × Ftc := (p.cmds, p.ftc)

theorem Pkg.run_eq {p q : Pkg} (h : q.run = p.run) : q.cmds = p.cmds ∧ q.ftc = p.ftc := Prod.mk.inj h

theorem foldl_run {α : Type} {g : Pkg → α → Pkg} (h : ∀ p x, (g p x).run = p.run) (l : List α) (p : Pkg) : (l.foldl g p).run = p.run := by
  induction l generalizing p with
  | nil => rfl
  | cons x l ih => exact (ih (g p x)).trans (h p x)

/-- Of two ways that keep what runs, either does. -/
theorem ite_run {c : Prop} [Decidable c] {p q r : Pkg} (hq : q.run = p.run) (hr : r.run = p.run) : (if c then q else r).run = p.run := by
  split
  · exact hq
  · exact hr

section
variable (p : Pkg)

/-! Registers, dies, outputs (R10, R420 to R422). -/

@[simp] theorem Pkg.wr_run (a : Nat) (v : Word) : (p.wr a v).run = p.run := rfl
@[simp] theorem Pkg.wr64_run (a v : Nat) : (p.wr64 a v).run = p.run := rfl
@[simp] theorem Pkg.setFld_run (a : Nat) (f : Fld) (x : Nat) : (p.setFld a f x).run = p.run := rfl
@[simp] theorem Pkg.bumpSat_run (a : Nat) (f : Fld) : (p.bumpSat a f).run = p.run := rfl
@[simp] theorem Pkg.updDie_run (n : Nat) (f : Die → Die) : (p.updDie n f).run = p.run := rfl
@[simp] theorem Pkg.countDie_run (n i k : Nat) (ids : Ids) : (p.countDie n i k ids).run = p.run := rfl
@[simp] theorem Pkg.emit_run (o : Output) : (p.emit o).run = p.run := rfl
@[simp] theorem Pkg.updPort_run (i : Nat) (f : Port → Port) : (p.updPort i f).run = p.run := rfl
@[simp] theorem Pkg.updGroup_run (i g : Nat) (f : Group → Group) : (p.updGroup i g f).run = p.run := rfl
@[simp] theorem Pkg.setTx_run (i g : Nat) (x : TxPart) : (p.setTx i g x).run = p.run := rfl
@[simp] theorem Pkg.hostWrite_run (a : Nat) (bs : List Byte) : (p.hostWrite a bs).run = p.run := rfl
@[simp] theorem Pkg.progress_run (job : Nat) : (p.progress job).run = p.run := rfl

@[simp] theorem Pkg.raiseVector_run (v : Nat) : (p.raiseVector v).run = p.run := by
  unfold Pkg.raiseVector
  exact ite_run rfl (ite_run rfl rfl)

theorem Pkg.gained_run (n : Nat) (old new : Core) : (p.gained n old new).run = p.run := by
  refine foldl_run (fun p e => ite_run rfl ?_) _ _
  cases lineIndex e.1 <;> rfl

/-- The act of a core. -/
@[simp] theorem Pkg.onKey_run (k : Nat) (f : Core → Core) : (p.onKey k f).run = p.run :=
  (Pkg.gained_run _ _ _ _).trans rfl

/-! Events (R387, R388, R442, R453). -/

@[simp] theorem Pkg.jput_run (kind origin size : Nat) (persist : Bool) (off value : Nat) :
    (p.jput kind origin size persist off value).run = p.run := by
  unfold Pkg.jput
  exact ite_run rfl rfl

@[simp] theorem Pkg.sendEvent_run (k seq : Nat) : (p.sendEvent k seq).run = p.run := by
  unfold Pkg.sendEvent
  split <;> rfl

@[simp] theorem Pkg.toCollector_run (seq k : Nat) : (p.toCollector seq k).run = p.run := by
  unfold Pkg.toCollector
  exact ite_run (Pkg.sendEvent_run _ _ _) rfl

/-- An update of the firmware's state. -/
@[simp] theorem Pkg.run_fw (x : Fw) : ({ p with fw := x } : Pkg).run = p.run := rfl

theorem Pkg.eventFrom_run (t : Nat) (e : Event) : (p.eventFrom t e).run = p.run := by
  have collectors (p : Pkg) (ks : List Nat) (seq : Nat) : (ks.foldl (fun p k => p.toCollector seq k) p).run = p.run :=
    foldl_run (fun p k => p.toCollector_run seq k) ks p
  unfold Pkg.eventFrom
  extract_lets e fw p1 p2 p3 p4 sz idx p5 p6
  have h2 : p2.run = p.run := (Pkg.jput_run _ _ _ _ _ _ _).trans rfl
  have h3 : p3.run = p.run := ite_run ((collectors _ _ _).trans h2) h2
  have h4 : p4.run = p.run := ite_run ((Pkg.emit_run _ _).trans h3) h3
  have h6 : p6.run = p.run := (Pkg.setFld_run _ _ _ _).trans ((Pkg.hostWrite_run _ _ _).trans h4)
  exact ite_run (ite_run ((Pkg.raiseVector_run _ _).trans h6) h6) h4

@[simp] theorem Pkg.event_run (e : Event) : (p.event e).run = p.run := p.eventFrom_run _ e

@[simp] theorem Pkg.flag_run (reason : Nat) : (p.flag reason).run = p.run := by
  simp only [Pkg.flag, Pkg.fwSet, Pkg.event_run, Pkg.jput_run, Pkg.setFld_run]

/-! The tracker and the bench caches (R182 to R184, R200 to R203, R223 to R225, R361). -/

@[simp] theorem Pkg.sendSnoop_run (line : Nat) (write : Bool) : (p.sendSnoop line write).run = p.run := by
  unfold Pkg.sendSnoop
  exact ite_run rfl rfl

@[simp] theorem Pkg.touch_run (n line : Nat) (write : Bool) : (p.touch n line write).run = p.run := by
  unfold Pkg.touch
  refine ite_run rfl (ite_run rfl ?_)
  split <;> rfl


theorem Pkg.askFold_run (w : Requester) (k : Asks) (l : List (Nat × Nat)) : (Pkg.askFold w k l p).1.run = p.run := by
  induction l generalizing p with
  | nil => rfl
  | cons x xs ih =>
    unfold Pkg.askFold
    split
    · exact ih p
    · split
      · exact ih p
      · split
        · rfl
        · exact (ih _).trans rfl

@[simp] theorem Pkg.useGrants_run (w : Requester) : (p.useGrants w).run = p.run := by
  unfold Pkg.useGrants Pkg.useGrantsBy
  refine foldl_run (fun p n => ?_) _ _
  split <;> rfl

@[simp] theorem Pkg.askAll_run (w : Requester) (rd wr : List (Nat × Nat)) (k kw : Asks) : (p.askAll w rd wr k kw).1.run = p.run := by
  unfold Pkg.askAll
  have hr := p.askFold_run w k rd
  have hw := (Pkg.askFold w k rd p).1.askFold_run w kw wr
  dsimp only
  split
  · exact hr
  · split
    · exact (Pkg.useGrants_run _ _).trans (hw.trans hr)
    · exact hw.trans hr

@[simp] theorem Pkg.writeBack_run (n line : Nat) (b : BLine) : (p.writeBack n line b).run = p.run := by
  unfold Pkg.writeBack
  exact ite_run rfl rfl

@[simp] theorem Pkg.evict_run (n line : Nat) : (p.evict n line).run = p.run := by
  unfold Pkg.evict
  split
  · rfl
  · refine ite_run rfl ?_
    split
    · rfl
    · exact (Pkg.writeBack_run _ _ _ _).trans rfl

@[simp] theorem Pkg.install_run (n line : Nat) (b : BLine) : (p.install n line b).run = p.run := by
  unfold Pkg.install
  refine (Pkg.updDie_run _ _ _).trans (ite_run ?_ rfl)
  split
  · exact p.evict_run n _
  · rfl

@[simp] theorem Pkg.memUE_run (n m line src tag : Nat) (ids : Ids) : (p.memUE n m line src tag ids).run = p.run := by
  simp only [Pkg.memUE, apply_ite Pkg.run, ite_self, Pkg.flag_run, Pkg.event_run, Pkg.run_fw]

@[simp] theorem Pkg.logUE_run (n line src tag : Nat) (ids : Ids) : (p.logUE n line src tag ids).run = p.run := by
  simp only [Pkg.logUE, Pkg.memUE_run, apply_ite Pkg.run, ite_self, Pkg.setFld_run, Pkg.wr_run, Pkg.wr64_run, Pkg.bumpSat_run]

@[simp] theorem Pkg.countHit_run (n line : Nat) : (p.countHit n line).run = p.run := by
  unfold Pkg.countHit
  exact ite_run rfl rfl

@[simp] theorem Pkg.fillLine_run (n line src tag : Nat) (alloc : Bool) (ids : Ids) : (p.fillLine n line src tag alloc ids).1.run = p.run := by
  unfold Pkg.fillLine
  split
  · split
    · exact p.logUE_run n line src tag ids
    · rfl
  · split
    · exact p.logUE_run n line src tag ids
    · exact ite_run (Pkg.install_run _ _ _ _) rfl
    · exact ite_run (Pkg.install_run _ _ _ _) rfl

@[simp] theorem Pkg.readLine_run (n line src tag : Nat) (ids : Ids) : (p.readLine n line src tag ids).1.run = p.run := by
  simp only [Pkg.readLine, Pkg.fillLine_run, Pkg.countHit_run, Pkg.touch_run]

@[simp] theorem Pkg.writeLine_run (n a : Nat) (bs : List Byte) (src tag : Nat) (ids : Ids) : (p.writeLine n a bs src tag ids).run = p.run := by
  unfold Pkg.writeLine
  extract_lets line p1 whole data stored p2
  have h1 : p1.run = p.run := (Pkg.countHit_run _ _ _).trans (Pkg.touch_run _ _ _ _)
  have h2 : p2.run = p.run := by
    unfold p2
    generalize stored = x
    rcases x with _ | _ | _
    · exact h1
    · exact (Pkg.bumpSat_run _ _ _).trans h1
    · exact (Pkg.logUE_run _ _ _ _ _ _).trans h1
  split
  · exact (Pkg.install_run _ _ _ _).trans h1
  · exact ite_run ((Pkg.install_run _ _ _ _).trans h2) h2

@[simp] theorem Pkg.countMem_run (n a k : Nat) (write : Bool) (ids : Ids) : (p.countMem n a k write ids).run = p.run := rfl

@[simp] theorem Pkg.write_run (a : Nat) (bs : List Byte) (ids : Ids) (tag : Nat) : (p.write a bs ids tag).run = p.run := by
  have lines (xs : List (Nat × Nat)) : (xs.foldl (fun p x => match p.owner x.1 with
      | some n => (p.writeLine n x.1 ((bs.drop (x.1 - a)).take x.2) 7 tag ids).countMem n x.1 x.2 true ids
      | none => p) p).run = p.run := by
    refine foldl_run (fun p x => ?_) xs p
    split
    · exact (Pkg.countMem_run _ _ _ _ _ _).trans (Pkg.writeLine_run _ _ _ _ _ _ _)
    · rfl
  unfold Pkg.write
  split
  · split
    · exact p.onKey_run _ _
    · rfl
  · rfl
  · exact lines _

@[simp] theorem Pkg.noteWindow_run (a n : Nat) : (p.noteWindow a n).run = p.run := by
  unfold Pkg.noteWindow
  split
  · split
    · exact ite_run (p.onKey_run _ _) rfl
    · rfl
  · rfl

theorem Pkg.readFold_run (src tag : Nat) (ids : Ids) (l : List (Nat × Nat)) (acc : List Byte) : (Pkg.readFold src tag ids l p acc).1.run = p.run := by
  induction l generalizing p acc with
  | nil => rfl
  | cons x xs ih =>
    unfold Pkg.readFold
    split
    · split
      · exact p.noteWindow_run _ _
      · exact ih p _
    · next n _ =>
      have line := p.readLine_run n (lineOf x.1) src tag ids
      generalize p.readLine n (lineOf x.1) src tag ids = r at line
      obtain ⟨q, ok⟩ := r
      have counted : (q.countMem n x.1 x.2 false ids).run = p.run := (Pkg.countMem_run _ _ _ _ _ _).trans line
      cases ok
      · exact counted
      · exact (ih _ _).trans counted

@[simp] theorem Pkg.readAt_run (a n src tag : Nat) (ids : Ids) : (p.readAt a n src tag ids).1.run = p.run := p.readFold_run _ _ _ _ _

/-! Posted records, rings, traces (R302, R428 to R430). -/

@[simp] theorem Pkg.stillThere_run (x : Posted) : (p.stillThere x).1.run = p.run := by
  unfold Pkg.stillThere
  split
  · rfl
  · next old _ =>
    have reads := p.readAt_run x.addr old.length 5 0 .absent
    split <;> next h => exact (congrArg (fun r => Pkg.run r.1) h).symm.trans reads

@[simp] theorem Pkg.landRecord_run (x : Posted) : (p.landRecord x).run = p.run := by
  have lands : (if (p.stillThere x).2 then (p.stillThere x).1.write x.addr x.data .absent else (p.stillThere x).1).run = p.run :=
    ite_run ((Pkg.write_run _ _ _ _ _).trans (p.stillThere_run x)) (p.stillThere_run x)
  unfold Pkg.landRecord
  dsimp only
  split
  · exact (Pkg.wr_run _ _ _).trans lands
  · exact lands

@[simp] theorem Pkg.landPosted_run (fuel : Nat) : (Pkg.landPosted fuel p).run = p.run := by
  induction fuel generalizing p with
  | zero => rfl
  | succ fuel ih =>
    unfold Pkg.landPosted
    split
    · rfl
    · split
      · exact p.sendSnoop_run _ _
      · refine ite_run rfl (ite_run ?_ (p.askAll_run _ _ _ _ _))
        exact (ih _).trans ((Pkg.landRecord_run _ _).trans (p.askAll_run _ _ _ _ _))

@[simp] theorem Pkg.post_run (x : Posted) : (p.post x).run = p.run := (Pkg.landPosted_run _ _).trans rfl

@[simp] theorem Pkg.ringWrite_run (sp a : Nat) (bs : List Byte) (head : Option (Nat × Nat)) : (p.ringWrite sp a bs head).run = p.run := by
  unfold Pkg.ringWrite
  refine ite_run ?_ (p.post_run _)
  cases head <;> rfl

@[simp] theorem Pkg.tracePut_run (bs : List Byte) : (p.tracePut bs).1.run = p.run := by
  unfold Pkg.tracePut
  extract_lets size head tail us used sp q fw
  rw [apply_ite Prod.fst]
  exact ite_run rfl ((Pkg.run_fw _ _).trans (Pkg.ringWrite_run _ _ _ _ _))

@[simp] theorem Pkg.traceDrop_run : p.traceDrop.run = p.run := rfl

/-- The trace events lost until now are told first. -/
theorem Pkg.traceTold_run {q : Pkg × Bool} (hq : q.1.run = p.run) :
    (if p.fw.trcLost = 0 then (p, true) else if q.2 then ({ q.1 with fw := { q.1.fw with trcLost := 0 } }, true) else (p, false) : Pkg × Bool).1.run
      = p.run := by
  split
  · rfl
  · split
    · exact hq
    · rfl

@[simp] theorem Pkg.trace_run (kind die core code job ring tag : Nat) (ids : Ids) (detail : Nat) :
    (p.trace kind die core code job ring tag ids detail).run = p.run := by
  unfold Pkg.trace
  refine ite_run rfl (ite_run rfl (ite_run rfl (ite_run (ite_run ?_ ?_) ?_)))
  · exact (Pkg.tracePut_run _ _).trans (p.traceTold_run (Pkg.tracePut_run _ _))
  · exact (Pkg.traceDrop_run _).trans (p.traceTold_run (Pkg.tracePut_run _ _))
  · exact p.traceDrop_run

@[simp] theorem Pkg.traceCmd_run (c : Cmd) (kind code detail : Nat) : (p.traceCmd c kind code detail).run = p.run := p.trace_run _ _ _ _ _ _ _ _ _

/-! Frames and flits (R291, R298 to R305, R310). -/

@[simp] theorem Pkg.idleFlit_run (i g k : Nat) (replay : Bool) : (p.idleFlit i g k replay).run = p.run := rfl

@[simp] theorem Pkg.freeUnits_run (i : Nat) (f : Frame) (vc : Nat) : (p.freeUnits i f vc).run = p.run := by
  unfold Pkg.freeUnits
  refine ite_run rfl ?_
  dsimp only
  split
  · exact (Pkg.idleFlit_run _ _ _ _ _).trans (Pkg.updPort_run _ _ _)
  · rfl

@[simp] theorem Pkg.sendFlit_run (i g no : Nat) (data : List Byte) (ends : List Nat) : (p.sendFlit i g no data ends).run = p.run :=
  (Pkg.emit_run _ _).trans (Pkg.updGroup_run _ _ _ _)

@[simp] theorem Pkg.wholeFlits_run (i g fuel : Nat) (x : TxPart) : (Pkg.wholeFlits i g fuel x p).run = p.run := by
  induction fuel generalizing x p with
  | zero => rfl
  | succ fuel ih =>
    unfold Pkg.wholeFlits
    exact ite_run rfl ((ih _ _).trans (p.sendFlit_run _ _ _ _ _))

@[simp] theorem Pkg.fillUp_run (i g : Nat) : (p.fillUp i g).run = p.run := by
  unfold Pkg.fillUp
  exact ite_run rfl ((Pkg.setTx_run _ _ _ _).trans (p.sendFlit_run _ _ _ _ _))

@[simp] theorem Pkg.sendOn_run (i g no : Nat) (f : Frame) (ids : Ids) : (p.sendOn i g no f ids).run = p.run := by
  unfold Pkg.sendOn
  extract_lets x p1 x1 bytes p2
  have h1 : p1.run = p.run := ite_run rfl (p.fillUp_run i g)
  exact (Pkg.countDie_run _ _ _ _ _).trans ((Pkg.wholeFlits_run _ _ _ _ _).trans ((Pkg.updPort_run _ _ _).trans h1))

@[simp] theorem Pkg.toGroup_run (i input g : Nat) (f : Frame) : (p.toGroup i input g f).run = p.run := by
  unfold Pkg.toGroup
  exact ite_run rfl (Pkg.countDie_run _ _ _ _ _)

@[simp] theorem Pkg.transmit_run (i : Nat) (e : OutFrame) : (p.transmit i e).run = p.run := by
  unfold Pkg.transmit
  exact (Pkg.freeUnits_run _ _ _ _).trans ((Pkg.sendOn_run _ _ _ _ _ _).trans ((Pkg.toGroup_run _ _ _ _ _).trans (Pkg.updPort_run _ _ _)))

@[simp] theorem Pkg.drainOut_run (i fuel : Nat) : (Pkg.drainOut i fuel p).run = p.run := by
  induction fuel generalizing p with
  | zero => rfl
  | succ fuel ih =>
    unfold Pkg.drainOut
    refine ite_run rfl ?_
    split
    · exact ite_run ((ih _).trans ((Pkg.sendOn_run _ _ _ _ _ _).trans (Pkg.updPort_run _ _ _))) rfl
    · split
      · rfl
      · exact (ih _).trans ((Pkg.transmit_run _ _ _).trans (Pkg.updPort_run _ _ _))

@[simp] theorem Pkg.serve_run (i : Nat) : (p.serve i).run = p.run := p.drainOut_run i _

@[simp] theorem Pkg.output_run (i : Nat) (e : OutFrame) : (p.output i e).run = p.run := (Pkg.serve_run _ i).trans (p.updPort_run i _)

@[simp] theorem Pkg.launch_run (f : Frame) : (p.launch f).run = p.run := by
  unfold Pkg.launch
  refine ite_run rfl ?_
  split
  · exact p.output_run _ _
  · rfl
  · exact ite_run rfl rfl

@[simp] theorem Pkg.inject_run (f : Frame) : (p.inject f).run = p.run := by
  unfold Pkg.inject
  exact ite_run rfl (p.launch_run _)

/-! Signals (R160 to R163, R366). -/

@[simp] theorem Pkg.sendPsig_run (core : Option Nat) (f : Frame) : (p.sendPsig core f).run = p.run := by
  unfold Pkg.sendPsig
  exact ite_run rfl ((Pkg.inject_run _ _).trans rfl)

@[simp] theorem Pkg.addLocal_run (n c q k : Nat) : (p.addLocal n c q k).run = p.run := by
  unfold Pkg.addLocal
  split
  · exact p.onKey_run _ _
  · rfl

@[simp] theorem Pkg.signalPeg_run (core : Option Nat) (die job tag scope target k : Nat) :
    (p.signalPeg core die job tag scope target k).run = p.run := by
  unfold Pkg.signalPeg
  exact ite_run (p.addLocal_run _ _ _ _) (ite_run (ite_run rfl rfl) (p.sendPsig_run _ _))

@[simp] theorem Pkg.applySignal_run (c : Cmd) : (p.applySignal c).run = p.run := by
  unfold Pkg.applySignal
  exact ite_run (p.signalPeg_run _ _ _ _ _ _ _) rfl

/-! What the end of a command leaves of it (R272, R285, R349). -/

@[simp] theorem Pkg.collLost_run (c : Cmd) : (p.collLost c).run = p.run := by
  unfold Pkg.collLost
  refine foldl_run (fun q r => ?_) _ p
  rfl

@[simp] theorem Pkg.rewriteRecord_run (place : Option Nat) (old new : List Byte) : (p.rewriteRecord place old new).run = p.run := by
  cases place <;> rfl

@[simp] theorem Pkg.collEnded_run (c : Cmd) (status : Nat) : (p.collEnded c status).run = p.run := by
  unfold Pkg.collEnded
  refine ite_run rfl ?_
  extract_lets p1 p2
  have h2 : p2.run = p.run := ite_run ((Pkg.collLost_run _ _).trans (Pkg.updDie_run _ _ _)) (Pkg.updDie_run _ _ _)
  exact ite_run ((Pkg.rewriteRecord_run _ _ _ _).trans h2) (ite_run ((Pkg.run_fw _ _).trans h2) h2)

end

end Sys2Proof.Machine
end

section
/-! PROOFS. The end of a command (O32). -/
namespace Sys2Proof.Machine

/-- What is done for a command as it ends: its signal, its collective's traces, its counter and its job's progress. -/
def Pkg.atEnd (p : Pkg) (c : Cmd) (status : Nat) : Pkg :=
  let q := (if signals status then p.applySignal c else p).collEnded c status
  (q.countDie (q.countedOn c) 30 1 c.ids).progress c.job

theorem Pkg.atEnd_run (p : Pkg) (c : Cmd) (status : Nat) : (p.atEnd c status).run = p.run := by
  unfold Pkg.atEnd
  extract_lets q
  have hq : q.run = p.run := (Pkg.collEnded_run _ _ _).trans (ite_run (p.applySignal_run c) rfl)
  exact (Pkg.progress_run _ _).trans ((Pkg.countDie_run _ _ _ _ _).trans hq)

theorem Pkg.finish_eq {p : Pkg} {k : Nat} {c : Cmd} (hc : p.cmds.find k = some c) (status d0 d1 : Nat) :
    p.finish k status d0 d1 =
      let el := match c.fire with | some t => min (p.ftc.now - t) 0xFFFFFFFF | none => 0
      let q := p.atEnd c status
      let r := q.traceCmd c 3 status el
      if c.fin ≠ none then p
      else if c.nocq && status = 0 then { q with cmds := q.cmds.del k }
      else { r with cmds := r.cmds.set k { c with stage := .done, fin := some ⟨status, d0, d1, el, r.point, 0⟩ } } := by
  unfold Pkg.finish
  rw [hc]
  rfl

/-- An ended command stays as it ended. -/
theorem Pkg.finish_ended {p : Pkg} {k : Nat} {c : Cmd} (hc : p.cmds.find k = some c) (status d0 d1 : Nat) (ended : c.fin ≠ none) :
    p.finish k status d0 d1 = p := (Pkg.finish_eq hc status d0 d1).trans (if_pos ended)

/-- The table after the end of a command. -/
theorem Pkg.finish_cmds {p : Pkg} {k : Nat} {c : Cmd} (hc : p.cmds.find k = some c) (status d0 d1 : Nat) (runs : c.fin = none) :
    (p.finish k status d0 d1).cmds =
      let el := match c.fire with | some t => min (p.ftc.now - t) 0xFFFFFFFF | none => 0
      if c.nocq && status = 0 then p.cmds.del k
      else p.cmds.set k { c with stage := .done, fin := some ⟨status, d0, d1, el, p.point, 0⟩ } := by
  let el := match c.fire with | some t => min (p.ftc.now - t) 0xFFFFFFFF | none => 0
  obtain ⟨ended, -⟩ := Pkg.run_eq (p.atEnd_run c status)
  obtain ⟨traced, now⟩ := Pkg.run_eq ((Pkg.traceCmd_run (p.atEnd c status) c 3 status el).trans (p.atEnd_run c status))
  rw [Pkg.finish_eq hc]
  dsimp only
  rw [if_neg (fun h => h runs)]
  split
  · exact congrArg (Tbl.del · k) ended
  · have point : ((p.atEnd c status).traceCmd c 3 status el).point = p.point := congrArg (fun f : Ftc => (f.now + 7) / 8) now
    exact congr (congrArg (fun (t : Tbl Cmd) (pt : Nat) => t.set k { c with stage := .done, fin := some ⟨status, d0, d1, el, pt, 0⟩ }) traced) point

/-- What a failure leaves of an earlier one. -/
theorem Pkg.failCmd_fail {p : Pkg} {k : Nat} {c : Cmd} (hc : p.cmds.find k = some c) (status d0 d1 core : Nat) :
    ((p.failCmd k status d0 d1 core).cmds.find k).bind (fun c => c.fail) =
      let e : Ending := ⟨status, d0, d1, 0, p.point, core⟩
      some (match c.fail with | none => e | some old => old.first e) := by
  unfold Pkg.failCmd Pkg.updCmd
  rw [hc]
  simp only [Tbl.find_set_self, Option.bind_some] <;> rfl

theorem Ending.first_eq (old new : Ending) : old.first new =
    if old.point = new.point ∧ (endingRank new.status < endingRank old.status ∨
      (endingRank new.status = endingRank old.status ∧ new.core < old.core)) then new else old := by
  simp only [Ending.first, Bool.and_eq_true, Bool.or_eq_true, decide_eq_true_eq]

/-- Settles O32: an end keeps its status in the table, or leaves it at once; what goes before it (signal, collective, counter, trace) leaves
the table and the FTC alone. -/
theorem commandsEnd : Obligations.CommandsEnd := by
  intro p k status d0 d1 core c hc
  refine ⟨Pkg.finish_cmds hc status d0 d1, Pkg.finish_ended hc status d0 d1, ?_⟩
  have failed := Pkg.failCmd_fail hc status d0 d1 core
  refine ⟨fun none => failed.trans ?_, fun old was => failed.trans ?_⟩
  · rw [none]
    rfl
  · rw [was]
    exact congrArg some (old.first_eq _)

end Sys2Proof.Machine
end

section
/-! PROOFS. The fabric time counter (O44): steering, slewing, HOLDOVER, the grandmaster, bank switches and latched reads. -/
namespace Sys2Proof.Machine

/-! A TSYNC that arrives (R317, R319). -/

/-- A TSYNC counted and stamped, and its port's groups marked. -/
def Pkg.stamped (p : Pkg) (i : Nat) (t : Tsync) (t4 : Int) : Pkg :=
  (p.countLocal i 27 29).updPort i (fun q => { q with
    stamps := some (t.t3, t4)
    groups := q.groups.map (fun g => (g.1, { g.2 with tsSeen := g.2.tsSeen || g.2.idSeen })) })

theorem Pkg.tsync_eq (p : Pkg) {i : Nat} (hi : i < 4) (t : Tsync) :
    p.tsync i t =
      let t4 : Int := 32 * (p.ftc.now : Int) + (t.frac % 32 : Nat)
      let q := p.stamped i t t4
      let r := q.updPort i (fun q => { q with adv := some (t.gm, t.depth) })
      if q.open' i = false then q
      else match t.echo with
        | none => r
        | some e =>
          if (r.tport i).tx.contains e.1 = false then r
          else
            let theta := thetaOf e.1 e.2 t.t3 t4 (signedOf 16 (r.fld (rFTC_PORT_ASYM.at 0 0 i) fFTC_PORT_ASYM_ASYM))
            (r.updPort i (fun q => { q with theta := theta })).exchange i t theta := by
  unfold Pkg.tsync
  rw [if_neg (Nat.not_le.mpr hi)]
  simp only [Bool.not_eq_true']
  rfl

/-! An exchange of a package that is no grandmaster (R320, R322). -/

section
variable {q : Pkg} {i : Nat} {t : Tsync} (theta : Int) (noGM : q.isGM = false) (clock : q.ftcLost = false)
include noGM clock

/-- Of its parent: the FTC is steered. -/
theorem Pkg.exchange_parent (parent : q.ftc.parent = i) (adv : t.depth ≠ 255) :
    q.exchange i t theta = { q.steer theta with ftc := { (q.steer theta).ftc with depth := min 254 (t.depth + 1), gm := t.gm } } := by
  simp only [Pkg.exchange, noGM, clock, parent, adv, Bool.false_and, Bool.false_eq_true, Bool.not_false, Bool.and_true, Bool.or_false, Bool.and_false,
    decide_true, decide_false, if_false, if_true]

/-- Of a package without a parent: only the best port's exchange is adopted. -/
theorem Pkg.exchange_orphan (hi : i < 4) (parent : q.ftc.parent = 7) :
    q.exchange i t theta = match q.bestPort with | some x => if x.2.2 = i then q.adopt x else q | none => q := by
  have other : (7 : Nat) ≠ i := fun h => absurd (h ▸ hi) (by decide)
  simp only [Pkg.exchange, noGM, clock, parent, other, Bool.false_and, Bool.false_eq_true, decide_false, if_false, if_true,
    Nat.reduceLeDiff, if_true] <;> rfl

end

/-! Steering (R322). -/

section
variable {q : Pkg} (theta : Int)

theorem Pkg.steer_acquiring (st : q.ftc.st = .acquiring) :
    q.steer theta =
      let f : Ftc := { q.ftc with offset := theta.tdiv 1000, slew := theta.tdiv 32000 }
      let good := if theta.natAbs ≤ 64000 then q.ftc.good + 1 else 0
      if 64 ≤ good then { q with ftc := { f with st := .locked, everLocked := true, good := 0 } }
      else { q with ftc := { f with good := good } } := by
  simp only [Pkg.steer, st]

theorem Pkg.steer_locked (st : q.ftc.st = .locked) :
    q.steer theta =
      let f : Ftc := { q.ftc with offset := theta.tdiv 1000, slew := theta.tdiv 32000 }
      if 32000000 < theta.natAbs then ({ q with ftc := { f with st := .acquiring, good := 0 } } : Pkg).unlocked else { q with ftc := f } := by
  simp only [Pkg.steer, st]

end

/-! Slewing (R322). -/

/-- A tick is taken out only where there is one to take and 5,000 have passed since the last. -/
theorem Ftc.slewed_takes {f : Ftc} (h : f.slewed.2 ≠ 1) :
    f.slewing ≠ 0 ∧ f.slewAt + 5000 ≤ f.now ∧ f.slewed = (f.took 1 f.now, if 0 < f.slewing then 2 else 0) := by
  unfold Ftc.slewed at h ⊢
  split at h
  · exact absurd rfl h
  next due =>
    obtain ⟨some, past⟩ := not_or.mp (by simpa only [Bool.or_eq_true, decide_eq_true_eq] using due)
    refine ⟨some, Nat.le_of_not_lt past, if_neg due⟩

/-- Taking a tick brings what remains nearer to 0. -/
theorem natAbs_sub_sign {x : Int} (h : x.sign ≠ 0) : (x - ((1 : Nat) : Int) * x.sign).natAbs + 1 = x.natAbs := by
  rcases Int.lt_trichotomy x 0 with neg | zero | pos
  · rw [Int.sign_eq_neg_one_of_neg neg]
    omega
  · exact absurd (zero ▸ Int.sign_zero) h
  · rw [Int.sign_eq_one_of_pos pos]
    omega

theorem Ftc.slewed_step {f : Ftc} (h : f.slewed.2 ≠ 1) :
    f.slewAt + 5000 ≤ f.now ∧ f.slewed.1.slewAt = f.now ∧ f.slewed.2 ≤ 2 ∧
      (f.st ≠ .holdover → f.slewed.1.slew.natAbs + 1 = f.slew.natAbs ∧ (f.slewed.2 = 2 ↔ 0 < f.slew)) ∧
      (f.st = .holdover → f.slewed.1.rate = f.rate ∧ (f.slewed.2 = 2 ↔ 0 < f.rate)) := by
  obtain ⟨nonzero, due, takes⟩ := Ftc.slewed_takes h
  have direction : (if 0 < f.slewing then 2 else 0 : Nat) = 2 ↔ 0 < f.slewing := by split <;> simp_all
  rw [takes]
  refine ⟨due, rfl, ?_, fun steered => ?_, fun held => ?_⟩
  · show (if 0 < f.slewing then 2 else 0 : Nat) ≤ 2
    split <;> decide
  · have sign : f.slewing = f.slew.sign := if_neg steered
    rw [sign] at nonzero direction
    refine ⟨?_, ?_⟩
    · show (if f.st = .holdover then f.slew else f.slew - ((1 : Nat) : Int) * f.slew.sign).natAbs + 1 = _
      rw [if_neg steered]
      exact natAbs_sub_sign nonzero
    · rw [sign]
      exact direction.trans Int.sign_pos_iff
  · have rate : f.slewing = f.rate := if_pos held
    rw [rate] at direction ⊢
    exact ⟨rfl, direction⟩

/-! HOLDOVER (R322). -/

theorem Pkg.unlocked_ftc (p : Pkg) : p.unlocked.ftc = p.ftc :=
  (Pkg.run_eq ((Pkg.event_run _ _).trans (Pkg.bumpSat_run _ _ _))).2

theorem Pkg.holdover_ftc {p : Pkg} (locked : p.ftc.everLocked = true) : p.holdover.ftc = p.ftc.holding := by
  unfold Pkg.holdover
  dsimp only
  rw [if_pos locked]
  split
  · exact Pkg.unlocked_ftc _
  · rfl

theorem Pkg.ftcUnsync_reports {p : Pkg} (st : p.ftc.st = .holdover) (new : p.ftc.unsyncReported = false) :
    p.ftcUnsync = ({ p.until (p.ftc.holdSince + 3000000) with
      ftc := { (p.until (p.ftc.holdSince + 3000000)).ftc with unsyncReported := true } } : Pkg).event (Event.blank 0x57) :=
  if_pos (by rw [st, new]; rfl)

theorem Pkg.ftcUnsync_once {p : Pkg} (told : p.ftc.unsyncReported = true) : p.ftcUnsync = p :=
  if_neg (by rw [told]; simp)

/-! The grandmaster and the bank switch (R311, R319, R321). -/

theorem Pkg.grandmasterStart_serves {p : Pkg} {t : Nat} (up : p.ftc.firstUp = some t) (gm : p.isGM = true) (idle : p.ftc.serving = false)
    (orphan : p.ftc.parent = 7) (clock : p.ftcLost = false) {q : Pkg} (hq : p.until (t + 100000000) = q) :
    p.grandmasterStart =
      let r := if q.ftc.best = 0 then q
        else if q.ftc.everLocked = true then { q with ftc := { q.ftc with slew := q.ftc.best } }
        else q.stepFtc (q.ftc.now + q.ftc.best)
      { r with ftc := { r.ftc with best := 0, serving := true, parent := 4, depth := 0, gm := r.coord, st := .locked, everLocked := true } } := by
  subst hq
  unfold Pkg.grandmasterStart
  rw [up]
  exact if_neg (by rw [gm, idle, orphan, clock]; decide)

theorem Pkg.switchNow_eq (q : Pkg) :
    q.switchNow = if q.fld aRtStatus fFAB_RT_STATUS_PEND = 1 ∧ q.rd64 (rFAB_RT_AT.at 0 0 0) ≤ q.ftc.now then q.switchBank else q := by
  simp only [Pkg.switchNow, Pkg.switchDue, Bool.and_eq_true, decide_eq_true_eq]

/-! Latched reads (R323). -/

section
variable {p : Pkg} {m : Milnik} {o : Origin} {a : Nat}

theorem Pkg.latchRead_eq (word : a % 4 = 0) (lat : latches a = true) (reach : o = .bar0 → (p.linkUp && p.port.memSpace) = true) :
    p.latchRead m o a = (p.readReg m o a).1.emit (.hostData a (toBytes 4 (p.readReg m o a).2.toNat) false) := by
  have whole : a / 4 * 4 = a := Nat.div_mul_cancel (Nat.dvd_of_mod_eq_zero word)
  have open' : ¬ ((!latches a || (decide (o = .bar0) && !(p.linkUp && p.port.memSpace))) = true) := by
    rw [lat]
    by_cases h : o = .bar0
    · rw [reach h]
      simp
    · simp [h]
  unfold Pkg.latchRead
  rw [whole]
  exact if_neg open'

/-- A low word's read keeps the high word. -/
theorem Pkg.readReg_low (low : a % 8 = 0) (lat : latches a = true) :
    p.readReg m o a = ({ p with latch := p.latch.set (latchKey o a) (p.word m (a + 4)) }, p.word m a) := by
  have whole : a / 8 * 8 = a := Nat.div_mul_cancel (Nat.dvd_of_mod_eq_zero low)
  unfold Pkg.readReg
  rw [lat, whole]
  exact (if_neg (by decide)).trans (if_pos (by omega))

/-- A high word's read takes what was kept, or reads the word as it is. -/
theorem Pkg.readReg_high (low : a % 8 = 0) (lat : latches (a + 4) = true) :
    p.readReg m o (a + 4) = match p.latch.find (latchKey o a) with
      | some v => ({ p with latch := p.latch.del (latchKey o a) }, v)
      | none => (p, p.word m (a + 4)) := by
  have key : latchKey o (a + 4) = latchKey o a := by
    unfold latchKey
    rw [show (a + 4) / 8 = a / 8 by omega]
  unfold Pkg.readReg
  rw [lat, key]
  exact (if_neg (by decide)).trans (if_neg (by omega))

end

/-- Settles O44: each event of the FTC by the equation of what it does. -/
theorem timeSteers : Obligations.TimeSteers := by
  intro s hp
  refine ⟨?_, ?_, fun f h => Ftc.slewed_step h, ?_, ?_, ?_, ?_, Pkg.switchNow_eq, ?_, ?_⟩
  · intro i t hi t4 q r
    have runs {d} (hd : s.pkg.tsync i t = d) : RunsTo (.tsync i t) s d := State.inPower_runsTo (f := fun p => p.tsync i t) hp rfl hd
    have eq := s.pkg.tsync_eq hi t
    refine ⟨fun shut => runs (eq.trans (if_pos shut)), fun opened noEcho => runs (eq.trans ((if_neg (ne_false_of_eq_true opened)).trans ?_)),
      fun opened e echo => ?_⟩
    · rw [noEcho]
      rfl
    · have eq' := eq.trans (if_neg (ne_false_of_eq_true opened))
      rw [echo] at eq'
      exact ⟨fun gone => runs (eq'.trans (if_pos gone)), fun held => runs (eq'.trans (if_neg (ne_false_of_eq_true held)))⟩
  · intro q i t theta hi noGM clock steered
    refine ⟨fun parent adv => ?_, fun orphan best => ?_, fun orphan x best mine => ?_⟩
    · have eq := Pkg.exchange_parent theta noGM clock parent adv
      refine ⟨fun st far => ?_, fun st near few => ?_, fun st near many => ?_, fun st near => ?_, fun st far => ?_⟩
      · rw [eq, Pkg.steer_acquiring theta st, if_neg (Nat.not_le.mpr far)]
        rfl
      · rw [eq, Pkg.steer_acquiring theta st, if_pos near]
        dsimp only
        rw [if_neg (Nat.not_le.mpr few)]
      · rw [eq, Pkg.steer_acquiring theta st, if_pos near]
        dsimp only
        rw [if_pos many]
      · rw [eq, Pkg.steer_locked theta st]
        dsimp only
        rw [if_neg (Nat.not_lt.mpr near)]
      · rw [eq, Pkg.steer_locked theta st]
        dsimp only
        rw [if_pos far]
    · rw [Pkg.exchange_orphan theta noGM clock hi orphan, best]
    · rw [Pkg.exchange_orphan theta noGM clock hi orphan, best]
      exact if_pos mine
  · intro locked notHeld
    rw [Pkg.holdover_ftc locked]
    exact ⟨rfl, if_neg notHeld, if_neg notHeld⟩
  · intro served st
    have runs {d} (hd : s.pkg.ftcUnsync = d) : RunsTo .ftcUnsync s d := State.byFirmware_runsTo (f := fun p => p.ftcUnsync) hp served rfl hd
    exact ⟨fun new => runs (Pkg.ftcUnsync_reports st new), fun told => runs (Pkg.ftcUnsync_once told)⟩
  · intro t up gm idle orphan clock
    generalize hq : s.pkg.until (t + 100000000) = q
    exact State.inPower_runsTo (f := fun p => p.grandmasterStart) hp rfl (Pkg.grandmasterStart_serves up gm idle orphan clock hq)
  · intro pend
    exact State.inPower_runsTo (f := fun p => p.bankSwitch) hp rfl (if_neg (fun h => absurd (pend.symm.trans h) (by decide)))
  · intro none
    exact State.inPower_runsTo (f := fun p => p.bankSwitch) hp rfl (if_pos none)
  · intro a o low lat lat4 reach
    have runs (b : Nat) {d} (hd : s.pkg.latchRead s.mtr o b = d) : RunsTo (.ftcNowRead b o) s d :=
      State.inPower_runsTo (f := fun p => p.latchRead s.mtr o b) hp rfl hd
    have eq := Pkg.latchRead_eq (m := s.mtr) (by omega) lat reach
    have eq4 := Pkg.latchRead_eq (m := s.mtr) (by omega) lat4 reach
    rw [Pkg.readReg_low low lat] at eq
    rw [Pkg.readReg_high low lat4] at eq4
    refine ⟨runs a eq, fun v kept => runs (a + 4) ?_, fun gone => runs (a + 4) ?_⟩
    · rw [kept] at eq4
      exact eq4
    · rw [gone] at eq4
      exact eq4

end Sys2Proof.Machine
end

section
/-! PROOFS. The links (O43): flits, replays, lane groups that go down and train, and LINK_ID. -/
namespace Sys2Proof.Machine

/-! Flits that arrive (R291, R292, R305). -/

section
variable {p : Pkg} {i g : Nat} {f : Flit}

theorem Pkg.linkFlit_used (hi : i < 4) (up : ((p.tport i).group g).up = true) (good : f.good = true)
    (due : f.idle = true ∨ f.seq = ((p.tport i).group g).rxSeq) :
    p.linkFlit i g f =
      let x := (p.tport i).group g
      let used := (p.ackFlits i g f.acked).credited i f.credit.1 f.credit.2
      if f.idle then (if f.asksReplay then used.replay i g f.acked else used).serve i
      else
        let y := cutFrames 242 (if x.part.isEmpty then f.no else x.partNo) (x.part ++ f.data)
        let q := used.updGroup i g (fun x => { x with
          rxSeq := (x.rxSeq + 1) % 2 ^ 10, part := y.2.2, partNo := y.2.1, replays := 0, replaying := false })
        ((q.takeFrames i g y.1).idleFlit i g 0 false).serve i := by
  have port : ¬ ((decide (4 ≤ i) || !((p.tport i).group g).up) = true) := by
    rw [up, decide_eq_false (Nat.not_le.mpr hi)]
    decide
  have usable : (f.good && (f.idle || decide (f.seq = ((p.tport i).group g).rxSeq))) = true := by
    rw [good, Bool.true_and, Bool.or_eq_true, decide_eq_true_eq]
    exact due
  exact (if_neg port).trans (if_pos usable)

theorem Pkg.linkFlit_refused (hi : i < 4) (up : ((p.tport i).group g).up = true)
    (bad : f.good = false ∨ (f.idle = false ∧ f.seq ≠ ((p.tport i).group g).rxSeq)) :
    p.linkFlit i g f =
      let x := (p.tport i).group g
      if x.replaying = true ∧ f.seq ≠ x.rxSeq then p
      else
        let failed := if x.replaying then x.replays + 1 else 0
        if 8 ≤ failed then p.laneGroupDown i g
        else ((p.updGroup i g (fun x => { x with replaying := true, replays := failed })).bumpSat (rFAB_PORT_RETRY.at 0 0 i)
          fFAB_PORT_RETRY_COUNT).idleFlit i g 0 true := by
  have port : ¬ ((decide (4 ≤ i) || !((p.tport i).group g).up) = true) := by
    rw [up, decide_eq_false (Nat.not_le.mpr hi)]
    decide
  have unusable : ¬ ((f.good && (f.idle || decide (f.seq = ((p.tport i).group g).rxSeq))) = true) := by
    rcases bad with damaged | ⟨frames, other⟩
    · rw [damaged, Bool.false_and]
      exact Bool.false_ne_true
    · rw [frames, decide_eq_false other, Bool.or_self, Bool.and_false]
      decide
  refine (if_neg port).trans ((if_neg unusable).trans ?_)
  simp only [Bool.and_eq_true, Bool.not_eq_true', decide_eq_false_iff_not, ne_eq]

end

/-! Frames sent (R291, R293). -/

/-- A frame that fits a flit waits in it for more. -/
theorem Pkg.sendOn_fresh (q : Pkg) (i g no : Nat) (f : Frame) (ids : Ids) (part : q.txPart i g = TxPart.none) (fits : f.bytes.length < 242) :
    q.sendOn i g no f ids = ((q.updPort i (fun r => { r with sent := r.sent ++ [(no, g, f)] })).setTx i g
      ⟨no, f.bytes, [f.bytes.length]⟩).countDie (groupDie q.board.dies i g) 26 (32 + f.payload.length) ids := by
  have whole : (TxPart.none.data ++ f.bytes).length / 242 = 0 := Nat.div_eq_of_lt fits
  unfold Pkg.sendOn
  dsimp only
  rw [part, if_pos (show TxPart.none.follows no = true from rfl), part, whole]
  rfl

theorem Pkg.afterLoss_up (q : Pkg) (i : Nat) (gs : List Nat) (up : q.portUp i = true) :
    let lost := ((q.tport i).sent.filter (fun x => gs.contains x.2.1)).map (fun x => (x.1, x.2.2))
    q.afterLoss i gs = (q.updPort i (fun r => { r with
      sent := r.sent.filter (fun x => !gs.contains x.2.1), again := sortBy r.older (r.again ++ lost) })).serve i := if_pos up

theorem drop_length_takeWhile {α : Type} (f : α → Bool) (l : List α) : l.drop (l.takeWhile f).length = l.dropWhile f := by
  induction l with
  | nil => rfl
  | cons x xs ih =>
    cases h : f x
    · simp [h]
    · simpa [h] using ih

/-- An acknowledgement of a flit that is held empties the replay buffer up to it. -/
theorem Pkg.ackFlits_rtx (p : Pkg) (i g ack : Nat) (held : ((p.tport i).group g).rtx.any (fun t => t.seq = ack) = true) :
    (((p.ackFlits i g ack).tport i).group g).rtx = ((p.tport i).group g).rtx.dropWhile (fun t => !(t.seq = ack)) := by
  simp only [Pkg.ackFlits, Pkg.updGroup, Pkg.tport_updPort, Port.group, Tbl.upd, Tbl.getD_set_self]
  exact (congrArg (fun l : List TxFlit => ((p.tport i).group g).rtx.drop l.length) (if_pos held)).trans (drop_length_takeWhile _ _)

/-- The frames that were not held already enter the input buffers. -/
theorem Pkg.takeFrames_inbox (q : Pkg) (i g : Nat) (l : List (Nat × Frame)) : (q.takeFrames i g l).fab.inbox =
    q.fab.inbox ++ (l.filter (fun y => !(q.tport i).rxFrames.contains y.1)).map (fun y => (i, y.2)) := by
  have counts (ys : List (Nat × Frame)) (r : Pkg) : (ys.foldl (fun p y => p.countRx i g y.2) r).fab.inbox = r.fab.inbox :=
    foldl_inv (P := fun p : Pkg => p.fab.inbox = r.fab.inbox) (f := fun p y => p.countRx i g y.2) (fun _ _ h => h) ys rfl
  unfold Pkg.takeFrames
  dsimp only
  rw [counts]
  rfl

/-! A group that goes down (R293). -/

section
variable {p : Pkg} {i g : Nat}

/-- Whether the loss is the third within 1 s decides whether the group trains again. -/
theorem Pkg.laneGroupDown_up (hi : i < 4) (up : ((p.tport i).group g).up = true) {recent : List Nat} {q : Pkg} {third : Bool}
    (losses : p.ftc.now :: ((p.tport i).group g).losses.filter (fun t => p.ftc.now < t + 1000000000) = recent)
    (counted : (p.bumpSat (aPortStatus i) fFAB_PORT_STATUS_DOWNS).updGroup i g (fun x => { x with losses := recent }) = q)
    (hold : decide (3 ≤ recent.length) = third) :
    p.laneGroupDown i g =
      if third then ((q.groupOff i g (!third)).updPort i (fun q => { q with held := true })).portEvent i 0x53 g
      else q.groupOff i g (!third) := by
  have port : ¬ ((decide (4 ≤ i) || !((p.tport i).group g).up) = true) := by
    rw [up, decide_eq_false (Nat.not_le.mpr hi)]
    decide
  subst hold counted losses
  exact (if_neg port).trans (ite_congr (propext decide_eq_true_iff.symm) (fun _ => rfl) (fun _ => rfl))

theorem Pkg.laneGroupDown_down (down : ((p.tport i).group g).up = false) : p.laneGroupDown i g = p :=
  if_pos (by rw [down, Bool.not_false, Bool.or_true])

/-! Training (R295). -/

theorem Pkg.linkTraining_eq {t : Nat} (since : ((p.tport i).group g).trainSince = some t) (may : p.mayTrain i g = true) :
    p.linkTraining i g =
      let x := (p.tport i).group g
      let q := p.updGroup i g (fun x => { x with up := true, trainSince := none, rxSeq := 0, part := [], replays := 0, replaying := false
                                                 txSeq := 0, rtx := [] })
      if x.up = false ∧ p.ftc.now ≤ t + 100000000 ∧ x.idSeen = true ∧ x.tsSeen = true then
        ((q.portEvent i 0x52 ((q.tport i).upBits)).noteFirstUp i).serve i
      else p := by
  unfold Pkg.linkTraining
  dsimp only
  rw [since, may]
  generalize (((p.updGroup i g _).portEvent i 0x52 _).noteFirstUp i).serve i = q
  cases ((p.tport i).group g).up <;> cases ((p.tport i).group g).idSeen <;> cases ((p.tport i).group g).tsSeen <;>
    by_cases late : p.ftc.now ≤ t + 100000000 <;> simp [late]

theorem Pkg.trainingTimeout_eq {t : Nat} (hi : i < 4) (since : ((p.tport i).group g).trainSince = some t) (may : p.mayTrain i g = true) :
    p.trainingTimeout i g = (p.until (t + 100000000)).train i g := by
  unfold Pkg.trainingTimeout
  rw [since]
  exact if_neg (by rw [may, decide_eq_false (Nat.not_le.mpr hi)]; decide)

/-! LINK_ID (R296). -/

/-- What a LINK_ID leaves on its port, by whether it names the neighbour that the port should have. -/
def Pkg.linkKnown (p : Pkg) (i : Nat) (l : LinkId) (b : Bool) : Pkg :=
  ((p.countLocal i 27 9).updPort i (fun q => { q with
    nbrOk := b, nbr := l.logical % 2 ^ 14, nbrGroups := l.groups
    groups := q.groups.map (fun g => (g.1, { g.2 with idSeen := g.2.idSeen || g.2.trainSince.isSome })) })).groupsOff i
      ((List.range 4).filter (fun g => l.groups ≤ g)) false

theorem Pkg.linkId_eq (hi : i < 4) (l : LinkId) (some : (p.tport i).groups.any (fun g => g.2.up || g.2.trainSince.isSome) = true) {b : Bool}
    (ok : decide (
      l.px = (if i = 0 then (p.px + 1) % dimOf (p.fld aDim fFAB_DIM_SX)
        else if i = 1 then (p.px + dimOf (p.fld aDim fFAB_DIM_SX) - 1) % dimOf (p.fld aDim fFAB_DIM_SX) else p.px) ∧
      l.py = (if i = 2 then (p.py + 1) % dimOf (p.fld aDim fFAB_DIM_SY)
        else if i = 3 then (p.py + dimOf (p.fld aDim fFAB_DIM_SY) - 1) % dimOf (p.fld aDim fFAB_DIM_SY) else p.py)) = b) :
    p.linkId i l = if b then (p.linkKnown i l b).noteFirstUp i
      else (((p.linkKnown i l b).portEvent i 0x54 (l.px + 128 * l.py)).flushOut i).reparent := by
  subst ok
  rw [Bool.decide_and]
  exact if_neg (by rw [some, decide_eq_false (Nat.not_le.mpr hi)]; decide)

end

/-- Settles O43: each event of a link by the equation of what it does. -/
theorem linksAct : Obligations.LinksAct := by
  intro s i g hp hi
  refine ⟨?_, fun q no f ids => q.sendOn_fresh i g no f ids, fun q gs => q.afterLoss_up i gs, fun ack => s.pkg.ackFlits_rtx i g ack,
    fun q l => q.takeFrames_inbox i g l, ?_, ?_, ?_, fun q lit => if_pos lit, ?_⟩
  · intro f up failed used
    have runs {d} (hd : s.pkg.linkFlit i g f = d) : RunsTo (.linkFlit i g f) s d := State.inPower_runsTo (f := fun p => p.linkFlit i g f) hp rfl hd
    refine ⟨fun good idle => ?_, fun good frames due => ?_, fun bad => ?_⟩
    · exact runs ((Pkg.linkFlit_used hi up good (.inl idle)).trans (if_pos idle))
    · exact runs ((Pkg.linkFlit_used hi up good (.inr due)).trans (if_neg (ne_true_of_eq_false frames)))
    · have eq := Pkg.linkFlit_refused hi up bad
      refine ⟨fun replaying other => runs (eq.trans (if_pos ⟨replaying, other⟩)), fun again => ?_⟩
      have counts := eq.trans (if_neg (fun h => again.elim (fun first => absurd h.1 (ne_true_of_eq_false first)) h.2))
      exact ⟨fun eighth => runs (counts.trans (if_pos eighth)), fun fewer => runs (counts.trans (if_neg (Nat.not_le.mpr fewer)))⟩
  · intro up recent q
    have runs {d} (hd : s.pkg.laneGroupDown i g = d) : RunsTo (.laneGroupDown i g) s d :=
      State.inPower_runsTo (f := fun p => p.laneGroupDown i g) hp rfl hd
    have eq {third : Bool} := Pkg.laneGroupDown_up hi up (recent := recent) (q := q) (third := third) rfl rfl
    exact ⟨fun few => runs (eq (third := false) (decide_eq_false (Nat.not_le.mpr few))), fun third => runs (eq (third := true) (decide_eq_true third))⟩
  · intro down
    exact State.inPower_runsTo (f := fun p => p.laneGroupDown i g) hp rfl (Pkg.laneGroupDown_down down)
  · intro t since may q passed
    have runs {d} (hd : s.pkg.linkTraining i g = d) : RunsTo (.linkTraining i g) s d :=
      State.inPower_runsTo (f := fun p => p.linkTraining i g) hp rfl hd
    have eq := Pkg.linkTraining_eq since may
    exact ⟨fun yes => runs (eq.trans (if_pos yes)), fun no => runs (eq.trans (if_neg no)),
      State.inPower_runsTo (f := fun p => p.trainingTimeout i g) hp rfl (Pkg.trainingTimeout_eq hi since may)⟩
  · intro l some sx sy ok known
    have runs {d} (hd : s.pkg.linkId i l = d) : RunsTo (.linkId i l) s d := State.inPower_runsTo (f := fun p => p.linkId i l) hp rfl hd
    exact ⟨fun yes => runs (Pkg.linkId_eq hi l some (b := true) (decide_eq_true yes)),
      fun no => runs (Pkg.linkId_eq hi l some (b := false) (decide_eq_false no))⟩

end Sys2Proof.Machine
end

section
/-! PROOFS. The gather unit (O22). -/
namespace Sys2Proof.Machine

/-! A beat of the gather unit (R187 to R189). -/

section
variable {p : Pkg} {n lc key t : Nat} {th : Thread} {ecc : Ecc} (place : p.phys n lc = some key) (turn : (p.core key).serve = some t)
  (thread : (p.core key).threads.find t = some th)
include place turn thread

theorem Pkg.gatherAccess_write {w : PutLine} (next : th.next (benchBase n lc) = .write w) : p.gatherAccess n lc ecc = p.putLine key t th w ecc := by
  simp only [Pkg.gatherAccess, place, turn, thread, next]

theorem Pkg.gatherAccess_range (next : th.next (benchBase n lc) = .range) :
    p.gatherAccess n lc ecc = p.act key (fun c => (c.served t false).gthFault t th.desc 3 th.k
      ((if th.d.idxMem then 0 else benchBase n lc) + th.d.index + th.k * th.d.idxLen)) := by
  simp only [Pkg.gatherAccess, place, turn, thread, next]

theorem Pkg.gatherAccess_zeros {o : Nat} (next : th.next (benchBase n lc) = .zeros) (dest : th.pieceTo = .bench o) :
    p.gatherAccess n lc ecc = p.onKey key (fun c =>
      ((c.updThread t (fun th => { th with k := th.k + 1, off := 0, idx := none, retry := none })).served t true).benchWr o
        (List.replicate th.d.rowBytes 0#8)) := by
  simp only [Pkg.gatherAccess, place, turn, thread, next, dest]

/-- A piece that is not skipped faults over a failed path, or is asked for at its owner's memory or at a bench. -/
theorem Pkg.gatherAccess_piece {x : Piece} (next : th.next (benchBase n lc) = .piece x) (asks : p.skips n th x = false) :
    p.gatherAccess n lc ecc =
      if p.pieceBad n x then p.act key (fun c => (c.served t false).gthFault t th.desc 4 x.pos x.failedAt)
      else match p.owner x.src with
        | some o => p.askMemory key t th x o ecc
        | none => p.askOther key t th x ecc := by
  simp only [Pkg.gatherAccess, place, turn, thread, next, asks, Bool.false_eq_true, if_false] <;> rfl

end

/-- A write over a failed path faults. -/
theorem Pkg.putLine_failed {p : Pkg} {key t : Nat} {th : Thread} {w : PutLine} (ecc : Ecc) (way : p.wayBad (key / 72) w.addr = true) :
    p.putLine key t th w ecc = p.act key (fun c => (c.served t false).gthFault t th.desc 4 w.pos w.addr) := if_pos way

/-- A segment that fails its check at its destination faults. -/
theorem Pkg.putLine_damaged {p : Pkg} {key t : Nat} {th : Thread} {w : PutLine} (way : p.wayBad (key / 72) w.addr = false) :
    p.putLine key t th w .crc = (p.datapath ((p.homeDie w.addr).getD (key / 72)) w.segAt).act key
      (fun c => (c.served t false).gthFault t th.desc 2 w.pos w.segAt) := by
  unfold Pkg.putLine
  exact (if_neg (by rw [way]; exact Bool.false_ne_true)).trans (if_pos rfl)

/-! A piece of memory (R189, R192 to R196, R202). -/

theorem Pkg.touch_free {p : Pkg} {o line : Nat} {write : Bool} (free : (p.die o).held.contains line = false) : p.touch o line write = p := by
  unfold Pkg.touch
  simp only [free, Bool.not_false, if_true]

section
variable {p : Pkg} {key t o : Nat} {th : Thread} {x : Piece}

/-- A line of the gather cache. -/
theorem Pkg.askMemory_cached {bs : List Byte} (own : o = key / 72) (cached : th.usesCache x = true)
    (hit : (p.core key).dcache.find (lineOf x.src) = some bs) :
    p.askMemory key t th x o .keep =
      (p.onKey key (fun c => { (c.updThread t (fun th => th.asked x)).served t true with dhits := (c.dhits + 1) % 2 ^ 32 })).arrived key [(t, x)] .keep
        (fun x => (bs.drop (x.src % 64)).take x.len) := by
  unfold Pkg.askMemory
  simp only [own, cached, hit, decide_true, Bool.and_true, if_true]
  rfl

variable (uncached : th.usesCache x = false) (free : (p.die o).held.contains (lineOf x.src) = false)
include uncached free

/-- What a piece that uses no cache does at its memory. -/
theorem Pkg.askMemory_uncached :
    p.askMemory key t th x o .keep =
      let line := lineOf x.src
      let now : Option (List Byte) := if p.lineBad line then none else some (p.readBytes line 64)
      let take (hit : Bool) (c : Core) : Core := (c.updThread t (fun th => th.asked x)).served t hit
      let own (p : Pkg) : Pkg := (p.countMem o x.src x.len false th.ids).onKey key (fun c => c.countGth (p.isDdr x.src) th.ids x.len false)
      let request (data : Option (Option (List Byte))) (c : Core) : Core :=
        { take false c with reqs := (take false c).reqs ++ [⟨line, data, [(t, x)], none, th.ids⟩] }
      match (p.core key).mergeReq line now t x with
      | some _ => p.onKey key (fun c => take false ((c.mergeReq line now t x).getD c))
      | none =>
        if ((p.die o).bcache.find line).isSome then
          let r := (own (p.depart o (.thread key t))).readLine o line 1 (p.core key).seq.tag th.ids
          r.1.onKey key (request (some (if r.2 then some (r.1.readBytes line 64) else none)))
        else
          match p.refusal o line (.thread key t) with
          | some res => (p.refuse o line (.thread key t) res).onKey key (fun c => (c.updThread t (fun th => th.park o res false)).served t false)
          | none => (((own p).miss o).enterTracker o line (.thread key t) false).onKey key (request none) := by
  unfold Pkg.askMemory
  simp only [uncached, Bool.and_false, Bool.false_eq_true, if_false, Option.isSome_none, Pkg.meets, Pkg.touch_free free]
  rfl

/-- A line that is asked for already takes the piece. -/
theorem Pkg.askMemory_merged {c' : Core} (merged : (p.core key).mergeReq (lineOf x.src)
      (if p.lineBad (lineOf x.src) then none else some (p.readBytes (lineOf x.src) 64)) t x = some c') :
    p.askMemory key t th x o .keep =
      p.onKey key (fun c => (((c.mergeReq (lineOf x.src)
        (if p.lineBad (lineOf x.src) then none else some (p.readBytes (lineOf x.src) 64)) t x).getD c).updThread t (fun th => th.asked x)).served t false) := by
  rw [Pkg.askMemory_uncached uncached free]
  dsimp only
  rw [merged]

section
variable (apart : (p.core key).mergeReq (lineOf x.src)
  (if p.lineBad (lineOf x.src) then none else some (p.readBytes (lineOf x.src) 64)) t x = none) (gone : (p.die o).bcache.find (lineOf x.src) = none)
include apart gone

theorem Pkg.askMemory_refused {r : Res} (refused : p.refusal o (lineOf x.src) (.thread key t) = some r) :
    p.askMemory key t th x o .keep = (p.refuse o (lineOf x.src) (.thread key t) r).onKey key
      (fun c => (c.updThread t (fun th => th.park o r false)).served t false) := by
  rw [Pkg.askMemory_uncached uncached free]
  dsimp only
  rw [apart, gone, refused]
  rfl

theorem Pkg.askMemory_missed (admitted : p.refusal o (lineOf x.src) (.thread key t) = none) :
    p.askMemory key t th x o .keep =
      let take (c : Core) : Core := (c.updThread t (fun th => th.asked x)).served t false
      ((((p.countMem o x.src x.len false th.ids).onKey key (fun c => c.countGth (p.isDdr x.src) th.ids x.len false)).miss o).enterTracker o
        (lineOf x.src) (.thread key t) false).onKey key
          (fun c => { take c with reqs := (take c).reqs ++ [⟨lineOf x.src, none, [(t, x)], none, th.ids⟩] }) := by
  rw [Pkg.askMemory_uncached uncached free]
  dsimp only
  rw [apart, gone, admitted]
  rfl

end

end

/-! Lines that return (R192, R197, R198). -/

section
variable {p : Pkg} {n lc key ix : Nat} (place : p.phys n lc = some key)
include place

theorem Pkg.lineReturn_eq (ecc : Ecc) {r : LineReq} (there : (p.core key).reqs[ix]? = some r) {data : Option (List Byte)} (came : r.data = some data) :
    p.lineReturn n lc ix ecc =
      let q := p.onKey key (fun c => { c with reqs := listDel c.reqs ix })
      if r.writer.isSome || r.waiters.isEmpty then q
      else match (generalizing := false) data with
        | none => q.failPieces key r.waiters false
        | some bs =>
          let w := q.takeWay n r.line 64 r.ids
          (if ecc = .parity then w else w.cacheLine key r.line r.waiters bs).arrived key r.waiters ecc (fun x => (bs.drop (x.src % 64)).take x.len) := by
  simp only [Pkg.lineReturn, place, there, came] <;> rfl

end

/-! Segments (R232). -/

section
variable {c : Core} {t : Nat} {th : Thread} (thread : c.threads.find t = some th)
include thread

theorem Core.updThread_eq (f : Thread → Thread) : c.updThread t f = { c with threads := c.threads.set t (f th) } := by
  simp only [Core.updThread, thread]

/-- The bytes of a segment that have arrived, once `all` have. -/
def Thread.here (th : Thread) (x : Piece) (all : List (Piece × List Byte)) : Nat :=
  (all.filter (fun y => th.sameSeg x y.1)).foldl (fun n y => n + y.2.length) 0

/-- A piece of a segment that is not yet whole is kept. -/
theorem Core.got_part {x : Piece} (bs : List Byte) (dst : x.dst ≠ .install) (part : th.here x (th.seg ++ [(x, bs)]) < x.segLen) :
    c.got t x bs = { c with threads := c.threads.set t { th with out := th.out - 1, seg := th.seg ++ [(x, bs)] } } := by
  have open' : (x.segLen ≤ th.here x (th.seg ++ [(x, bs)])) = False := eq_false (Nat.not_le.mpr part)
  unfold Thread.here at open'
  simp only [Core.got, thread, dst, if_false, open', decide_false, Bool.false_and, Bool.false_eq_true, Core.updThread_eq thread]

/-- The last piece of a segment for the bench brings all of it there. -/
theorem Core.got_whole {x : Piece} (bs : List Byte) {o : Nat} (dst : x.dst = .bench o) (whole : x.segLen ≤ th.here x (th.seg ++ [(x, bs)])) :
    (c.got t x bs).bench =
      c.bench.write (o - (x.src - x.segAt)) (segBytes ((th.seg ++ [(x, bs)]).filter (fun y => th.sameSeg x y.1)) x.segAt x.segLen) := by
  have closed : decide (x.segLen ≤ th.here x (th.seg ++ [(x, bs)])) = true := decide_eq_true whole
  unfold Thread.here at closed
  have other : PieceTo.bench o ≠ .install := by simp
  simp only [Core.got, thread, dst, other, if_false, closed, Bool.true_and, ne_eq, not_false_eq_true, decide_true, if_true,
    Core.updThread_eq thread, Core.gotSeg, Core.benchWr]

theorem Core.gthRetire_finished (done : th.finished = true) : c.gthRetire t = { c.signal th.peg with threads := c.threads.del t } := by
  simp only [Core.gthRetire, thread, done, if_true]

end

/-- Settles O22: each beat, each line that returns and each retirement by the equation of its case. -/
theorem gatherEffects : Obligations.GatherEffects := by
  intro s n lc key hp place p c own
  have home : key / 72 = n := (Pkg.phys_key place).1
  have beats {ecc d} (hd : s.pkg.gatherAccess n lc ecc = d) : RunsTo (.gatherAccess n lc ecc) s d :=
    State.inPower_runsTo (f := fun p => p.gatherAccess n lc ecc) hp rfl hd
  refine ⟨?_, ?_, ?_, ?_, ?_⟩
  · intro t th ecc turn thread act
    refine ⟨fun w next => ?_, fun next => beats (Pkg.gatherAccess_range place turn thread next),
      fun o next dest => beats (Pkg.gatherAccess_zeros place turn thread next dest), fun x next asks bad => ?_, fun x next asks good other => ?_⟩
    · have eq := Pkg.gatherAccess_write (ecc := ecc) place turn thread next
      refine ⟨beats eq, fun way => beats (eq.trans (Pkg.putLine_failed ecc (home ▸ way))), fun way crc => ?_⟩
      subst crc
      subst home
      exact beats (eq.trans (Pkg.putLine_damaged way))
    · exact beats ((Pkg.gatherAccess_piece place turn thread next asks).trans (if_pos bad))
    · have eq := (Pkg.gatherAccess_piece (ecc := ecc) place turn thread next asks).trans (if_neg (ne_true_of_eq_false good))
      rw [other] at eq
      exact beats eq
  · intro t th x o turn thread next asks good owner free act line now take counted
    have eq := (Pkg.gatherAccess_piece (ecc := .keep) place turn thread next asks).trans (if_neg (ne_true_of_eq_false good))
    rw [owner] at eq
    refine ⟨fun bs mine cached hit => beats (eq.trans (Pkg.askMemory_cached (mine.trans home.symm) cached hit)), fun uncached => ?_⟩
    exact ⟨fun c' merged => beats (eq.trans (Pkg.askMemory_merged uncached free merged)), fun apart gone =>
      ⟨fun r refused => beats (eq.trans (Pkg.askMemory_refused uncached free apart gone refused)),
        fun admitted => beats (eq.trans (Pkg.askMemory_missed uncached free apart gone admitted))⟩⟩
  · intro ix r there q
    have runs {ecc d} (hd : s.pkg.lineReturn n lc ix ecc = d) : RunsTo (.lineReturn n lc ix ecc) s d :=
      State.inPower_runsTo (f := fun p => p.lineReturn n lc ix ecc) hp rfl hd
    have kept (w : r.writer = none) (l : r.waiters ≠ []) : ¬ ((r.writer.isSome || r.waiters.isEmpty) = true) := by
      rw [w, Option.isSome_none, Bool.false_or, List.isEmpty_iff]
      exact l
    refine ⟨fun ecc d came idle => ?_, fun ecc came w l => ?_, fun bs came w l => ?_⟩
    · exact runs ((Pkg.lineReturn_eq place ecc there came).trans (if_pos (by rw [Bool.or_eq_true, List.isEmpty_iff]; exact idle)))
    · exact runs ((Pkg.lineReturn_eq place ecc there came).trans (if_neg (kept w l)))
    · exact runs ((Pkg.lineReturn_eq place .keep there came).trans (if_neg (kept w l)))
  · intro c t th x bs thread dst all mine here
    refine ⟨fun part => ?_, fun o whole bench => Core.got_whole thread bs bench whole⟩
    rw [Core.got_part thread bs dst part]
    exact ⟨rfl, rfl⟩
  · intro quiet awake noTest t th thread done
    have turn : s.CoreReady n lc key := ⟨hp, quiet, place, noTest, awake⟩
    have calm := Core.calm_signal (.refl c) th.peg
    exact turn.acts (f := fun c => c.gthRetire t) rfl (Core.gthRetire_finished thread done) ⟨calm.ue, calm.seq, calm.aborted⟩

end Sys2Proof.Machine
end

section
/-! PROOFS. EPOCH, and the comparison of phase shares (O37). -/
namespace Sys2Proof.Machine

/-! EPOCH (R282, R283, R487). -/

section
variable {p : Pkg} {k : Nat} {c : Cmd} (ecc : Ecc) (turn : p.epochNow = some (k, c)) (runs : c.fin = none) (ty : c.ty = 8)
include turn runs ty

/-- The EPOCH whose turn it is. -/
theorem Pkg.epochStep_runs :
    p.epochStep k ecc =
      let new := c.f 28 2
      let cur := p.fld aEpoch fHS_EPOCH_CUR
      if new = cur then (p.epochEnd new).finish k 0 0 0
      else if p.fw.epochSent then (if p.fencesIn new then p.epochSwitch k c else p)
      else if p.olderRunning c then p
      else
        match p.groupOf 0 (.command k) c (p.rd64 aGroupBase % 2 ^ 48) (c.f 30 2 % 4096) ecc with
        | (p, .error true) => p
        | (p, .error false) =>
          (((p.setFld aEpoch fHS_EPOCH_PENDING cur).epochEnd new).finish k 5 0xFFFFFFFF (2 ^ 61 + 0xFFFF)).policyEvent fHS_FAULT_POLICY_HALT
            { Event.blank 0x23 with job := c.job, tag := c.tag, layer := c.ids.layer, op := c.ids.op, detail := 1 }
        | (p, .ok ms) =>
          if ms.isEmpty then ((p.setFld aEpoch fHS_EPOCH_PENDING cur).epochEnd new).malformed k
          else
            let tgt := (ms.map entryCoord).foldl (fun l x => if x = p.coord || l.contains x then l else l ++ [x]) []
            let p := tgt.foldl (fun p x => p.inject { Frame.mk' 0x1B x 0 0 c.job with
              epoch := cur, group := c.f 30 2 % 4096, id := c.tag, aux := new }) p
            let p : Pkg := { p with fw := { p.fw with epochSent := true, epochNeed := tgt } }
            if p.fencesIn new then p.epochSwitch k c else p := by
  unfold Pkg.epochStep
  rw [turn]
  exact if_neg (by rw [runs, ty]; simp)

theorem Pkg.epochStep_same (same : c.f 28 2 = p.fld aEpoch fHS_EPOCH_CUR) : p.epochStep k ecc = (p.epochEnd (c.f 28 2)).finish k 0 0 0 :=
  (Pkg.epochStep_runs ecc turn runs ty).trans (if_pos same)

section
variable (other : c.f 28 2 ≠ p.fld aEpoch fHS_EPOCH_CUR)
include other

theorem Pkg.epochStep_fenced (sent : p.fw.epochSent = true) :
    p.epochStep k ecc = if p.fencesIn (c.f 28 2) then p.epochSwitch k c else p :=
  (Pkg.epochStep_runs ecc turn runs ty).trans ((if_neg other).trans (if_pos sent))

section
variable (first : p.fw.epochSent = false)
include first

theorem Pkg.epochStep_waits (older : p.olderRunning c = true) : p.epochStep k ecc = p :=
  (Pkg.epochStep_runs ecc turn runs ty).trans ((if_neg other).trans ((if_neg (ne_true_of_eq_false first)).trans (if_pos older)))

variable (oldest : p.olderRunning c = false) {q : Pkg}
include oldest

/-- The group is read: three outcomes. -/
theorem Pkg.epochStep_parked
    (group : p.groupOf 0 (.command k) c (p.rd64 aGroupBase % 2 ^ 48) (c.f 30 2 % 4096) ecc = (q, .error true)) : p.epochStep k ecc = q := by
  rw [Pkg.epochStep_runs ecc turn runs ty]
  dsimp only
  rw [if_neg other, if_neg (ne_true_of_eq_false first), if_neg (ne_true_of_eq_false oldest), group]

theorem Pkg.epochStep_unread
    (group : p.groupOf 0 (.command k) c (p.rd64 aGroupBase % 2 ^ 48) (c.f 30 2 % 4096) ecc = (q, .error false)) :
    p.epochStep k ecc =
      (((q.setFld aEpoch fHS_EPOCH_PENDING (p.fld aEpoch fHS_EPOCH_CUR)).epochEnd (c.f 28 2)).finish k 5 0xFFFFFFFF (2 ^ 61 + 0xFFFF)).policyEvent
        fHS_FAULT_POLICY_HALT { Event.blank 0x23 with job := c.job, tag := c.tag, layer := c.ids.layer, op := c.ids.op, detail := 1 } := by
  rw [Pkg.epochStep_runs ecc turn runs ty]
  dsimp only
  rw [if_neg other, if_neg (ne_true_of_eq_false first), if_neg (ne_true_of_eq_false oldest), group]

theorem Pkg.epochStep_read {ms : List Nat}
    (group : p.groupOf 0 (.command k) c (p.rd64 aGroupBase % 2 ^ 48) (c.f 30 2 % 4096) ecc = (q, .ok ms)) :
    p.epochStep k ecc =
      if ms.isEmpty then ((q.setFld aEpoch fHS_EPOCH_PENDING (p.fld aEpoch fHS_EPOCH_CUR)).epochEnd (c.f 28 2)).malformed k
      else
        let tgt := (ms.map entryCoord).foldl (fun l x => if x = q.coord || l.contains x then l else l ++ [x]) []
        let r := tgt.foldl (fun p' x => p'.inject { Frame.mk' 0x1B x 0 0 c.job with
          epoch := p.fld aEpoch fHS_EPOCH_CUR, group := c.f 30 2 % 4096, id := c.tag, aux := c.f 28 2 }) q
        let t : Pkg := { r with fw := { r.fw with epochSent := true, epochNeed := tgt } }
        if t.fencesIn (c.f 28 2) then t.epochSwitch k c else t := by
  rw [Pkg.epochStep_runs ecc turn runs ty]
  dsimp only
  rw [if_neg other, if_neg (ne_true_of_eq_false first), if_neg (ne_true_of_eq_false oldest), group]

end
end
end

/-! Slowness (R351, R352, R355). -/

/-- What the comparison of a share leaves, from the elapsed times of the records that it is compared with, in order. -/
def Pkg.compareShare (p : Pkg) (sh : Share) (es : List Nat) : Pkg :=
  if es.length < 3 || bits sh.suspect fHS_SUSPECT_PHASES.lo fHS_SUSPECT_PHASES.w / 2 ^ fieldOf sh.record 4 1 % 2 = 0 then p.restamp sh 4 0
  else
    let median := es.getD ((es.length - 1) / 2) 0
    let elapsed := fieldOf sh.record 24 8
    let slow := median * (100 + orOne (bits sh.suspect fHS_SUSPECT_MARGIN.lo fHS_SUSPECT_MARGIN.w)) < elapsed * 100
    let excess := if elapsed ≤ median then 0 else if median = 0 then 0xFFFF else min 0xFFFF (1000 * (elapsed - median) / median)
    let r := (p.restamp sh (if slow then 2 else 0) median).setFld aSlow fHS_SLOW_STATUS_EXCESS excess
    let step := fieldOf sh.record 0 4
    let closed := if r.fw.curStep.isSome && r.fw.curStep ≠ some step then r.closeStep else r
    let still := closed.fw.curStep = some step && closed.fw.curSlow
    { closed with fw := { closed.fw with curStep := some step, curSlow := still || slow } }

section
variable {p : Pkg} {sh : Share} {rest : List Share} (shares : p.fw.shares = sh :: rest) {ask : Pkg × Bool}
  (asked : p.askAll .firmware (((List.range sh.n).map (fun i => sh.dst + 64 * i)).map (fun a => (a, 64))) [] = ask)
include shares asked

theorem Pkg.slowDetection_parked (refused : ask.2 = false) : p.slowDetection = ask.1 := by
  subst asked
  unfold Pkg.slowDetection
  rw [shares]
  exact if_pos (congrArg not refused)

theorem Pkg.slowDetection_compares (admitted : ask.2 = true) {read : Pkg × List (List Byte)}
    (reads : Pkg.readRecords ((List.range sh.n).map (fun i => sh.dst + 64 * i)) ask.1 = read) :
    p.slowDetection = Pkg.compareShare { read.1 with fw := { read.1.fw with shares := rest } } sh
      (sortBy (fun (a b : Nat) => a ≤ b) (sh.compared read.2)) := by
  subst asked reads
  unfold Pkg.slowDetection
  rw [shares]
  exact if_neg (by rw [admitted]; exact Bool.false_ne_true)

end

/-- Settles O37: each turn of an EPOCH by the equation of its case; a share is compared by the records that firmware reads. -/
theorem epochAndSlowness : Obligations.EpochAndSlowness := by
  intro s hp
  refine ⟨fun k c ecc turn fin ty => ?_, fun served sh rest shares => ?_⟩
  · have runs {d} (hd : s.pkg.epochStep k ecc = d) : RunsTo (.epoch k ecc) s d := State.inPower_runsTo (f := fun p => p.epochStep k ecc) hp rfl hd
    refine ⟨fun same => runs (Pkg.epochStep_same ecc turn fin ty same), fun other sent fenced => ?_, fun other sent open' => ?_,
      fun other first older => runs (Pkg.epochStep_waits ecc turn fin ty other first older), fun other first oldest => ?_⟩
    · exact runs ((Pkg.epochStep_fenced ecc turn fin ty other sent).trans (if_pos fenced))
    · exact runs ((Pkg.epochStep_fenced ecc turn fin ty other sent).trans (if_neg (ne_true_of_eq_false open')))
    · generalize hg : s.pkg.groupOf 0 (.command k) c (s.pkg.rd64 aGroupBase % 2 ^ 48) (c.f 30 2 % 4096) ecc = g
      obtain ⟨q, outcome⟩ := g
      have read {ms} (h : outcome = .ok ms) := Pkg.epochStep_read ecc turn fin ty other first oldest (hg.trans (congrArg (Prod.mk q) h))
      refine ⟨fun h => runs (Pkg.epochStep_parked ecc turn fin ty other first oldest (hg.trans (congrArg (Prod.mk q) h))),
        fun h => runs (Pkg.epochStep_unread ecc turn fin ty other first oldest (hg.trans (congrArg (Prod.mk q) h))),
        fun h => runs ((read h).trans (if_pos rfl)), fun ms h some => ?_⟩
      have sends := (read h).trans (if_neg (fun none => some (List.isEmpty_iff.mp none)))
      exact ⟨fun open' => runs (sends.trans (if_neg (ne_true_of_eq_false open'))), fun fenced => runs (sends.trans (if_pos fenced))⟩
  · have runs {d} (hd : s.pkg.slowDetection = d) : RunsTo .slowDetection s d := State.byFirmware_runsTo (f := fun p => p.slowDetection) hp served rfl hd
    intro at' ask read q phase es stamped watched margin
    refine ⟨fun refused => runs (Pkg.slowDetection_parked shares (ask := ask) rfl refused), fun admitted few => ?_, fun admitted three watches => ?_⟩
    · have eq := Pkg.slowDetection_compares shares (ask := ask) rfl admitted (read := read) rfl
      refine runs (eq.trans (if_pos ?_))
      rw [Bool.or_eq_true, decide_eq_true_eq, decide_eq_true_eq]
      exact few
    · have eq := Pkg.slowDetection_compares shares (ask := ask) rfl admitted (read := read) rfl
      refine runs (eq.trans (if_neg ?_))
      rw [Bool.or_eq_true, decide_eq_true_eq, decide_eq_true_eq]
      exact fun h => h.elim (Nat.not_lt.mpr three) (fun zero => absurd (watches.symm.trans zero) Nat.one_ne_zero)

end Sys2Proof.Machine
end

section
/-! PROOFS. What the frames of a collective do to its streams (O40). -/
namespace Sys2Proof.Machine

/-! A frame's stream, and the rank of its sender in it (R268). -/

section
variable {p : Pkg} {f : Frame} {i : Nat} {t : Stream} {c : Cmd}

theorem Pkg.frameStream_of (stream : p.findStream f.dstDie f.epoch f.group f.id = some (i, t, c)) {r : Nat} (rank : t.rankOf f = some r) :
    p.frameStream f = some (i, t, c, r) := by
  simp only [Pkg.frameStream, stream, rank, Option.map_some]

theorem Pkg.frameStream_none (stream : p.findStream f.dstDie f.epoch f.group f.id = none) : p.frameStream f = none := by
  simp only [Pkg.frameStream, stream]

/-! Frames of a stream that is held (R272 to R280). -/

section
variable {r : Nat} (stream : p.frameStream f = some (i, t, c, r))
include stream

theorem Pkg.expFrame_of : p.expFrame f = (p.takeCodes f.dstDie i r f.seq (f.payload.map BitVec.toNat)).tryAgree f.dstDie i := by
  simp only [Pkg.expFrame, stream]

/-- The codes of an AGREE are noted, then their blocks' contributions go out. -/
theorem Pkg.agreeFrame_of (ecc : Ecc) :
    let codes := f.payload.zipIdx.map (fun x => (f.seq + x.2, x.1.toNat))
    let q := codes.foldl (fun p x => p.updStream f.dstDie i (fun s => { s with agreed := s.agreed.set (blockKey r x.1) x.2 })) p
    p.agreeFrame f ecc = codes.foldl (fun p x => match p.streamCmd f.dstDie i with
      | some (s, c) => if s.parked = true ∨ blockKey r x.1 ∈ s.sentC then p else p.contribute f.dstDie i s c r x.1 x.2 ecc
      | none => p) q := by
  intro codes q
  unfold Pkg.agreeFrame
  rw [stream]
  refine congrArg (fun g => codes.foldl g q) (funext fun p => funext fun x => ?_)
  cases p.streamCmd f.dstDie i with
  | none => rfl
  | some y => simp only [Bool.or_eq_true, List.contains_iff_mem]

theorem Pkg.contribFrame_bad {off : Nat} (bad : unsegs 0 f.payload = .error off) :
    p.contribFrame f = (p.datapath f.dstDie 0).haltOwn f.dstDie i 1 (c.srcIndex t.n t.rank f.seq) := by
  simp only [Pkg.contribFrame, stream, bad] <;> rfl

theorem Pkg.sparseFrame_bad {off : Nat} (bad : unsegs 0 f.payload = .error off) :
    p.sparseFrame f = (p.datapath f.dstDie 0).haltOwn f.dstDie i 1 (c.srcIndex t.n t.rank f.seq) := by
  simp only [Pkg.sparseFrame, stream, bad] <;> rfl

theorem Pkg.contribFrame_good {bs : List Byte} (good : unsegs 0 f.payload = .ok bs) :
    p.contribFrame f =
      p.takeContrib f i t c r ((inChunks 6 (bs.take 1536)).map (fun b => signedOf 48 (ofBytes b))) ((bs.getD 1538 0#8).getLsbD 0) := by
  simp only [Pkg.contribFrame, stream, good]

theorem Pkg.sparseFrame_good {bs : List Byte} (good : unsegs 0 f.payload = .ok bs) :
    let es := (inChunks 7 bs).map (fun b => (ofBytes (b.take 1), signedOf 48 (ofBytes (b.drop 1))))
    p.sparseFrame f = p.takeContrib f i t c r ((List.range 256).map (fun k =>
      match es.find? (fun e => e.1 = k) with | some e => e.2 | none => 0)) false := by
  intro es
  have value (o : Option (Nat × Int)) : (o.map Prod.snd).getD 0 = match o with | some e => e.2 | none => 0 := by cases o <;> rfl
  simp only [Pkg.sparseFrame, stream, good, value]
  rfl

theorem Pkg.appliedFrame_ranked (ranked : c.ranked = true) :
    p.appliedFrame f = p.updStream f.dstDie i (fun s => { s with ackd := if s.ackd.contains r then s.ackd else r :: s.ackd }) := by
  simp only [Pkg.appliedFrame, stream, ranked, if_true]

theorem Pkg.appliedFrame_blocks (blocks : c.ranked = false) :
    p.appliedFrame f = p.updStream f.dstDie i (fun s => { s with
      ackd := ((inChunks 4 f.payload).map (fun b => blockKey r (ofBytes b))).foldl (fun l k => if l.contains k then l else k :: l) s.ackd }) := by
  simp only [Pkg.appliedFrame, stream, blocks, Bool.false_eq_true, if_false]

theorem Pkg.shardAck_of :
    p.shardAck f = p.updStream f.dstDie i (fun s => { s with shardAcks := if s.shardAcks.contains r then s.shardAcks else r :: s.shardAcks }) := by
  simp only [Pkg.shardAck, stream]

/-- A GRANT sends once its owner is READY. -/
theorem Pkg.grantFrame_of (ecc : Ecc) {q : Pkg}
    (noted : p.updStream f.dstDie i (fun s => { s with grants := if s.grants.contains r then s.grants else r :: s.grants }) = q) {t' : Stream}
    (now : q.streamCmd f.dstDie i = some (t', c)) (free : t'.parked = false) (ranked : c.ranked = true) (unsent : t'.sentR.contains r = false) :
    p.grantFrame f ecc = if t'.ready.contains r = false then q else q.sendRank f.dstDie i t' c r ecc := by
  subst noted
  simp only [Pkg.grantFrame, stream, now, free, ranked, unsent, Bool.false_or, Bool.not_true, Bool.or_false, Bool.not_eq_true']

theorem Pkg.rankData_bad (ecc : Ecc) {k off : Nat} (slot : t.slots.find r = some k) (bad : unsegs 0 f.payload = .error off) :
    p.rankData f ecc = (p.datapath f.dstDie 0).haltOwn f.dstDie i 1 (c.rankElem t.rank ((f.aux + off) / 4)) := by
  simp only [Pkg.rankData, stream, slot, bad] <;> rfl

theorem Pkg.rankData_good (ecc : Ecc) {k : Nat} {bs : List Byte} (slot : t.slots.find r = some k) (good : unsegs 0 f.payload = .ok bs) :
    p.rankData f ecc =
      let at' := c.f 88 8 + k * (4 * c.elems) + f.aux
      let q := p.collAsk f.dstDie i [] (piecesOf at' bs.length)
      if q.2 = false then q.1.requeue f
      else Pkg.commitDue f.dstDie i ecc t.n
        ((q.1.write at' bs c.ids c.tag).updStream f.dstDie i (fun s => { s with got := s.got.upd r 0 (· + bs.length) })) := by
  simp only [Pkg.rankData, stream, slot, good, Bool.not_eq_true'] <;> rfl

end

theorem Pkg.readyFrame_of (stream : p.findStream f.dstDie f.epoch f.group f.id = some (i, t, c)) {r : Nat} (rank : t.rankOf f = some r) :
    p.readyFrame f =
      ((p.updStream f.dstDie i (fun s => { s with ready := if s.ready.contains r then s.ready else r :: s.ready })).tryAgree f.dstDie i).ackShards
        f.dstDie i := by
  simp only [Pkg.readyFrame, stream, rank]

theorem Pkg.haltFrame_of (stream : p.findStream f.dstDie f.epoch f.group f.id = some (i, t, c)) :
    p.haltFrame f = p.haltStream f.dstDie i t.cmd 4 (f.aux / 2 ^ 32 % 2 ^ 16) (f.aux % 2 ^ 32) t.members := by
  simp only [Pkg.haltFrame, stream]

end

/-! Frames of a triple without a stream (R269, R286). -/

section
variable {p : Pkg} {f : Frame} (none' : p.findStream f.dstDie f.epoch f.group f.id = none)
include none'

theorem Pkg.readyFrame_none :
    p.readyFrame f = if p.hungTriple f.dstDie f.epoch f.group f.id then p
      else if 4096 ≤ (p.die f.dstDie).ready.length then p.requeue f
      else p.updDie f.dstDie (fun d => { d with ready := d.ready ++ [⟨f.epoch, f.group, f.id, memberEntry f.src f.srcDie, f.job, none⟩] }) := by
  simp only [Pkg.readyFrame, none']

theorem Pkg.haltFrame_none :
    p.haltFrame f = p.updDie f.dstDie (fun d => { d with ready := d.ready.map (fun r =>
      if r.epoch = f.epoch && r.group = f.group && r.cid = f.id then { r with halted := some (f.aux / 2 ^ 32 % 2 ^ 16, f.aux % 2 ^ 32) } else r) }) := by
  simp only [Pkg.haltFrame, none']

end

/-! A SHARD (R278, R279). -/

theorem Pkg.mem_shardFor (p : Pkg) (f : Frame) (m i : Nat) (t : Stream) (c : Cmd) (r : Nat) :
    (m, i, t, c, r) ∈ p.shardFor f ↔ m < p.board.dies ∧ p.findStream m f.epoch f.group f.id = some (i, t, c) ∧ t.rankOf f = some r := by
  unfold Pkg.shardFor
  simp only [List.mem_filterMap, List.mem_range]
  constructor
  · rintro ⟨n, present, found⟩
    cases stream : p.findStream n f.epoch f.group f.id with
    | none => simp [stream] at found
    | some x =>
      obtain ⟨i', t', c'⟩ := x
      simp only [stream, Option.map_eq_some_iff, Prod.mk.injEq] at found
      obtain ⟨r', rank, rfl, rfl, rfl, rfl, rfl⟩ := found
      exact ⟨present, stream, rank⟩
  · rintro ⟨present, stream, rank⟩
    exact ⟨m, present, by simp [stream, rank]⟩

theorem Pkg.shardFrame_bad {p : Pkg} {f : Frame} {off : Nat} (bad : unsegs f.seq f.payload = .error off) :
    p.shardFrame f = (p.shardFor f).foldl (fun p x =>
      (p.datapath x.1 0).haltOwn x.1 x.2.1 1 (x.2.2.2.1.shardBlock x.2.2.1.n x.2.2.2.2 (f.aux + off))) p := by
  simp only [Pkg.shardFrame, bad] <;> rfl

theorem Pkg.shardFrame_good {p : Pkg} {f : Frame} {bs : List Byte} (good : unsegs f.seq f.payload = .ok bs) :
    let ask := (p.shardFor f).foldl (fun (q : Pkg × Bool) x =>
      if q.2 then q.1.collAsk x.1 x.2.1 [] (p.shardWrites x.1 x.2.2.2.1 x.2.2.1.n x.2.2.2.2 f.aux bs.length) else q) (p, true)
    let put (q : Pkg) (m i : Nat) (t : Stream) (c : Cmd) (r : Nat) : Pkg :=
      let here := t.got.getD r 0 + bs.length
      let w := ((q.dovetail f.dstDie m bs.length c.ids).putShard m c t.n r f.aux bs).updStream m i (fun s => { s with got := s.got.set r here })
      if c.shardBytes t.n r ≤ here then
        (w.updStream m i (fun s => { s with shards := if s.shards.contains r then s.shards else r :: s.shards })).ackShards m i
      else w
    p.shardFrame f = if ask.2 = false then ask.1.requeue f
      else (p.shardFor f).foldl (fun q x =>
        if q.pathBad f.dstDie x.1 = true ∨ q.shardBad x.1 x.2.2.2.1 = true then
          q.haltPath x.1 x.2.1 (some (x.2.2.2.1.shardBlock x.2.2.1.n x.2.2.2.2 f.aux))
        else put q x.1 x.2.1 x.2.2.1 x.2.2.2.1 x.2.2.2.2) ask.1 := by
  simp only [Pkg.shardFrame, good, Bool.not_eq_true', Bool.or_eq_true] <;> rfl

/-- A FENCE is kept for its epoch. -/
theorem Pkg.fenceFrame_idle {p : Pkg} (f : Frame) (idle : p.epochNow = none) : (p.fenceFrame f).fw.epochFrom =
    if p.fw.epochFrom.contains (f.src, f.aux % 2 ^ 16) then p.fw.epochFrom else p.fw.epochFrom ++ [(f.src, f.aux % 2 ^ 16)] := by
  have still (x : List (Nat × Nat)) : ({ p with fw := { p.fw with epochFrom := x } } : Pkg).epochNow = none := idle
  unfold Pkg.fenceFrame
  dsimp only
  rw [still]

/-- Settles O40: each frame of a collective by the equation of what it does to its stream, or without one. -/
theorem collectiveFramesAct : Obligations.CollectiveFramesAct := by
  intro p f n
  refine ⟨fun i t c stream => ⟨fun r rank => ?_, Pkg.haltFrame_of stream⟩, fun none' => ?_,
    ⟨fun off bad => Pkg.shardFrame_bad bad, fun bs good => ?_, p.mem_shardFor f⟩, p.fenceFrame_idle f⟩
  · have sender := Pkg.frameStream_of stream rank
    refine ⟨Pkg.readyFrame_of stream rank, Pkg.expFrame_of sender, Pkg.agreeFrame_of sender, ?_, ?_, Pkg.appliedFrame_ranked sender,
      Pkg.appliedFrame_blocks sender, Pkg.shardAck_of sender, ?_, ?_⟩
    · intro q bs good
      have contrib := Pkg.contribFrame_good sender good
      have sparse := Pkg.sparseFrame_good sender good
      exact ⟨fun refused => ⟨contrib.trans (if_neg (ne_true_of_eq_false refused)), sparse.trans (if_neg (ne_true_of_eq_false refused))⟩,
        fun admitted => ⟨contrib.trans (if_pos admitted), sparse.trans (if_pos admitted)⟩⟩
    · exact fun off bad => ⟨Pkg.contribFrame_bad sender bad, Pkg.sparseFrame_bad sender bad, fun k ecc slot => Pkg.rankData_bad sender ecc slot bad⟩
    · intro q ecc t' now free ranked unsent
      have eq := Pkg.grantFrame_of sender ecc (q := q) rfl now free ranked unsent
      exact ⟨fun notReady => eq.trans (if_pos notReady), fun ready => eq.trans (if_neg (ne_false_of_eq_true ready))⟩
    · intro k bs slot good ecc at' q
      have eq := Pkg.rankData_good sender ecc slot good
      exact ⟨fun refused => eq.trans (if_pos refused), fun admitted => eq.trans (if_neg (ne_false_of_eq_true admitted))⟩
  · have gone := Pkg.frameStream_none none'
    have ready := Pkg.readyFrame_none none'
    refine ⟨fun hung => ready.trans (if_pos hung), fun free room => ready.trans ((if_neg (ne_true_of_eq_false free)).trans (if_neg (Nat.not_le.mpr room))),
      fun free full => ready.trans ((if_neg (ne_true_of_eq_false free)).trans (if_pos full)), ?_⟩
    simp only [Pkg.expFrame, Pkg.contribFrame, Pkg.sparseFrame, Pkg.appliedFrame, Pkg.shardAck, Pkg.agreeFrame, Pkg.grantFrame, Pkg.rankData, gone,
      Pkg.haltFrame_none none', true_and, implies_true]
    rfl
  · intro ask put
    have eq := Pkg.shardFrame_good (p := p) good
    exact ⟨fun refused => eq.trans (if_pos refused), fun admitted => eq.trans (if_neg (ne_false_of_eq_true admitted))⟩

end Sys2Proof.Machine
end

section
/-! PROOFS. What copy, peg and UNREACH frames do (O41). -/
namespace Sys2Proof.Machine

/-! READ (R303). -/

/-- A range inside one block of 256 bytes is one segment. -/
theorem segments_one {fuel a n : Nat} (some : 0 < n) (one : a % 256 + n ≤ 256) : segments (fuel + 2) a n = [(a, n)] := by
  have whole : min n (256 - a % 256) = n := by omega
  simp only [segments, Nat.ne_of_gt some, if_false, whole, Nat.sub_self, if_true]

section
variable {p : Pkg} {f : Frame} {ecc : Ecc}

theorem Pkg.readFrame_parked {q : Pkg × Bool} (ask : (p.meets ecc).askAll (.fabric f.dstDie) (piecesOf (f.aux % 2 ^ 48) f.seq) [] = q)
    (refused : q.2 = false) : p.readFrame f ecc = q.1.requeue f := by
  subst ask
  exact if_pos (congrArg not refused)

theorem Pkg.readFrame_one {q : Pkg × Bool} (ask : (p.meets ecc).askAll (.fabric f.dstDie) (piecesOf (f.aux % 2 ^ 48) f.seq) [] = q)
    (admitted : q.2 = true) (one : f.aux % 2 ^ 48 % 256 + f.seq ≤ 256) (some : 0 < f.seq) {x : Pkg × Pull}
    (pull : q.1.pullNow f.dstDie 6 0 (f.aux % 2 ^ 48) f.seq f.ids ecc.later = x) :
    p.readFrame f ecc = match (generalizing := false) x with
      | (r, .data bs) => r.reply f 3 0 0 (segment bs)
      | (r, _) => r.reply f 3 0 1 (segment (List.replicate f.seq 0#8)) := by
  subst ask pull
  have admits : ¬ ((!((p.meets ecc).askAll (.fabric f.dstDie) (piecesOf (f.aux % 2 ^ 48) f.seq) []).2) = true) := by
    rw [admitted]
    exact Bool.false_ne_true
  refine (if_neg admits).trans ?_
  rw [segments_one some one]
  rfl

end

/-! Copies (R303, R377). -/

section
variable {p : Pkg}

theorem Pkg.readData_of {f : Frame} {x : FabRead} {c : Cmd}
    (mine : p.fab.reads.find? (fun x => x.tag = f.id && ofPackage f.src x.src && x.data.isNone) = some x) (cmd : p.cmds.find x.cmd = some c) :
    p.readData f =
      let segs := payloadAt 0 x.src f.payload
      let y : FabRead := { x with data := some (segs.flatMap (fun y => y.2.1)) }
      if f.aux % 2 ^ 16 ≠ 0 then p.engineAbort x.cmd 2 x.pos x.src
      else if segs.any (fun y => !y.2.2) = true then (p.datapath c.engDie (x.src % 2 ^ 48)).engineAbort x.cmd 2 x.pos x.src
      else ({ p with fab := { p.fab with reads := p.fab.reads.map (fun z => if z = x then y else z) } } : Pkg).commitRead x.cmd y := by
  unfold Pkg.readData
  dsimp only
  rw [mine]
  dsimp only
  rw [cmd]

section
variable {x : FabRead} {c : Cmd} {bs : List Byte} (cmd : p.cmds.find x.cmd = some c) (data : x.data = some bs)
include cmd data

theorem Pkg.commitRead_failed (way : p.spaceBad c.engDie (p.space c.xfer.dstSp x.dst) = true) :
    p.commitRead x.cmd x = p.engineAbort x.cmd 4 x.pos x.src := by
  unfold Pkg.commitRead
  rw [cmd, data]
  exact if_pos way

/-- Data that came back are written where the tracker lets them in. -/
theorem Pkg.commitRead_writes {tgt : Space} (space : p.space c.xfer.dstSp x.dst = tgt) (way : p.spaceBad c.engDie tgt = false)
    (host : ∀ b, tgt = .host b → p.hostMem = true) {e : Nat} (engine : (p.engineOf c x.cmd).getD 0 = e) {q : Pkg × Bool}
    (ask : p.askAll (.engine (c.engDie * 8 + e)) [] (tgt.writes bs.length) = q) :
    p.commitRead x.cmd x =
      if q.2 = false then q.1.parkEngine c.engDie e
      else (({ q.1 with fab := { q.1.fab with
        reads := removeFirst (fun z => z = x) q.1.fab.reads } }.push c.engDie c x.cmd x.src tgt bs).progress c.job).engineDone x.cmd := by
  subst space engine ask
  have reach : ¬ (((p.space c.xfer.dstSp x.dst matches .host _) && !p.hostMem) = true) := by
    intro shut
    rw [Bool.and_eq_true] at shut
    obtain ⟨isHost, closed⟩ := shut
    revert isHost
    split
    · next b h =>
      rw [host b h] at closed
      exact absurd closed Bool.false_ne_true
    · exact fun h => absurd h Bool.false_ne_true
  unfold Pkg.commitRead
  rw [cmd, data]
  refine (if_neg (ne_true_of_eq_false way)).trans ((if_neg reach).trans ?_)
  exact ite_congr (Bool.not_eq_true' _) (fun _ => rfl) (fun _ => rfl)

end

theorem Pkg.writeAck_of {f : Frame} {x : FabWrite} {c : Cmd}
    (mine : p.fab.writes.find? (fun x => x.tag = f.id && ofPackage f.src x.dst) = some x) (cmd : p.cmds.find x.cmd = some c) {q : Pkg}
    (acked : ({ p with fab := { p.fab with writes := removeFirst (fun x => x.tag = f.id && ofPackage f.src x.dst) p.fab.writes } } : Pkg) = q) :
    p.writeAck f =
      if c.ty = 6 then (if f.aux % 2 ^ 16 ≠ 0 ∨ q.awaits x.cmd = true then q else (q.dropCmd x.cmd).finish x.cmd 0 0 0)
      else if f.aux % 2 ^ 16 ≠ 0 then q.engineAbort x.cmd 2 c.row x.src
      else q.engineDone x.cmd := by
  subst acked
  unfold Pkg.writeAck
  dsimp only
  rw [mine]
  dsimp only
  rw [cmd]
  simp only [Bool.or_eq_true, decide_eq_true_eq]

end

/-! Signals (R162, R308). -/

/-- A PSIG is applied and acknowledged. -/
theorem Pkg.psigFrame_eq (p : Pkg) (f : Frame) :
    p.psigFrame f =
      let t := f.aux % 2 ^ 32
      let k := f.aux / 2 ^ 32 % 2 ^ 16
      let n := t / 2 ^ 15 % 8
      (if f.aux / 2 ^ 48 % 8 = 3 then p.addLocal n (t / 2 ^ 9 % 64) (t % 64) k
        else if p.present n then p.addDpeg n (t % 256) k else p).reply f 6 f.seq f.aux [] := rfl

/-! UNREACH (R314). -/

section
variable {p : Pkg} {f : Frame}

theorem Pkg.unreachFrame_write (ty : (Frame.ofHeader f.payload).ty = 1) {x : FabWrite}
    (mine : p.fab.writes.find? (fun x => x.tag = (Frame.ofHeader f.payload).id && x.dst = (Frame.ofHeader f.payload).aux) = some x) :
    p.unreachFrame f = p.pathEnd x.cmd (f.aux % 8) x.dst := by
  unfold Pkg.unreachFrame
  dsimp only
  rw [ty, mine]
  rfl

theorem Pkg.unreachFrame_read (ty : (Frame.ofHeader f.payload).ty = 2) {x : FabRead}
    (mine : p.fab.reads.find? (fun x => x.tag = (Frame.ofHeader f.payload).id && x.src = (Frame.ofHeader f.payload).aux) = some x) :
    p.unreachFrame f = p.pathEnd x.cmd (f.aux % 8) x.src := by
  unfold Pkg.unreachFrame
  dsimp only
  rw [ty, mine]
  rfl

/-- A reply whose requester is this package. -/
theorem Pkg.unreachFrame_data (ty : (Frame.ofHeader f.payload).ty = 3) (here : (Frame.ofHeader f.payload).dst = p.coord) {x : FabRead}
    (mine : p.fab.reads.find? (fun x => x.tag = (Frame.ofHeader f.payload).id && ofPackage (Frame.ofHeader f.payload).src x.src) = some x) :
    p.unreachFrame f = p.pathEnd x.cmd (f.aux % 8) x.src := by
  unfold Pkg.unreachFrame
  dsimp only
  rw [ty, here, mine]
  exact if_neg (by simp)

theorem Pkg.unreachFrame_ack (ty : (Frame.ofHeader f.payload).ty = 4) (here : (Frame.ofHeader f.payload).dst = p.coord) {x : FabWrite}
    (mine : p.fab.writes.find? (fun x => x.tag = (Frame.ofHeader f.payload).id && ofPackage (Frame.ofHeader f.payload).src x.dst) = some x) :
    p.unreachFrame f = p.pathEnd x.cmd (f.aux % 8) x.dst := by
  unfold Pkg.unreachFrame
  dsimp only
  rw [ty, here, mine]
  exact if_neg (by simp)

end

/-- Settles O41: each frame of a copy, a peg or an UNREACH by the equation of its case. -/
theorem copyFramesAct : Obligations.CopyFramesAct := by
  intro p f ecc a segs good w r
  refine ⟨fun refused => if_pos (congrArg not refused), fun admitted => if_neg (by rw [admitted]; exact Bool.false_ne_true),
    Pkg.readFrame_parked rfl, fun admitted one some => ?_, fun x c mine cmd => ?_, fun x c bs cmd data => ?_, fun x c mine cmd => ?_, ?_, ?_, ?_, ?_⟩
  · generalize hx : r.1.pullNow f.dstDie 6 0 a f.seq f.ids ecc.later = x
    obtain ⟨q, pull⟩ := x
    have eq := Pkg.readFrame_one (q := r) rfl admitted one some hx
    refine ⟨fun bs h => ?_, fun cause b h => ?_⟩
    · cases h
      exact eq
    · cases h
      exact eq
  · intro segs y q
    have eq := Pkg.readData_of mine cmd
    exact ⟨fun marked => eq.trans (if_pos marked), fun clean bad => eq.trans ((if_neg (fun h => h clean)).trans (if_pos bad)),
      fun clean whole => eq.trans ((if_neg (fun h => h clean)).trans (if_neg (ne_true_of_eq_false whole)))⟩
  · intro n e tgt q
    refine ⟨fun way => Pkg.commitRead_failed cmd data way, fun way host => ?_⟩
    have eq := Pkg.commitRead_writes cmd data (tgt := tgt) rfl way host (e := e) rfl (q := q) rfl
    exact ⟨fun refused => eq.trans (if_pos refused), fun admitted => eq.trans (if_neg (ne_false_of_eq_true admitted))⟩
  · intro q
    have eq := Pkg.writeAck_of mine cmd (q := q) rfl
    refine ⟨fun clean copy => ?_, fun marked copy => ?_, fun marked scrub => ?_, fun clean scrub last => ?_⟩
    · exact eq.trans ((if_neg copy).trans (if_neg (fun h => h clean)))
    · exact eq.trans ((if_neg copy).trans (if_pos marked))
    · exact eq.trans ((if_pos scrub).trans (if_pos (.inl marked)))
    · exact eq.trans ((if_pos scrub).trans (if_neg (fun h => h.elim (fun m => m clean) (fun still => ne_true_of_eq_false last still))))
  · intro t k die
    refine ⟨fun scope key bound => ?_, fun scope unbound => ?_, fun scope present => ?_⟩
    · rw [Pkg.psigFrame_eq]
      dsimp only
      rw [if_pos scope, Pkg.addLocal_bound bound]
    · rw [Pkg.psigFrame_eq]
      dsimp only
      rw [if_pos scope, Pkg.addLocal_unbound unbound]
    · rw [Pkg.psigFrame_eq]
      dsimp only
      rw [if_neg scope, if_pos present]
  · intro o mine
    simp only [Pkg.psigAck, mine]
  · intro gone
    simp only [Pkg.psigAck, gone]
  · exact ⟨fun ty x => Pkg.unreachFrame_write ty, fun ty x => Pkg.unreachFrame_read ty, fun ty here x => Pkg.unreachFrame_data ty here,
      fun ty here x => Pkg.unreachFrame_ack ty here⟩

end Sys2Proof.Machine
end

section
/-! PROOFS. The host's rings (O47): doorbells, fetch turns, firing, start queues, completion entries and interrupts. -/
namespace Sys2Proof.Machine

/-! Doorbells (R369, R370). -/

theorem Pkg.commandBell_off {p : Pkg} {r : Nat} (v : Nat) (off : (p.ring r).en = false) : p.commandBell r v = p :=
  if_pos (by rw [off, Bool.not_false, Bool.or_true])

section
variable {p : Pkg} (space : p.port.memSpace = true)
include space

theorem Pkg.commandBell_on {r : Nat} (v : Nat) (hr : r < 32768) (en : (p.ring r).en = true) :
    p.commandBell r v = { p with rings := p.rings.set r { p.ring r with tail := v % 2 ^ 32 },
                                 port := { p.port with bells := p.port.bells.set r (v % 2 ^ 32) } } :=
  if_neg (by rw [space, en, decide_eq_false (Nat.not_le.mpr hr)]; decide)

theorem Pkg.completionBell_on {c : Nat} (v : Nat) (hc : c < 4096) :
    p.completionBell c v = { p with cqs := p.cqs.set c { p.cq c with head := v % 2 ^ 32 },
                                    port := { p.port with bells := p.port.bells.set (32768 + c) (v % 2 ^ 32) } } :=
  if_neg (by rw [space, decide_eq_false (Nat.not_le.mpr hc)]; decide)

end

/-! Fetch turns (R371 to R373). -/

/-- The command at the head of a ring, as the table takes it. -/
def Pkg.headCmd (p : Pkg) (r : Nat) (q : Ring) : Cmd :=
  { d := p.hostRead (q.slot q.head) 64 ++ (if p.headSlots q = 2 then p.hostRead (q.slot (q.head + 1)) 64 else []), ring := r, prio := q.prio
    seq := q.head, arr := p.arrivals, stage := .fetched, fire := none, left := [], started := [], fail := none, fin := none, prog := 0, began := 0
    idx := 0, crc := 0#32, tally := [], ues := [], record := [], recAt := none, suspect := 0#32, abortDue := false }

/-- The package once it has taken the head of a ring and stored the new head. -/
def Pkg.headTaken (p : Pkg) (r : Nat) (q : Ring) : Pkg :=
  let head := (q.head + p.headSlots q) % 2 ^ 32
  let t := { p with cmds := p.cmds.set p.arrivals (p.headCmd r q), arrivals := p.arrivals + 1, rings := p.rings.set r { q with head := head }
                    port := { p.port with lastRing := p.port.lastRing.set q.prio r } }
  let t := t.rdCurr (q.slot q.head) 64
  let t := if p.headSlots q = 2 then t.rdCurr (q.slot (q.head + 1)) 64 else t
  (t.hostWrite (t.ringCtx r + 12) (toBytes 4 head)).traceCmd (p.headCmd r q) 1 (p.headCmd r q).ty q.head

section
variable {p : Pkg} (runs : p.fw.inReset = false) (host : p.hostMem = true) (fetch : p.fld (rRING_CTRL.at 0 0 0) fRING_CTRL_FETCH = 1)
include runs host fetch

theorem Pkg.fetches : ¬ ((p.fw.inReset || !p.hostMem || decide (p.fld (rRING_CTRL.at 0 0 0) fRING_CTRL_FETCH = 0)) = true) := by
  rw [runs, host, fetch]
  decide

theorem Pkg.fetchTurn_none (idle : p.fetchRing = none) : p.fetchTurn = p := by
  refine (if_neg (Pkg.fetches runs host fetch)).trans ?_
  rw [idle]

/-- The command at the head of the ring that is served enters the table. -/
theorem Pkg.fetchTurn_takes {r : Nat} {q : Ring} (serves : p.fetchRing = some (r, q)) :
    p.fetchTurn =
      if (p.headCmd r q).job ≠ 0 ∧ (p.headTaken r q).jobAborted (p.headCmd r q).job = true then (p.headTaken r q).whileAborted p.arrivals (p.headCmd r q)
      else if knownType (p.headCmd r q).ty = false then (p.headTaken r q).malformed p.arrivals
      else p.headTaken r q := by
  refine (if_neg (Pkg.fetches runs host fetch)).trans ?_
  rw [serves]
  exact ite_congr ((Bool.and_eq_true _ _).trans (congrArg (· ∧ _) decide_eq_true_eq)) (fun _ => rfl)
    (fun _ => ite_congr (Bool.not_eq_true' _) (fun _ => rfl) (fun _ => rfl))

end

/-! Sorting (R372). -/

theorem insertBy_perm {α : Type} (lt : α → α → Bool) (x : α) (l : List α) : (insertBy lt x l).Perm (x :: l) := by
  induction l with
  | nil => exact .refl _
  | cons y ys ih =>
    rw [insertBy]
    split
    · exact .refl _
    · exact (ih.cons y).trans (.swap x y ys)

theorem sortBy_perm {α : Type} (lt : α → α → Bool) (l : List α) : (sortBy lt l).Perm l := by
  induction l with
  | nil => exact .refl _
  | cons x xs ih => exact (insertBy_perm lt x (sortBy lt xs)).trans (ih.cons x)

section
variable {α : Type} {lt : α → α → Bool} (total : ∀ a b, lt a b = true ∨ lt b a = true) (trans : ∀ a b c, lt a b = true → lt b c = true → lt a c = true)
include total trans

theorem insertBy_pairwise (x : α) {l : List α} (sorted : l.Pairwise (fun a b => lt a b = true)) :
    (insertBy lt x l).Pairwise (fun a b => lt a b = true) := by
  induction l with
  | nil => exact List.pairwise_singleton _ x
  | cons y ys ih =>
    obtain ⟨first, rest⟩ := List.pairwise_cons.mp sorted
    rw [insertBy]
    split
    next before =>
      refine List.pairwise_cons.mpr ⟨fun z hz => ?_, sorted⟩
      rcases List.mem_cons.mp hz with rfl | later
      · exact before
      · exact trans x y z before (first z later)
    next after =>
      refine List.pairwise_cons.mpr ⟨fun z hz => ?_, ih rest⟩
      rcases List.mem_cons.mp ((insertBy_perm lt x ys).mem_iff.mp hz) with rfl | later
      · exact (total z y).resolve_left after
      · exact first z later

theorem sortBy_pairwise (l : List α) : (sortBy lt l).Pairwise (fun a b => lt a b = true) := by
  induction l with
  | nil => exact .nil
  | cons x xs ih => exact insertBy_pairwise total trans x ih

end

theorem firesBefore_iff (a b : Nat × Cmd) : firesBefore a b = true ↔ a.2.prio < b.2.prio ∨ (a.2.prio = b.2.prio ∧ a.2.arr ≤ b.2.arr) := by
  simp only [firesBefore, Bool.or_eq_true, Bool.and_eq_true, decide_eq_true_eq]

/-- By class, then by arrival. -/
theorem sortBy_firesBefore (l : List (Nat × Cmd)) : (sortBy firesBefore l).Perm l ∧ (sortBy firesBefore l).Pairwise (fun a b =>
    a.2.prio < b.2.prio ∨ (a.2.prio = b.2.prio ∧ a.2.arr ≤ b.2.arr)) := by
  have total (a b : Nat × Cmd) : firesBefore a b = true ∨ firesBefore b a = true := by
    simp only [firesBefore_iff]
    omega
  have trans (a b c : Nat × Cmd) : firesBefore a b = true → firesBefore b c = true → firesBefore a c = true := by
    simp only [firesBefore_iff]
    omega
  exact ⟨sortBy_perm _ l, (sortBy_pairwise total trans l).imp (fun h => (firesBefore_iff _ _).mp h)⟩

/-! WAITs (R374). -/

/-- What a command waits for, summed for one peg. -/
def Cmd.waitCount (c : Cmd) (n r : Nat) : Nat := ((c.waits.filter (fun v => v.1 = n && v.2.1 = r)).map (fun v => v.2.2)).sum

theorem foldl_add_eq_sum {α : Type} (f : α → Nat) (l : List α) (t : Nat) : l.foldl (fun t v => t + f v) t = t + (l.map f).sum := by
  induction l generalizing t with
  | nil => rfl
  | cons x xs ih => rw [List.foldl_cons, ih, List.map_cons, List.sum_cons, Nat.add_assoc]

theorem Pkg.waitsOk_iff (p : Pkg) (c : Cmd) :
    p.waitsOk c = true ↔ ∀ w ∈ c.waits, p.present w.1 = true ∧ c.waitCount w.1 w.2.1 ≤ p.dpeg w.1 w.2.1 := by
  simp only [Pkg.waitsOk, List.all_eq_true, Bool.and_eq_true, decide_eq_true_eq, foldl_add_eq_sum, Nat.zero_add, Cmd.waitCount]

theorem Pkg.dpeg_setDpeg (p : Pkg) (n r v m s : Nat) : (p.setDpeg n r v).dpeg m s = if n = m ∧ r = s then v % 2 ^ 32 else p.dpeg m s := by
  unfold Pkg.setDpeg Pkg.dpeg
  rw [Pkg.die_updDie]
  by_cases die : n = m
  · subst die
    rw [if_pos rfl]
    show Tbl.getD (Tbl.set _ r _) s 0 = _
    rw [Tbl.getD_set]
    exact ite_congr (propext ⟨fun h => ⟨rfl, h⟩, And.right⟩) (fun _ => rfl) (fun _ => rfl)
  · rw [if_neg die, if_neg (fun h => die h.1)]

/-- Every peg loses what is waited for of it. -/
theorem foldl_setDpeg (l : List (Nat × Nat × Nat)) (p : Pkg) (small : ∀ n r, p.dpeg n r < 2 ^ 32) (n r : Nat) :
    (l.foldl (fun p w => p.setDpeg w.1 w.2.1 (p.dpeg w.1 w.2.1 - w.2.2)) p).dpeg n r =
      p.dpeg n r - ((l.filter (fun v => v.1 = n && v.2.1 = r)).map (fun v => v.2.2)).sum := by
  induction l generalizing p with
  | nil => rfl
  | cons w ws ih =>
    have taken (m s : Nat) : (p.setDpeg w.1 w.2.1 (p.dpeg w.1 w.2.1 - w.2.2)).dpeg m s =
        if w.1 = m ∧ w.2.1 = s then p.dpeg m s - w.2.2 else p.dpeg m s := by
      rw [Pkg.dpeg_setDpeg]
      split
      next h =>
        obtain ⟨rfl, rfl⟩ := h
        exact Nat.mod_eq_of_lt (Nat.lt_of_le_of_lt (Nat.sub_le _ _) (small _ _))
      next => rfl
    have still (m s : Nat) : (p.setDpeg w.1 w.2.1 (p.dpeg w.1 w.2.1 - w.2.2)).dpeg m s < 2 ^ 32 := by
      rw [taken]
      split
      · exact Nat.lt_of_le_of_lt (Nat.sub_le _ _) (small m s)
      · exact small m s
    rw [List.foldl_cons, ih _ still, taken]
    by_cases h : w.1 = n ∧ w.2.1 = r
    · rw [if_pos h, List.filter_cons_of_pos (by simpa using h), List.map_cons, List.sum_cons, Nat.sub_sub]
    · rw [if_neg h, List.filter_cons_of_neg (by simpa using h)]

theorem Pkg.takeWaits_dpeg {p : Pkg} {c : Cmd} (small : ∀ n r, p.dpeg n r < 2 ^ 32) (n r : Nat) :
    (p.takeWaits c).dpeg n r = p.dpeg n r - c.waitCount n r := foldl_setDpeg c.waits p small n r

theorem Pkg.takeWaits_ftc (p : Pkg) (c : Cmd) : (p.takeWaits c).ftc = p.ftc :=
  (Pkg.run_eq (foldl_run (g := fun p (w : Nat × Nat × Nat) => p.setDpeg w.1 w.2.1 (p.dpeg w.1 w.2.1 - w.2.2)) (fun _ _ => rfl) c.waits p)).2

/-! Firing (R339, R374). -/

/-- Every command that fires. -/
def Pkg.fired (q : Pkg) (k : Nat) (c : Cmd) : Pkg :=
  (((q.takeWaits c).progress c.job).updCmd k (fun c => { c with fire := some q.ftc.now, stage := .fired })).traceCmd c 2 c.ty 0

section
variable {q : Pkg} {k : Nat} {c : Cmd}

/-- KERNEL, UPDATE, PEGSET and NOP. -/
theorem Pkg.fire_plain (ty : c.ty = 1 ∨ c.ty = 2 ∨ c.ty = 11 ∨ c.ty = 12) : q.fire k c = q.fired k c := by
  rcases ty with ty | ty | ty | ty <;>
  · simp only [Pkg.fire, Pkg.fired, ty, ← Pkg.takeWaits_ftc q c, Nat.reduceEqDiff, decide_false, Bool.false_or, Bool.false_and, Bool.false_eq_true, if_false]
    rfl

/-- COPY and GATHER, for their engines. -/
theorem Pkg.fire_engine (ty : c.ty = 3 ∨ c.ty = 4) : q.fire k c =
    ((q.fired k c).updDie c.engDie (fun d => { d with engq := d.engq ++ [k] })).updCmd k (fun c => { c with stage := .queued }) := by
  rcases ty with ty | ty <;>
  · simp only [Pkg.fire, Pkg.fired, ty, ← Pkg.takeWaits_ftc q c, Nat.reduceEqDiff, decide_true, decide_false, Bool.true_or, Bool.false_or, if_true]
    rfl

/-- A collective, for its die's streams. -/
theorem Pkg.fire_coll (ty : c.ty = 7) : q.fire k c =
    ((q.fired k c).updDie c.collDie (fun d => { d with collq := d.collq ++ [k] })).updCmd k (fun c => { c with stage := .queued }) := by
  simp only [Pkg.fire, Pkg.fired, ty, ← Pkg.takeWaits_ftc q c, Nat.reduceEqDiff, decide_false, Bool.false_or, Bool.false_and, Bool.false_eq_true, if_false,
    if_true]
  rfl

theorem Pkg.fireAll_cons (xs : List (Nat × Cmd)) (hit : List Nat) :
    Pkg.fireAll ((k, c) :: xs) hit q =
      if (∀ w ∈ c.waits, q.present w.1 = true ∧ c.waitCount w.1 w.2.1 ≤ q.dpeg w.1 w.2.1) ∧ q.mayFire c hit = true then
        Pkg.fireAll xs (if (c.ty = 1 ∨ c.ty = 2) ∧ c.prio ≠ 3 then hit ++ q.coreSet c else hit) (q.fire k c)
      else Pkg.fireAll xs hit q := by
  rw [Pkg.fireAll]
  refine ite_congr (by rw [Bool.and_eq_true, Pkg.waitsOk_iff]) (fun _ => congrArg (fun h => Pkg.fireAll xs h (q.fire k c)) ?_) (fun _ => rfl)
  exact ite_congr (by rw [Bool.and_eq_true, Bool.or_eq_true, decide_eq_true_eq, decide_eq_true_eq, decide_eq_true_eq]) (fun _ => rfl) (fun _ => rfl)

/-! Start queues (R167 to R169). -/

theorem Pkg.placeWaiting_cons (cmd : q.cmds.find k = some c) (ks busy : List Nat) :
    q.placeWaiting (k :: ks) busy =
      if (∃ x ∈ q.coreSet c, x ∈ busy) ∨ q.roomFor c = false then q.placeWaiting ks (busy ++ q.coreSet c)
      else (q.place2 k c).placeWaiting ks busy := by
  rw [Pkg.placeWaiting, cmd]
  exact ite_congr (by simp only [Bool.or_eq_true, List.any_eq_true, List.contains_iff_mem, Bool.not_eq_true']) (fun _ => rfl) (fun _ => rfl)

theorem Pkg.updCmd_phys (q : Pkg) (k n lc : Nat) (f : Cmd → Cmd) : (q.updCmd k f).phys n lc = q.phys n lc := by
  unfold Pkg.updCmd
  split <;> rfl

/-- The start entry of a core of the set, by its rank. -/
def Pkg.enterStart (k : Nat) (c : Cmd) (cores : Nat) (q : Pkg) (x : Nat × Nat) : Pkg :=
  match q.phys (x.1 / 64) (x.1 % 64) with
  | none => q
  | some key => (q.onKey key (fun core => { core with startq := core.startq ++ [
      { cmd := k, upd := c.ty = 2, ring := c.ring, rank := x.2, cores := cores, image := c.f 32 8, arg0 := BitVec.ofNat 64 (c.f 40 8)
        arg1 := BitVec.ofNat 64 (c.f 48 8), iflush := c.ty = 1 && c.f 31 1 % 2 = 1, tag := c.tag, ids := c.ids
        width := q.width (x.1 / 64) }] })).wake key

/-- The command after its start entries: a core of the set that is not bound fails it. -/
theorem Pkg.place2_eq {w : Pkg} (entered : (q.coreSet c).zipIdx.foldl (Pkg.enterStart k c (q.coreSet c).length) q = w) :
    q.place2 k c =
      let v := w.updCmd k (fun cmd => { cmd with
        stage := .running, left := (q.coreSet c).filter (fun x => (w.phys (x / 64) (x % 64)).isSome) })
      match (q.coreSet c).find? (fun x => (v.phys (x / 64) (x % 64)).isNone) with
      | some x => ((v.failCmd k 1 (2 ^ 29 * (x / 64) + 2 ^ 23 * (x % 64) + 4 * 2 ^ 16) 0 x).policyLater fHS_FAULT_POLICY_TRAP k { Event.blank 0x21 with
          die := x / 64, lcore := x % 64, job := c.job, tag := c.tag, layer := c.ids.layer, op := c.ids.op, detail := 4 }).endIfDone k
      | none => v.endIfDone k := by
  subst entered
  rfl

/-- Where every core of the set is bound, all of them run the command. -/
theorem Pkg.place2_bound {w : Pkg} (entered : (q.coreSet c).zipIdx.foldl (Pkg.enterStart k c (q.coreSet c).length) q = w)
    (bound : ∀ x ∈ q.coreSet c, (w.phys (x / 64) (x % 64)).isSome = true) :
    q.place2 k c = (w.updCmd k (fun cmd => { cmd with stage := .running, left := q.coreSet c })).endIfDone k := by
  have all : (q.coreSet c).filter (fun x => (w.phys (x / 64) (x % 64)).isSome) = q.coreSet c := List.filter_eq_self.mpr bound
  have missing (f : Cmd → Cmd) : (q.coreSet c).find? (fun x => ((w.updCmd k f).phys (x / 64) (x % 64)).isNone) = none := by
    rw [List.find?_eq_none]
    intro x hx
    rw [Pkg.updCmd_phys, Option.isNone_iff_eq_none, ← Option.not_isSome_iff_eq_none]
    exact fun h => h (bound x hx)
  rw [Pkg.place2_eq entered, all]
  dsimp only
  rw [missing]

end

/-! Completion entries and interrupts (R366, R379, R380). -/

section
variable {p : Pkg} {k : Nat} {c : Cmd} {e : Ending} (cmd : p.cmds.find k = some c) (fin : c.fin = some e)
include cmd fin

theorem Pkg.completionEntry_full (full : p.entryRoom c = false) : p.completionEntry k = p := by
  simp only [Pkg.completionEntry, cmd, fin, full, Bool.not_false, if_true]

theorem Pkg.completionEntry_writes (room : p.entryRoom c = true) {i : Nat} (own : p.cqOf c = i) {q : Cq} (queue : p.cq i = q) :
    p.completionEntry k =
      let w := { q with n := (q.n + 1) % 2 ^ 32, uncovered := q.uncovered + 1, since := if q.uncovered = 0 then p.ftc.now else q.since }
      let t : Pkg := { p.hostWrite (q.base + 32 * (q.n % 2 ^ q.size)) (c.entry e q) with cqs := p.cqs.set i w, cmds := p.cmds.del k }
      if e.status ≠ 0 ∨ q.intCount ≤ q.uncovered + 1 then
        ({ t with cqs := t.cqs.set i { w with uncovered := 0 } } : Pkg).raiseVector q.vector
      else t := by
  subst own queue
  unfold Pkg.completionEntry
  rw [cmd]
  dsimp only
  rw [fin]
  refine (if_neg (by rw [room]; exact Bool.false_ne_true)).trans ?_
  refine ite_congr (by rw [Bool.or_eq_true, decide_eq_true_eq, decide_eq_true_eq]) (fun _ => ?_) (fun _ => rfl)
  exact Pkg.interrupt_of _ _ { p.cq (p.cqOf c) with
    n := ((p.cq (p.cqOf c)).n + 1) % 2 ^ 32, uncovered := (p.cq (p.cqOf c)).uncovered + 1
    since := if (p.cq (p.cqOf c)).uncovered = 0 then p.ftc.now else (p.cq (p.cqOf c)).since } (Pkg.cq_of_cqs (cs := p.cqs) _ _ rfl)

end

theorem Pkg.interruptTimer_due {p : Pkg} {c : Nat} (time : (p.cq c).intTime ≠ 0) (some : (p.cq c).uncovered ≠ 0) (up : p.linkUp = true) :
    p.interruptTimer c = (p.until ((p.cq c).since + 1000 * (p.cq c).intTime)).interrupt c :=
  if_neg (by rw [up, decide_eq_false time, decide_eq_false some]; decide)

theorem Pkg.interruptTimer_covered {p : Pkg} {c : Nat} (none : (p.cq c).uncovered = 0) : p.interruptTimer c = p :=
  if_pos (by rw [none, decide_eq_true rfl, Bool.or_true, Bool.true_or])

/-! Arbitration points (R374). -/

theorem Pkg.atTick_arbitrates (q : Pkg) {t : Nat} (point : t % 8 = 0) (window : t % 1000 ≠ 0) :
    q.atTick t =
      let r := ({ q with ftc := { q.ftc with now := t } } : Pkg).switchNow.arbitrateNow.settle
      { r with touched := q.touched, answered := q.answered, used := q.used, ftc := { r.ftc with now := t } } := by
  unfold Pkg.atTick
  dsimp only
  rw [if_neg window, if_pos point]

/-- Settles O47: each event of a ring by the equation of what it does; firing by induction over the commands that may fire. -/
theorem ringsAct : Obligations.RingsAct := by
  intro s hp
  refine ⟨fun r v space hr => ?_, fun c v space hc => ?_, fun runs host fetch => ?_,
    State.inPower_runsTo (f := fun p => p.arbitrate) hp rfl rfl, fun q t => q.atTick_arbitrates, fun q => fun runs => if_neg (ne_true_of_eq_false runs),
    sortBy_firesBefore, fun q k c xs hit => ?_, fun q k c ks busy cmd => ?_, fun k c e cmd fin => ?_, fun c time some up => ?_, fun c none => ?_⟩
  · have bell {d} (hd : s.pkg.commandBell r v = d) : RunsTo (.commandRingDoorbell r v) s d :=
      State.inPower_runsTo (f := fun p => p.commandBell r v) hp rfl hd
    exact ⟨fun en => bell (Pkg.commandBell_on space v hr en), fun off => bell (Pkg.commandBell_off v off)⟩
  · exact State.inPower_runsTo (f := fun p => p.completionBell c v) hp rfl (Pkg.completionBell_on space v hc)
  · have turn {d} (hd : s.pkg.fetchTurn = d) : RunsTo .fetchTurn s d := State.inPower_runsTo (f := fun p => p.fetchTurn) hp rfl hd
    refine ⟨fun idle => turn (Pkg.fetchTurn_none runs host fetch idle), fun r q serves => ?_⟩
    have eq := Pkg.fetchTurn_takes runs host fetch serves
    exact ⟨fun going known => turn (eq.trans ((if_neg going).trans (if_neg (ne_false_of_eq_true known)))),
      fun going unknown => turn (eq.trans ((if_neg going).trans (if_pos unknown))), fun ended => turn (eq.trans (if_pos ended))⟩
  · intro counts fires fired
    exact ⟨fun yes => (Pkg.fireAll_cons xs hit).trans (if_pos yes), fun no => (Pkg.fireAll_cons xs hit).trans (if_neg no),
      fun _ small => Pkg.takeWaits_dpeg small, Pkg.fire_plain, Pkg.fire_engine, Pkg.fire_coll⟩
  · intro set blocked enter
    exact ⟨fun yes => (Pkg.placeWaiting_cons cmd ks busy).trans (if_pos yes), fun no => (Pkg.placeWaiting_cons cmd ks busy).trans (if_neg no),
      fun _ bound => Pkg.place2_bound (w := set.zipIdx.foldl enter q) rfl bound⟩
  · intro i q
    have writes {d} (hd : s.pkg.completionEntry k = d) : RunsTo (.completionEntry k) s d :=
      State.inPower_runsTo (f := fun p => p.completionEntry k) hp rfl hd
    refine ⟨fun full => writes (Pkg.completionEntry_full cmd fin full), fun room => ?_⟩
    have eq := Pkg.completionEntry_writes cmd fin room (i := i) rfl (q := q) rfl
    exact ⟨fun covers => writes (eq.trans (if_pos covers)),
      fun ok few => writes (eq.trans (if_neg (fun h => h.elim (fun bad => bad ok) (fun many => Nat.not_le.mpr few many))))⟩
  · exact State.inPower_runsTo (f := fun p => p.interruptTimer c) hp rfl (Pkg.interruptTimer_due time some up)
  · exact State.inPower_runsTo (f := fun p => p.interruptTimer c) hp rfl (Pkg.interruptTimer_covered none)

end Sys2Proof.Machine
end
